-- ==== Sys2Proof/Word.lean ====
section
/-!
DEFINITION. The word types of the part: every register is 64 bits (R7), memory is bytes, FP32 values are 32 bits.
-/
namespace Sys2Proof

/-- One byte of memory. -/
abbrev Byte := BitVec 8

/-- One 64-bit register or packet word (R7). -/
abbrev Word := BitVec 64

/-- One 32-bit word: an FP32 value, a Philox word, a half register. -/
abbrev Half := BitVec 32

end Sys2Proof
end

