-- ==== Sys2Proof/Syntax.lean ====
section
/-!
DEFINITION. The commands of the part: one constructor for each row of spec/opcode_table.json, with what the row's step
needs from outside as operands: the writing function, the value written, the number of an in-flight entry, ring or
context, and what the environment supplies (a sampled voltage or temperature, a message received, a training outcome,
core time charged). Device-internal numbers of in-flight entries (`id`) are the model's own (log entry 10).
-/
namespace Sys2Proof

/-- The safety loops of PWR_GROUP.LIMIT (Table 15.16). -/
inductive LoopName where
  | power | junction | dram | input
  deriving DecidableEq, Repr

/-- The body of a fabric message (Tables 12.3, 12.5 and 13.3; R321, R326, R332). -/
inductive FabBody where
  /-- HELLO: device ID, GLB_SERIAL, port, eligibility, whether the sender is a switch (R321). -/
  | hello (id : Nat) (serial : Word) (port : Nat) (eligible switch : Bool)
  /-- ELECT: the lowest eligible ID the sender knows (R326). -/
  | elect (lowest : Nat)
  /-- HEARTBEAT: domain time in 10 ns units and the correction added on its path (R332). -/
  | heartbeat (time correction : Nat)
  /-- TIME: measured round trip and residency, 10 ns units (R332). -/
  | time (roundTrip residency : Nat)
  /-- CLASP (Table 12.5); edge_time in 10 ns units. -/
  | clasp (tick step : Nat) (stepValid : Bool) (edgeTime : Nat) (tck : Word) (epoch standby : Nat) (standbyValid : Bool)
  | ready (interval : Nat)
  | unready (interval : Nat)
  /-- MEMBER: the changes (ID, joins) that apply at the named edge, a takeover's new manager, the standby (R325, R328). -/
  | member (changes : List (Nat × Bool)) (edge : Nat) (takeover : Option Nat) (standby : Option Nat) (epoch : Nat)
  /-- FLOCK_DROP: the step reported and the limiting term, by its LIMIT code (R334, R395, Table 15.16). -/
  | flockDrop (step term : Nat)
  /-- Collective data or abort (Table 13.3, kind 0); the tag of the header is coll_seq. -/
  | coll (op key srcRank contributors : Nat) (abort : Bool) (first anchor : Nat) (data : List Byte)
  /-- Ring-attention block (Table 13.3, kinds 1 to 3). -/
  | ringBlock (kind origin hops posBase page kExp vExp rows : Nat) (data : List Byte)
  deriving DecidableEq, Repr

/-- A fabric message (Table 12.4). -/
structure FabMsg where
  dst : Nat
  src : Nat
  bcast : Bool
  tag : Nat
  mseq : Nat
  body : FabBody
  deriving DecidableEq, Repr

/-- A configuration write by what it sets (R434, Table 18.2). -/
inductive CfgField where
  | memEnable (on : Bool)
  | bar4Size (log : Nat)
  | vfEnable (on : Bool)
  | numVfs (n : Nat)
  /-- PowerState: true is D3hot. -/
  | powerState (d3hot : Bool)
  | msixEnable (on : Bool)
  | msixFunctionMask (on : Bool)
  /-- Any other writable field of a capability the function has, by configuration offset. -/
  | other (offset value : Nat)
  deriving DecidableEq, Repr

/-- What only the environment knows at an edge: the measured words of the telemetry record (R426), and the core time that each command
under way has used since the last edge (R44), by in-flight number. -/
structure EdgeReport where
  tel : List Nat
  used : List (Nat × Nat)
  deriving DecidableEq, Repr

/-- What only the environment knows of a yield: the remaining time of the item in hand, the core time it took, and how many of its blocks
are converted (R152, R155, R366). -/
structure YieldReport where
  left : Nat
  core : Nat
  blocks : Nat
  deriving DecidableEq, Repr

/-- A number that a step names, of a command, an item or a chunk, with the core time that the step took (R45). -/
structure Timed where
  no : Nat
  core : Nat
  deriving DecidableEq, Repr

/-- The commands. -/
inductive Instr where
  /-- INPUT_STAGE_CHARGED (R440). -/
  | inputStageCharged (volts slot : Nat)
  /-- INPUT_REMOVED (R441). -/
  | inputRemoved
  /-- INPUT_SAMPLE (R378). -/
  | inputSample (volts amps p10 p1000 p100k busiest : Nat) (droopGroups : List Nat)
  /-- RIDE_THROUGH_TIMEOUT (R378). -/
  | rideThroughTimeout
  /-- RIDE_THROUGH_END (R379). -/
  | rideThroughEnd
  /-- POWER_FAIL_SHUTDOWN (R380). -/
  | powerFailShutdown
  /-- INPUT_OV_TIMEOUT (R378). -/
  | inputOvTimeout
  /-- EXCURSION_TIMEOUT (R389). -/
  | excursionTimeout
  /-- DROOP_DETECT (R391). -/
  | droopDetect (group millivolts : Nat)
  /-- DROOP_RECOVERY (R391). -/
  | droopRecovery (group cycles : Nat)
  /-- JUNCTION_SAMPLE (R392). -/
  | junctionSample (temps : List Int)
  /-- THERMAL_TRIP (R392). -/
  | thermalTrip
  /-- DRAM_TEMP_SAMPLE (R393). -/
  | dramTempSample (vaults packages : List Int) (derate : Nat)
  /-- LOOP_RELEASE_STEP_UP (R387). -/
  | loopReleaseStepUp (group : Nat) (loop : LoopName)
  /-- STEP_CHANGE_COMPLETE (R387). -/
  | stepChangeComplete (group : Nat)
  /-- ACTIVITY_RAMP (R390). -/
  | activityRamp (group demand stall fill : Nat)
  /-- ENERGY_WINDOW (R397). -/
  | energyWindow (total background : Nat) (dynamic times : List (Nat × Nat))
  /-- DOMAIN_POWER_UP_COMPLETE (R383). -/
  | domainPowerUpComplete (domain : Nat)
  /-- SURPRISE_DOWN (R5). -/
  | surpriseDown
  /-- FUNCTION_LEVEL_RESET (R357). -/
  | functionLevelReset (fn : Nat)
  /-- VF_ENABLE_CLEAR (R357). -/
  | vfEnableClear
  /-- AUTO_BOOT_START (R381). -/
  | autoBootStart
  /-- FIRMWARE_ACCEPTED (R402). -/
  | firmwareAccepted
  /-- BOOT_TIMEOUT (R404). -/
  | bootTimeout
  /-- TRAIN_COMPLETE (R76). -/
  | trainComplete (cores vaults channels ports awl kat : Nat)
  /-- TICK_EDGE (R47). -/
  | tickEdge (len : Nat) (report : EdgeReport)
  /-- STATE_TRANSFER_COMPLETE (R40). -/
  | stateTransferComplete (ring : Nat)
  /-- CORE_YIELD_DONE (R152). -/
  | coreYieldDone (array time : Nat) (report : YieldReport)
  /-- TICK_FENCE_EXPIRY (R92). -/
  | tickFenceExpiry (id : Nat)
  /-- HOLD_LIMIT_EXPIRY (R24). -/
  | holdLimitExpiry (id : Nat)
  /-- CMD_DOORBELL (R84). -/
  | cmdDoorbell (fn ring : Nat) (value : Word)
  /-- RETURN_HEAD_DOORBELL (R83). -/
  | returnHeadDoorbell (fn ctx : Nat) (value : Word)
  /-- PACKET_FETCH (R99). -/
  | packetFetch (ring : Nat) (host : List Byte)
  /-- COMMAND_ADMIT (R98). -/
  | commandAdmit (ring : Nat)
  /-- RECORD_WRITE (R103). -/
  | recordWrite (ctx : Nat)
  /-- RETURN_IRQ_TIMEOUT (R102). -/
  | returnIrqTimeout (ctx : Nat)
  /-- MATMUL (R120). -/
  | matmul (id core : Nat)
  /-- CONV (R236). -/
  | conv (id core : Nat)
  /-- SCAN (R187). -/
  | scan (id core : Nat)
  /-- SLOT_ACQUIRE (R199). -/
  | slotAcquire (id : Nat)
  /-- ATTN (R228). -/
  | attn (id core : Nat)
  /-- UPDATE (R265). -/
  | update (id core : Nat)
  /-- RNG_FILL (R260). -/
  | rngFill (id core : Nat)
  /-- STAGE_START (R95). -/
  | stageStart (command : Timed)
  /-- ITEM_CLAIM (R151). -/
  | itemClaim (id array : Nat)
  /-- ITEM_COMPLETE (R155). -/
  | itemComplete (id array core : Nat)
  /-- SLICE_ADD (R156). -/
  | sliceAdd (id : Nat) (item : Timed)
  /-- STAGE_COMPLETE (R95). -/
  | stageComplete (id time : Nat)
  /-- WELT_PACKET_RECEIVE (R163). -/
  | weltPacketReceive (id dst seq : Nat) (crcOk : Bool)
  /-- SEAM_RECEIVE (R205). -/
  | seamReceive (id entry chunk : Nat)
  /-- CHUNK_RECURRENCE (R204). -/
  | chunkRecurrence (id entry : Nat) (chunk : Timed)
  /-- PREFETCH (R172). -/
  | prefetch (id array va len fmt : Nat)
  /-- LOAD (R295). -/
  | load (id : Nat)
  /-- STORE (R295). -/
  | store (id : Nat)
  /-- MIGRATE (R300). -/
  | migrate (id : Nat)
  /-- FORK (R27). -/
  | fork (id : Nat)
  /-- PARK (R37). -/
  | park (id : Nat)
  /-- RESUME (R37). -/
  | resume (id : Nat)
  /-- EVENT (R91). -/
  | event (id : Nat)
  /-- WAIT (R91). -/
  | wait (ring : Nat)
  /-- WAIT_POLL (R91). -/
  | waitPoll
  /-- TICK_FENCE (R92). -/
  | tickFence (id : Nat)
  /-- CONFIG (R93). -/
  | config (id : Nat)
  /-- COMMIT (R94). -/
  | commit (id : Nat)
  /-- ALLREDUCE (R345). -/
  | allreduce (id : Nat)
  /-- REDUCE_SCATTER (R342). -/
  | reduceScatter (id : Nat)
  /-- ALLGATHER (R342). -/
  | allgather (id : Nat)
  /-- BROADCAST (R342). -/
  | broadcast (id : Nat)
  /-- ALLTOALL (R350). -/
  | alltoall (id : Nat)
  /-- SEND (R354). -/
  | send (id : Nat)
  /-- RECV (R354). -/
  | recv (id : Nat)
  /-- ANCHOR (R352). -/
  | anchor (id : Nat)
  /-- COLLECTIVE_DATA (R346). -/
  | collectiveData (port : Nat) (msg : FabMsg)
  /-- COLLECTIVE_ABORT (R349). -/
  | collectiveAbort (port : Nat) (msg : FabMsg)
  /-- RING_KV_BLOCK (R232). -/
  | ringKvBlock (port : Nat) (msg : FabMsg)
  /-- RING_OPEN (R81). -/
  | ringOpen (fn first count : Nat)
  /-- RING_CLOSE (R82). -/
  | ringClose (fn first count : Nat)
  /-- CTX_OPEN (R358). -/
  | ctxOpen (fn part ctx count first : Nat)
  /-- CTX_CLOSE (R360). -/
  | ctxClose (fn ctx : Nat)
  /-- CTX_SAVE (R368). -/
  | ctxSave (fn ctx : Nat) (discard : Bool)
  /-- SAVE_IMAGE_WRITE (R369). -/
  | saveImageWrite (ctx : Nat)
  /-- CTX_RESTORE (R371). -/
  | ctxRestore (fn ctx : Nat)
  /-- CTX_TEARDOWN (R373). -/
  | ctxTeardown (fn ctx : Nat)
  /-- HOL_STAGE_WRITE (R68). -/
  | holStageWrite (fn off : Nat) (bytes : List Byte)
  /-- HOL_VERIFY (R66). -/
  | holVerify (fn : Nat)
  /-- HOL_VERIFY_DONE (R67). -/
  | holVerifyDone
  /-- HOL_COMMIT (R69). -/
  | holCommit (fn : Nat)
  /-- HOL_DISCARD (R68). -/
  | holDiscard (fn : Nat)
  /-- HOL_STORE (R74). -/
  | holStore (fn : Nat)
  /-- HOL_STORE_DONE (R74). -/
  | holStoreDone (ok : Bool)
  /-- HOL_APPLY_COMPLETE (R70). -/
  | holApplyComplete
  /-- FRAGMENT_ABANDON (R72). -/
  | fragmentAbandon
  /-- STATE_REQ_READY (R4). -/
  | stateReqReady (fn : Nat)
  /-- STATE_REQ_SAFE (R4). -/
  | stateReqSafe (fn : Nat)
  /-- GLB_COMMIT_WRITE (R438). -/
  | glbCommitWrite (fn mask : Nat)
  /-- REGISTER_WRITE (R436). -/
  | registerWrite (fn off size : Nat) (value : Word)
  /-- BAR4_READ (R276). -/
  | bar4Read (fn addr len : Nat)
  /-- BAR4_WRITE (R276). -/
  | bar4Write (fn addr : Nat) (bytes : List Byte)
  /-- KV_CTX_CFG_WRITE (R211). -/
  | kvCtxCfgWrite (fn ctx : Nat) (value : Word)
  /-- MEM_CLASS_WRITE (R289). -/
  | memClassWrite (fn vault index : Nat) (value : Word)
  /-- BLK_CLASS_WRITE (R289). -/
  | blkClassWrite (fn index : Nat) (value : Word)
  /-- CLASS_CLEAR_COMPLETE (R289). -/
  | classClearComplete (frame : Nat)
  /-- MIG_INVAL (R298). -/
  | migInval (fn : Nat) (value : Word)
  /-- MIG_INVAL_COMPLETE (R298). -/
  | migInvalComplete
  /-- MIG_PUSH (R304). -/
  | migPush (fn part : Nat) (value : Word)
  /-- MIGRATION_EPOCH (R301). -/
  | migrationEpoch (part : Nat)
  /-- MIGRATION_MOVE (R302). -/
  | migrationMove (part : Nat)
  /-- REFRESH (R282). -/
  | refresh (tier vault channel : Nat) (upsets : List (Nat × Nat))
  /-- PATROL_SCRUB (R305). -/
  | patrolScrub (addr len : Nat) (last : Bool)
  /-- MEM_MARGIN_START (R307). -/
  | memMarginStart (fn vault : Nat) (value : Word)
  /-- BLK_MARGIN_START (R307). -/
  | blkMarginStart (fn : Nat) (value : Word)
  /-- MARGIN_DONE (R307). -/
  | marginDone (unit errors : Nat)
  /-- BULK_RECALIBRATION (R428). -/
  | bulkRecalibration (channel : Nat) (retrain : Bool)
  /-- PORT_UP (R313). -/
  | portUp (port badLanes : Nat)
  /-- LINK_DOWN (R315). -/
  | linkDown (port : Nat)
  /-- LINK_PACKET_RECEIVE (R315). -/
  | linkPacketReceive (port seq ack corrected : Nat) (crcOk fecOk : Bool) (msg : Option FabMsg)
  /-- RETRAIN_COMPLETE (R315). -/
  | retrainComplete (port badLanes : Nat)
  /-- PLK_RETRAIN (R315). -/
  | plkRetrain (fn port : Nat)
  /-- PLK_MARGIN_START (R336). -/
  | plkMarginStart (fn port : Nat) (value : Word)
  /-- PLK_MARGIN_DONE (R336). -/
  | plkMarginDone (port errors : Nat)
  /-- PELVAS_RECALIBRATION (R428). -/
  | pelvasRecalibration (port lane : Nat)
  /-- HELLO (R321). -/
  | hello (port : Nat) (msg : FabMsg)
  /-- HELLO_TIMER (R321). -/
  | helloTimer
  /-- ELECT (R326). -/
  | elect (port : Nat) (msg : FabMsg)
  /-- ELECTION_TIMEOUT (R326). -/
  | electionTimeout
  /-- HEARTBEAT (R332). -/
  | heartbeat (port : Nat) (msg : FabMsg)
  /-- HEARTBEAT_TIMER (R324). -/
  | heartbeatTimer
  /-- TIME (R332). -/
  | time (port : Nat) (msg : FabMsg)
  /-- TIME_TIMER (R332). -/
  | timeTimer
  /-- CLASP (R329). -/
  | clasp (port : Nat) (msg : FabMsg)
  /-- CLASP_SEND (R330). -/
  | claspSend (now : Nat)
  /-- HOLDOVER_EDGE (R328). -/
  | holdoverEdge (len : Nat) (report : EdgeReport)
  /-- READY (R331). -/
  | ready (port : Nat) (msg : FabMsg)
  /-- READY_SEND (R331). -/
  | readySend
  /-- UNREADY (R331). -/
  | unready (port : Nat) (msg : FabMsg)
  /-- MEMBER (R325). -/
  | member (port : Nat) (msg : FabMsg)
  /-- MEMBER_LOSS_TIMEOUT (R324). -/
  | memberLossTimeout (id : Nat)
  /-- STANDBY_TAKEOVER (R328). -/
  | standbyTakeover
  /-- FLOCK_DROP (R334). -/
  | flockDrop (port : Nat) (msg : FabMsg)
  /-- FLOCK_DROP_TIMER (R395). -/
  | flockDropTimer
  /-- FI_HOLD_RELEASE (R335). -/
  | fiHoldRelease (rule : Nat)
  /-- CLX_ID_WRITE (R319). -/
  | clxIdWrite (fn : Nat) (value : Word)
  /-- ADVANCE_SVN (R405). -/
  | advanceSvn (fn arg : Nat)
  /-- REVOKE_KEY (R405). -/
  | revokeKey (fn arg : Nat)
  /-- ENROLL_OWNER (R405). -/
  | enrollOwner (fn : Nat)
  /-- CLEAR_OWNER (R405). -/
  | clearOwner (fn : Nat)
  /-- SEC_OP_COMPLETE (R405). -/
  | secOpComplete (ok : Bool)
  /-- GET_VERSION (R415). -/
  | getVersion (binding : Nat) (req : List Byte)
  /-- GET_CAPABILITIES (R415). -/
  | getCapabilities (binding : Nat) (req : List Byte)
  /-- NEGOTIATE_ALGORITHMS (R415). -/
  | negotiateAlgorithms (binding : Nat) (req : List Byte)
  /-- GET_DIGESTS (R415). -/
  | getDigests (binding : Nat) (req : List Byte)
  /-- GET_CERTIFICATE (R413). -/
  | getCertificate (binding : Nat) (req : List Byte)
  /-- CHALLENGE (R415). -/
  | challenge (binding : Nat) (req : List Byte)
  /-- GET_MEASUREMENTS (R416). -/
  | getMeasurements (binding : Nat) (req : List Byte)
  /-- CHUNK_SEND (R415). -/
  | chunkSend (binding : Nat) (req : List Byte)
  /-- CHUNK_GET (R415). -/
  | chunkGet (binding : Nat) (req : List Byte)
  /-- RESPOND_IF_READY (R415). -/
  | respondIfReady (binding : Nat) (req : List Byte)
  /-- SPDM_UNSUPPORTED_REQUEST (R415). -/
  | spdmUnsupportedRequest (binding : Nat) (req : List Byte)
  /-- MGT_LOG_CLEAR (R425). -/
  | mgtLogClear (fn : Nat)
  /-- LOG_FLUSH_TIMER (R425). -/
  | logFlushTimer
  /-- AGEING_CHECK (R430). -/
  | ageingCheck (group : Nat) (fell : Bool)
  /-- DEVICE_POWER_ON (R420). -/
  | devicePowerOn
  /-- DEVICE_POWER_OFF (R420). -/
  | devicePowerOff
  /-- FAULT_RESET (R420). -/
  | faultReset
  /-- AUTO_BOOT (R420). -/
  | autoBoot (value : Nat)
  /-- SAFE_BOOT (R409). -/
  | safeBoot (value : Nat)
  /-- BMC_STATE_REQUEST (R4). -/
  | bmcStateRequest (value : Nat)
  /-- POWER_MODE (R388). -/
  | powerMode (value : Nat)
  /-- STEP_CEILING (R386). -/
  | stepCeiling (value : Nat)
  /-- LOG_SNAPSHOT (R425). -/
  | logSnapshot (value : Nat)
  /-- DOMAIN_REQUEST (R375). -/
  | domainRequest (domain value : Nat)
  /-- BMC_DEVICE_ID (R319). -/
  | bmcDeviceId (value : Nat)
  /-- GET_PDR (R420). -/
  | getPdr (handle : Nat)
  /-- GET_PDR_REPOSITORY_INFO (R420). -/
  | getPdrRepositoryInfo
  /-- SET_EVENT_RECEIVER (R421). -/
  | setEventReceiver (eid : Nat)
  /-- GET_SENSOR_READING (R420). -/
  | getSensorReading (sensor : Nat)
  /-- GET_STATE_SENSOR_READINGS (R420). -/
  | getStateSensorReadings (sensor : Nat)
  /-- GET_STATE_EFFECTER_STATES (R420). -/
  | getStateEffecterStates (effecter : Nat)
  /-- GET_NUMERIC_EFFECTER_VALUE (R420). -/
  | getNumericEffecterValue (effecter : Nat)
  /-- POLL_FOR_PLATFORM_EVENT_MESSAGE (R420). -/
  | pollForPlatformEventMessage (ack : Option Nat)
  /-- REQUEST_UPDATE (R422). -/
  | requestUpdate (agent : Nat)
  /-- UPDATE_COMPONENT (R423). -/
  | updateComponent (agent component : Nat)
  /-- COMPONENT_VERIFY_DONE (R423). -/
  | componentVerifyDone
  /-- ACTIVATE_FIRMWARE (R423). -/
  | activateFirmware (agent : Nat)
  /-- SET_ENDPOINT_ID (R419). -/
  | setEndpointId (binding eid : Nat)
  /-- GET_ENDPOINT_ID (R419). -/
  | getEndpointId (binding : Nat)
  /-- GET_MCTP_VERSION_SUPPORT (R419). -/
  | getMctpVersionSupport (binding type : Nat)
  /-- GET_MESSAGE_TYPE_SUPPORT (R419). -/
  | getMessageTypeSupport (binding : Nat)
  /-- GET_ENDPOINT_UUID (R419). -/
  | getEndpointUuid (binding : Nat)
  /-- PCIE_LINK_UP (R433). -/
  | pcieLinkUp (speed width : Nat)
  /-- CONFIGURATION_SPACE_WRITE (R434). -/
  | configurationSpaceWrite (fn : Nat) (field : CfgField)
  /-- MSI_X_TABLE_WRITE (R435). -/
  | msiXTableWrite (fn off size : Nat) (value : Word)
  /-- PLATFORM_EVENT_ACKNOWLEDGE (R421). -/
  | platformEventAcknowledge (id : Nat)
  /-- COMPONENT_DATA_TRANSFER (R422). -/
  | componentDataTransfer (agent offset : Nat) (bytes : List Byte)
  /-- LOG_WRITE_COMPLETE (R425). -/
  | logWriteComplete
  deriving DecidableEq, Repr

end Sys2Proof
end

