-- ==== Sys2Proof/WellFormed.lean ====
section
/-!
DEFINITION. The ranges of the commands' operands, one named check for each kind of operand, and `Instr.wf`, which applies
them. A command outside them still has a meaning (it changes nothing, or the part turns it away); what sends well-formed
commands is the host, the fabric, the BMC and the part's own controllers.
-/
namespace Sys2Proof

/-- PCIe functions: the physical function 0 and virtual functions 1 to 16 (R356). -/
def fnOk (fn : Nat) : Bool := fn < 17
/-- Rings 0 to 262,143 (00_scope.md). -/
def ringOk (ring : Nat) : Bool := ring < 262144
/-- Contexts 0 to 4,095, one return ring each (00_scope.md). -/
def ctxOk (ctx : Nat) : Bool := ctx < 4096
/-- Partitions 0 to 15 (00_scope.md). -/
def partitionOk (p : Nat) : Bool := p < 16
/-- Cores 0 to 63 (00_scope.md). -/
def coreOk (core : Nat) : Bool := core < 64
/-- Arrays: the cores' 0 to 63, then the four awl engines (R246). -/
def arrayOk (a : Nat) : Bool := a < 68
/-- Vaults 0 to 63 (R277). -/
def vaultOk (v : Nat) : Bool := v < 64
/-- Bulk channels 0 to 63 (R283). -/
def channelOk (c : Nat) : Bool := c < 64
/-- Pelvas ports 0 to 11 (R311). -/
def portOk (p : Nat) : Bool := p < 12
/-- Lanes 0 to 3 of a port (R311). -/
def laneOk (l : Nat) : Bool := l < 4
/-- Quad groups 0 to 15 (R65). -/
def groupOk (g : Nat) : Bool := g < 16
/-- Power domains PD00 to PD29 (R374). -/
def domainOk (d : Nat) : Bool := d < 30
/-- Fault-injection rules 0 to 15 (R335). -/
def ruleOk (r : Nat) : Bool := r < 16
/-- Management bindings: 0 SMBus, 1 PCIe VDM (R418). -/
def bindingOk (b : Nat) : Bool := b < 2
/-- Sizes of a register write: 4 or 8 bytes (R436). -/
def sizeOk (n : Nat) : Bool := n = 4 || n = 8
/-- A 16-bit device ID (R319). -/
def deviceIdOk (id : Nat) : Bool := id < 65536
/-- Header fields of a fabric message within their widths (Table 12.4). -/
def msgOk (m : FabMsg) : Bool := deviceIdOk m.dst && deviceIdOk m.src && decide (m.tag < 2 ^ 32) && decide (m.mseq < 2 ^ 32)
/-- Sampled temperatures fit the 16-bit fields they are shown in (R392, R393). -/
def tempsOk (l : List Int) : Bool := l.all fun t => decide (-32768 ≤ t ∧ t < 32768)

/-- The command's operands are in range. -/
def Instr.wf : Instr → Bool
  | .inputSample _ _ _ _ _ busiest gs => groupOk busiest && gs.all groupOk
  | .inputStageCharged _ slot => decide (slot < 8)
  | .droopDetect g _ | .droopRecovery g _ | .loopReleaseStepUp g _ | .stepChangeComplete g | .activityRamp g _ _ _
  | .ageingCheck g _ => groupOk g
  | .junctionSample ts => tempsOk ts
  | .dramTempSample vs ps _ => tempsOk vs && tempsOk ps
  | .domainPowerUpComplete d | .domainRequest d _ => domainOk d
  | .functionLevelReset fn | .holStageWrite fn _ _ | .holVerify fn | .holCommit fn | .holDiscard fn | .holStore fn
  | .stateReqReady fn | .stateReqSafe fn | .glbCommitWrite fn _ | .bar4Read fn _ _ | .bar4Write fn _ _ | .migInval fn _
  | .blkMarginStart fn _ | .clxIdWrite fn _ | .advanceSvn fn _ | .revokeKey fn _ | .enrollOwner fn | .clearOwner fn
  | .mgtLogClear fn | .blkClassWrite fn _ _ | .configurationSpaceWrite fn _ => fnOk fn
  | .cmdDoorbell fn ring _ => fnOk fn && ringOk ring
  | .ringOpen fn first _ | .ringClose fn first _ => fnOk fn && ringOk first
  | .ctxOpen fn part ctx _ first => fnOk fn && partitionOk part && ctxOk ctx && ringOk first
  | .ctxClose fn ctx | .ctxSave fn ctx _ | .ctxRestore fn ctx | .ctxTeardown fn ctx | .kvCtxCfgWrite fn ctx _
  | .returnHeadDoorbell fn ctx _ => fnOk fn && ctxOk ctx
  | .registerWrite fn _ size _ | .msiXTableWrite fn _ size _ => fnOk fn && sizeOk size
  | .memClassWrite fn v _ _ | .memMarginStart fn v _ => fnOk fn && vaultOk v
  | .migPush fn p _ => fnOk fn && partitionOk p
  | .plkRetrain fn p | .plkMarginStart fn p _ => fnOk fn && portOk p
  | .stateTransferComplete ring | .packetFetch ring _ | .commandAdmit ring | .wait ring => ringOk ring
  | .recordWrite ctx | .returnIrqTimeout ctx | .saveImageWrite ctx => ctxOk ctx
  | .migrationEpoch p | .migrationMove p => partitionOk p
  | .coreYieldDone a _ _ | .itemClaim _ a | .prefetch _ a _ _ _ => arrayOk a
  | .itemComplete _ a _ => arrayOk a
  | .weltPacketReceive _ dst _ _ => coreOk dst
  | .refresh _ v c _ => vaultOk v && channelOk c
  | .bulkRecalibration c _ => channelOk c
  | .marginDone u _ => decide (u < 65)
  | .portUp p _ | .linkDown p | .retrainComplete p _ | .plkMarginDone p _ => portOk p
  | .pelvasRecalibration p l => portOk p && laneOk l
  | .linkPacketReceive p _ _ _ _ _ m => portOk p && m.all msgOk
  | .hello p m | .elect p m | .heartbeat p m | .time p m | .clasp p m | .ready p m | .unready p m | .member p m | .flockDrop p m
  | .collectiveData p m | .collectiveAbort p m | .ringKvBlock p m => portOk p && msgOk m
  | .memberLossTimeout id | .bmcDeviceId id => deviceIdOk id
  | .fiHoldRelease r => ruleOk r
  | .getVersion b _ | .getCapabilities b _ | .negotiateAlgorithms b _ | .getDigests b _ | .getCertificate b _ | .challenge b _
  | .getMeasurements b _ | .chunkSend b _ | .chunkGet b _ | .respondIfReady b _ | .spdmUnsupportedRequest b _ | .requestUpdate b
  | .updateComponent b _ | .activateFirmware b | .componentDataTransfer b _ _ | .setEndpointId b _ | .getEndpointId b
  | .getMctpVersionSupport b _ | .getMessageTypeSupport b | .getEndpointUuid b => bindingOk b
  | .inputRemoved | .rideThroughTimeout | .rideThroughEnd | .powerFailShutdown | .inputOvTimeout | .excursionTimeout | .thermalTrip
  | .energyWindow _ _ _ _ | .surpriseDown | .vfEnableClear | .autoBootStart | .firmwareAccepted | .bootTimeout
  | .trainComplete _ _ _ _ _ _ | .tickEdge _ _ | .tickFenceExpiry _ | .holdLimitExpiry _ | .slotAcquire _ | .stageStart _
  | .sliceAdd _ _ | .stageComplete _ _ | .matmul _ _ | .conv _ _ | .scan _ _ | .attn _ _ | .update _ _ | .rngFill _ _
  | .seamReceive _ _ _ | .chunkRecurrence _ _ _ | .load _
  | .store _ | .migrate _ | .fork _ | .park _ | .resume _ | .event _ | .waitPoll | .tickFence _ | .config _ | .commit _
  | .allreduce _ | .reduceScatter _ | .allgather _ | .broadcast _ | .alltoall _ | .send _ | .recv _ | .anchor _
  | .holVerifyDone | .holStoreDone _ | .holApplyComplete | .fragmentAbandon | .classClearComplete _ | .migInvalComplete
  | .patrolScrub _ _ _ | .helloTimer | .electionTimeout | .heartbeatTimer | .timeTimer | .claspSend _ | .holdoverEdge _ _
  | .readySend | .standbyTakeover | .flockDropTimer | .secOpComplete _ | .logFlushTimer | .devicePowerOn | .devicePowerOff
  | .faultReset | .autoBoot _ | .safeBoot _ | .bmcStateRequest _ | .powerMode _ | .stepCeiling _ | .logSnapshot _ | .getPdr _
  | .getPdrRepositoryInfo | .setEventReceiver _ | .getSensorReading _ | .getStateSensorReadings _ | .getStateEffecterStates _
  | .getNumericEffecterValue _ | .pollForPlatformEventMessage _ | .componentVerifyDone | .pcieLinkUp _ _
  | .platformEventAcknowledge _ | .logWriteComplete => true

/-- The function whose access the command is, where it is one (R356, R436). -/
def Instr.issuer : Instr → Option Nat
  | .functionLevelReset fn | .holStageWrite fn _ _ | .holVerify fn | .holCommit fn | .holDiscard fn | .holStore fn
  | .stateReqReady fn | .stateReqSafe fn | .glbCommitWrite fn _ | .bar4Read fn _ _ | .bar4Write fn _ _ | .migInval fn _
  | .blkMarginStart fn _ | .clxIdWrite fn _ | .advanceSvn fn _ | .revokeKey fn _ | .enrollOwner fn | .clearOwner fn
  | .mgtLogClear fn | .blkClassWrite fn _ _ | .configurationSpaceWrite fn _ | .cmdDoorbell fn _ _ | .returnHeadDoorbell fn _ _
  | .ringOpen fn _ _ | .ringClose fn _ _ | .ctxOpen fn _ _ _ _ | .ctxClose fn _ | .ctxSave fn _ _ | .ctxRestore fn _
  | .ctxTeardown fn _ | .kvCtxCfgWrite fn _ _ | .registerWrite fn _ _ _ | .msiXTableWrite fn _ _ _ | .memClassWrite fn _ _ _
  | .memMarginStart fn _ _ | .migPush fn _ _ | .plkRetrain fn _ | .plkMarginStart fn _ _ => some fn
  | _ => none

/-- The message the command brings from a port, where it does (Table 12.4). -/
def Instr.message : Instr → Option FabMsg
  | .hello _ m | .elect _ m | .heartbeat _ m | .time _ m | .clasp _ m | .ready _ m | .unready _ m | .member _ m | .flockDrop _ m
  | .collectiveData _ m | .collectiveAbort _ m | .ringKvBlock _ m => some m
  | .linkPacketReceive _ _ _ _ _ _ m => m
  | _ => none

end Sys2Proof
end

