-- ==== Sys2Proof/Decode.lean ====
section
/-!
DEFINITION. Words that spell commands. The part has no instruction words: its commands are register accesses, messages,
events on pins and timers, and no row of the opcode table gives bits. The bytes of command packets are decoded where a ring
fetches them (Machine/Rings.lean).
-/
namespace Sys2Proof

/-- The command a word spells by the table's bits: no row gives any. -/
def decodeTableWord (_nbits _w : Nat) : Option Instr := none

end Sys2Proof
end

