-- ==== Sys2Proof/Config.lean ====
section
/-!
DEFINITION. What one implementation fixes and the values the spec leaves open, as constants without a body: no proof can
see their values. `State.free` counts the draws of fresh free values.
-/
namespace Sys2Proof

/-- A fresh value the spec leaves open, by draw number. -/
opaque Config.freeNat : Nat → Nat

/-- The memory writes an unpredictable outcome makes, by draw number: (context, virtual address, byte) (R20). -/
opaque Config.unpredWrites : Nat → List (Nat × Nat × BitVec 8)
/-- The status an unpredictable outcome returns, and the contexts it tears down (R20). -/
opaque Config.unpredStatus : Nat → Nat
@[inherit_doc Config.unpredStatus] opaque Config.unpredTear : Nat → List Nat

/-- The gate functions of Weafort's reference implementation, by function code, λ of DECAY and input, on FP32 bits: what they give within
the bounds of Table 7.2 (R192). -/
opaque Config.gateFn : Nat → Nat → Nat → Nat
/-- Whether a result that the bounds allow on either side of the largest finite FP32 was limited to it: by function code and input; of C
and S, by ρ, θ and which (R192). -/
opaque Config.gateLimited : Nat → Nat → Bool
@[inherit_doc Config.gateLimited] opaque Config.rotLimited : Nat → Nat → Bool → Bool
/-- COMPLEX: ρ·cos θ and ρ·sin θ, by ρ and θ, FP32 bits (R191). -/
opaque Config.gateCos : Nat → Nat → Nat
@[inherit_doc Config.gateCos] opaque Config.gateSin : Nat → Nat → Nat
/-- An FP32 operation of UPDATE, RNG_FILL or the gates whose exact result, num / den, lies beyond the largest finite FP32:
the spec states no result (log entry 11). -/
opaque Config.fp32Beyond : Int → Nat → Nat
/-- The anchor of a CONV stage under the Descriptor policy, whose descriptor has no anchor field, by its word 7 (log entry
14). -/
opaque Config.convAnchor : Nat → Nat
/-- The exponent E of the largest |g| of a FACTORED group whose gradient is zero throughout, by rows and columns: the spec gives none
(R267). -/
opaque Config.zeroExp : (rows cols : Nat) → Int
/-- NORMAL values from two draw words, and the CATEGORICAL noise from the top 24 bits of one (R260, R261): what the reference
implementation gives within 4 ulp, FP32 bits. -/
opaque Config.normalFn : Nat → Nat → Nat
@[inherit_doc Config.normalFn] opaque Config.gumbelFn : Nat → Nat

/-- Pages of the shard of a ring-attention member, by ring_seq and origin: known to that member alone (log entry 17). -/
opaque Config.ringPages : Nat → Nat → Nat

/-- SLH-DSA of FIPS 205 (R401, R411, R415): verification of a 128s signature; the 128f public key of 48 seed bytes;
the deterministic 128f signature. -/
opaque Config.slhVerify : (key msg sig : List (BitVec 8)) → Bool
@[inherit_doc Config.slhVerify] opaque Config.slhPublic : (seeds : List (BitVec 8)) → List (BitVec 8)
@[inherit_doc Config.slhVerify] opaque Config.slhSign : (seeds msg : List (BitVec 8)) → List (BitVec 8)
/-- The X.509 bytes of the alias certificate for a public key, measurements and svn, signed by the identity seeds (R412). -/
opaque Config.aliasCert : (idSeeds pk meas : List (BitVec 8)) → (svn : Nat) → List (BitVec 8)
/-- Digest of the boot ROM (R410). -/
opaque Config.romDigest : List (BitVec 8)
/-- The bytes hashed into M0, M2 and M5: the fuse reading (key digests, REVOKE, rollback count), the slot's identity
(slot, svn, key_index, version) and the unavailable-unit record (cores, vaults, channels, ports, awl engines); the spec
names the contents and not their layout (R410). -/
opaque Config.fuseReading : (digests : List (BitVec 8)) → (revoke rollback : Nat) → List (BitVec 8)
@[inherit_doc Config.fuseReading] opaque Config.slotIdentity : (slot svn key version : Nat) → List (BitVec 8)
@[inherit_doc Config.fuseReading] opaque Config.unitRecord : (cores vaults channels ports awl : Nat) → List (BitVec 8)
/-- The SPDM 1.2 combined prefix, by message kind (R415). -/
opaque Config.spdmPrefix : Nat → List (BitVec 8)
/-- A nonce of the DRBG, by draw number (R416). -/
opaque Config.nonce : Nat → List (BitVec 8)
/-- The endpoint UUID derived from GLB_SERIAL (R419). -/
opaque Config.uuid : BitVec 64 → List Nat
/-- The fixed hash of (src, dst) that chooses among switch ports (R318). -/
opaque Config.routeHash : Nat → Nat → Nat
/-- Platform descriptor records and the repository information, by record handle (R420). -/
opaque Config.pdr : Nat → List Nat
@[inherit_doc Config.pdr] opaque Config.pdrInfo : List Nat

end Sys2Proof
end

