-- ==== Sys2Proof/Machine/Num.lean ====
section
/-!
DEFINITION. The arithmetic of the arrays: exact numbers, the input and output formats (R115 to R119, Tables 4.2 and 4.6),
round_grid (R121), round_out (R131), FP32 operations, and the Philox generator with the composed keys (R251 to R256).
-/
namespace Sys2Proof.Machine

/-! ### Exact numbers -/

/-- An exact rational num / den, den nonzero. -/
structure Ex where
  num : Int
  den : Nat
  deriving DecidableEq, Repr

/-- An integer. -/
def Ex.ofInt (i : Int) : Ex := ⟨i, 1⟩

/-- Zero and one. -/
def Ex.zero : Ex := ⟨0, 1⟩
@[inherit_doc Ex.zero] def Ex.one : Ex := ⟨1, 1⟩

/-- m × 2^e. -/
def Ex.pow2 (m e : Int) : Ex := if 0 ≤ e then ⟨m * (2 ^ e.toNat : Nat), 1⟩ else ⟨m, 2 ^ (-e).toNat⟩

/-- Sum, difference, product and quotient (a division by zero gives zero). -/
def Ex.add (a b : Ex) : Ex := if a.den = b.den then ⟨a.num + b.num, a.den⟩ else ⟨a.num * b.den + b.num * a.den, a.den * b.den⟩
@[inherit_doc Ex.add] def Ex.neg (a : Ex) : Ex := ⟨-a.num, a.den⟩
@[inherit_doc Ex.add] def Ex.sub (a b : Ex) : Ex := a.add b.neg
@[inherit_doc Ex.add] def Ex.mul (a b : Ex) : Ex := ⟨a.num * b.num, a.den * b.den⟩
@[inherit_doc Ex.add] def Ex.div (a b : Ex) : Ex :=
  if b.num = 0 then Ex.zero else if 0 < b.num then ⟨a.num * b.den, a.den * b.num.natAbs⟩ else ⟨-(a.num * b.den), a.den * b.num.natAbs⟩

/-- Multiplication by 2^e. -/
def Ex.scale (a : Ex) (e : Int) : Ex := if 0 ≤ e then ⟨a.num * (2 ^ e.toNat : Nat), a.den⟩ else ⟨a.num, a.den * 2 ^ (-e).toNat⟩

/-- Absolute value. -/
def Ex.abs (a : Ex) : Ex := ⟨a.num.natAbs, a.den⟩

/-- a < b, and a = b as numbers. -/
def Ex.lt (a b : Ex) : Bool := decide (a.num * b.den < b.num * a.den)
@[inherit_doc Ex.lt] def Ex.eqv (a b : Ex) : Bool := decide (a.num * b.den = b.num * a.den)

/-- The larger of two. -/
def Ex.max (a b : Ex) : Ex := if a.lt b then b else a

/-- The sign as −1, 0 or 1. -/
def Ex.sign (a : Ex) : Int := if a.num < 0 then -1 else if a.num = 0 then 0 else 1

/-- ⌊log2 |a|⌋ for nonzero a. -/
def Ex.flog2 (a : Ex) : Int :=
  let e : Int := (Nat.log2 a.num.natAbs : Int) - Nat.log2 a.den
  if a.abs.lt (Ex.pow2 1 e) then e - 1 else e

/-- The smallest e with |a| ≤ 2^e, for nonzero a (R124). -/
def Ex.clog2 (a : Ex) : Int := if a.abs.eqv (Ex.pow2 1 a.flog2) then a.flog2 else a.flog2 + 1

/-! ### Rounding to an integer (R121) -/

/-- Nearest integer, ties to even. -/
def Ex.nearest (a : Ex) : Int :=
  let f := a.num / a.den
  let r := a.num - f * a.den
  if 2 * r < a.den then f else if (a.den : Int) < 2 * r then f + 1 else if f % 2 = 0 then f else f + 1

/-- Binary fraction bits of r / d, at most 32. -/
def fracBits (r d : Nat) : Nat := ((List.range 33).find? fun n => decide (r * 2 ^ n % d = 0)).getD 32

/-- Stochastic rounding of a with the drawn 32-bit word. -/
def Ex.stochastic (a : Ex) (word : Nat) : Int :=
  let f := a.num.natAbs / a.den
  let r := a.num.natAbs % a.den
  if r = 0 then a.sign * f
  else
    let n := fracBits r a.den
    let up := decide (2 ^ n ≤ r * 2 ^ n / a.den + word % 2 ^ 32 / 2 ^ (32 - n))
    a.sign * (f + b2n up)

/-- round_grid: stochastic draws its word only when asked. -/
def roundGrid (a : Ex) (stoch : Bool) (word : Unit → Nat) : Int := if stoch then a.stochastic (word ()) else a.nearest

/-! ### Formats -/

/-- A value read from a format. -/
inductive Val where
  | fin (v : Ex)
  | inf (neg : Bool)
  | nan
  deriving DecidableEq, Repr

/-- A binary floating format: exponent bits, mantissa bits, bias, largest finite magnitude code, and whether codes above
it are infinity and NaN (IEEE) or NaN alone (E4M3), none for the narrow formats. -/
structure FpFmt where
  e : Nat
  m : Nat
  bias : Int
  maxCode : Nat
  hasInf : Bool
  deriving DecidableEq, Repr

/-- The floating formats. -/
def fp32 : FpFmt := ⟨8, 23, 127, 0x7F7FFFFF, true⟩
@[inherit_doc fp32] def bf16 : FpFmt := ⟨8, 7, 127, 0x7F7F, true⟩
@[inherit_doc fp32] def fp16 : FpFmt := ⟨5, 10, 15, 0x7BFF, true⟩
@[inherit_doc fp32] def e4m3 : FpFmt := ⟨4, 3, 7, 0x7E, false⟩
@[inherit_doc fp32] def e5m2 : FpFmt := ⟨5, 2, 15, 0x7B, true⟩
@[inherit_doc fp32] def e3m2 : FpFmt := ⟨3, 2, 3, 0x1F, false⟩
@[inherit_doc fp32] def e2m3 : FpFmt := ⟨2, 3, 1, 0x1F, false⟩
@[inherit_doc fp32] def e2m1 : FpFmt := ⟨2, 1, 1, 0x7, false⟩

/-- Bits of a code. -/
def FpFmt.width (f : FpFmt) : Nat := 1 + f.e + f.m

/-- The magnitude of a magnitude code. -/
def FpFmt.mag (f : FpFmt) (c : Nat) : Ex :=
  let x := c / 2 ^ f.m
  let k := c % 2 ^ f.m
  if x = 0 then Ex.pow2 k (1 - f.bias - f.m) else Ex.pow2 (2 ^ f.m + k : Nat) (x - f.bias - f.m)

/-- The value of a code. -/
def FpFmt.val (f : FpFmt) (c : Nat) : Val :=
  let neg := c.testBit (f.e + f.m)
  let k := c % 2 ^ (f.e + f.m)
  if k ≤ f.maxCode then .fin (if neg then (f.mag k).neg else f.mag k)
  else if f.hasInf ∧ k % 2 ^ f.m = 0 then .inf neg else .nan

/-- The largest finite magnitude. -/
def FpFmt.maxMag (f : FpFmt) : Ex := f.mag f.maxCode

/-- Flags one value or conversion raises: NaN read, infinity read, limited, rounded to zero. -/
structure VFlags where
  nan : Bool := false
  inf : Bool := false
  sat : Bool := false
  under : Bool := false
  deriving DecidableEq, Repr

/-- Either. -/
def VFlags.or (a b : VFlags) : VFlags := ⟨a.nan || b.nan, a.inf || b.inf, a.sat || b.sat, a.under || b.under⟩

/-- Input replacement (R119): NaN is zero, infinity the largest finite magnitude with its sign. -/
def FpFmt.read (f : FpFmt) (c : Nat) : Ex × VFlags := match f.val c with
  | .fin v => (v, {})
  | .inf neg => (if neg then f.maxMag.neg else f.maxMag, { inf := true })
  | .nan => (Ex.zero, { nan := true })

/-- Rounding to a floating format's own grid, limited to its largest finite magnitude; zero is +0 (R131). -/
def FpFmt.round (f : FpFmt) (t : Ex) (stoch : Bool) (word : Unit → Nat) : Nat × VFlags :=
  if t.num = 0 then (0, {})
  else
    let emin : Int := 1 - f.bias
    let e := Max.max t.flog2 emin
    let q := (roundGrid (t.abs.scale (f.m - e)) stoch word).natAbs
    let code := (e - emin).toNat * 2 ^ f.m + q
    if q = 0 then (0, { under := true })
    else if f.maxCode < code then (b2n (decide (t.num < 0)) * 2 ^ (f.e + f.m) + f.maxCode, { sat := true })
    else (b2n (decide (t.num < 0)) * 2 ^ (f.e + f.m) + code, {})

/-! ### Input formats (Table 4.2) -/

/-- Bits per element of an input format. -/
def inBits (fmt : Nat) : Nat :=
  if fmt = 1 ∨ fmt = 8 then 4 else if fmt = 6 ∨ fmt = 7 then 6 else if fmt = 10 ∨ fmt = 11 then 16 else 8

/-- An MX format: codes 0x4 to 0x9. -/
def isMx (fmt : Nat) : Bool := decide (4 ≤ fmt ∧ fmt ≤ 9)

/-- e_max of Table 4.2. -/
def eMax (fmt : Nat) : Int := ([7, 3, 9, 16, 9, 16, 5, 3, 3, 1, 128, 16] : List Int).getD fmt 0

/-- The floating format of an input code, none for the integer formats. -/
def inFp (fmt : Nat) : Option FpFmt := match fmt with
  | 2 => some e4m3
  | 3 => some e5m2
  | 4 => some e4m3
  | 5 => some e5m2
  | 6 => some e3m2
  | 7 => some e2m3
  | 8 => some e2m1
  | 10 => some bf16
  | 11 => some fp16
  | _ => none

/-- An element as the array takes it, its MX scale apart (R119). -/
def readIn (fmt code : Nat) : Ex × VFlags := match inFp fmt with
  | some f => f.read code
  | none =>
    if fmt = 1 then (Ex.ofInt (sext 4 code), {})
    else if fmt = 9 then (Ex.pow2 (sext 8 code) (-6), {})
    else (Ex.ofInt (sext 8 code), {})

/-- Element i of packed bytes of b-bit elements (R117). -/
def elemAt (bs : List Byte) (b i : Nat) : Nat :=
  let p := i * b
  leNat ((bs.drop (p / 8)).take 3) / 2 ^ (p % 8) % 2 ^ b

/-- The elements of one row or column, with E8M0 scales when MX: a NaN block makes each element NaN (R118). -/
def readRow (fmt k : Nat) (bs scales : List Byte) : List Ex × VFlags :=
  let b := inBits fmt
  (List.range k).foldr (fun i (acc : List Ex × VFlags) =>
    let r := readIn fmt (elemAt bs b i)
    if isMx fmt then
      let sc := (scales.getD (i / 32) 0).toNat
      if sc = 255 then (Ex.zero :: acc.1, acc.2.or { nan := true })
      else (r.1.scale ((sc : Int) - 127) :: acc.1, acc.2.or r.2)
    else (r.1 :: acc.1, acc.2.or r.2)) ([], {})

/-! ### Output formats (Table 4.6) -/

/-- Bytes per output. -/
def outBytes (fmt : Nat) : Nat := if fmt = 0 then 4 else if fmt = 1 ∨ fmt = 2 then 2 else if fmt = 6 then 8 else 1

/-- The floating format of an output code. -/
def outFp (fmt : Nat) : FpFmt :=
  if fmt = 1 then bf16 else if fmt = 2 then fp16 else if fmt = 3 then e4m3 else if fmt = 4 then e5m2 else fp32

/-- round_out (R131): the code, and what it raises. -/
def roundOut (t : Ex) (fmt : Nat) (stoch : Bool) (word : Unit → Nat) : Nat × VFlags :=
  if fmt = 5 then
    let q := roundGrid t stoch word
    if q < -128 then (0x80, { sat := true })
    else if 127 < q then (0x7F, { sat := true })
    else (toTwos 8 q, { under := decide (t.num ≠ 0 ∧ q = 0) })
  else (outFp fmt).round t stoch word

/-- An existing output read back in its format (R129). -/
def readOut (fmt code : Nat) : Ex × VFlags :=
  if fmt = 5 then (Ex.ofInt (sext 8 code), {}) else (outFp fmt).read code

/-- A magnitude as FP32 rounded toward +∞, limited to the largest finite FP32 (R135). -/
def fp32Up (t : Ex) : Nat :=
  if t.num = 0 then 0
  else
    let e := Max.max t.flog2 (-126)
    let s := t.abs.scale (23 - e)
    let q := (s.num.natAbs + s.den - 1) / s.den
    min 0x7F7FFFFF ((e + 126).toNat * 2 ^ 23 + q)

/-! ### FP32 values -/

/-- The number of FP32 bits, specials replaced (R119). -/
def f32 (bits : Nat) : Ex := (fp32.read (bits % 2 ^ 32)).1

/-- FP32 bits are infinite or NaN. -/
def f32Bad (bits : Nat) : Bool := decide (0x7F7FFFFF < bits % 2 ^ 31)

/-- Rounding of one FP32 operation, nearest-even; beyond the largest finite FP32 the spec states no result (log entry 11). -/
def rnd32 (t : Ex) : Ex :=
  let r := fp32.round t false fun _ => 0
  if r.2.sat then f32 (Config.fp32Beyond t.num t.den) else f32 r.1

/-- FP32 bits of a number, limited under R131. -/
def to32 (t : Ex) : Nat := (fp32.round t false fun _ => 0).1

/-- Integer square root: the largest r below 2^n with r² ≤ x. -/
def isqrt : Nat → Nat → Nat → Nat
  | 0, r, _ => r
  | n + 1, r, x => if (r + 2 ^ n) * (r + 2 ^ n) ≤ x then isqrt n (r + 2 ^ n) x else isqrt n r x

/-- Correctly rounded FP32 square root; of a negative number, zero. -/
def sqrt32 (t : Ex) : Ex :=
  if t.num ≤ 0 then Ex.zero
  else
    let e := t.flog2 / 2
    let s := t.scale (2 * (23 - e))
    let q := isqrt 26 0 (s.num.natAbs / s.den)
    let h := Ex.ofInt (4 * q * q + 4 * q + 1)
    let s4 := s.scale 2
    let up := h.lt s4 || (h.eqv s4 && decide (q % 2 = 1))
    Ex.pow2 (q + b2n up : Nat) (e - 23)

/-! ### The generator (R251 to R256) -/

/-- One round of Philox-4×32. -/
def philoxRound (k : Nat × Nat) (c : Nat × Nat × Nat × Nat) : Nat × Nat × Nat × Nat :=
  let p0 := 0xD2511F53 * c.1
  let p1 := 0xCD9E8D57 * c.2.2.1
  ((p1 / 2 ^ 32) ^^^ c.2.1 ^^^ k.1, p1 % 2 ^ 32, (p0 / 2 ^ 32) ^^^ c.2.2.2 ^^^ k.2, p0 % 2 ^ 32)

/-- Philox-4×32 with the rounds left. -/
def philoxN : Nat → Nat × Nat → Nat × Nat × Nat × Nat → Nat × Nat × Nat × Nat
  | 0, _, c => c
  | n + 1, k, c => philoxN n ((k.1 + 0x9E3779B9) % 2 ^ 32, (k.2 + 0xBB67AE85) % 2 ^ 32) (philoxRound k c)

/-- Philox-4×32-10 (R251). -/
def philox (k0 k1 c0 c1 c2 c3 : Nat) : Nat × Nat × Nat × Nat :=
  philoxN 10 (k0 % 2 ^ 32, k1 % 2 ^ 32) (c0 % 2 ^ 32, c1 % 2 ^ 32, c2 % 2 ^ 32, c3 % 2 ^ 32)

/-- Word q of a block. -/
def wordOf (b : Nat × Nat × Nat × Nat) (q : Nat) : Nat :=
  if q = 0 then b.1 else if q = 1 then b.2.1 else if q = 2 then b.2.2.1 else b.2.2.2

/-- What a stage draws with: seed, header stream, step, stage index (R255). -/
structure Key where
  seed : Nat
  stream : Nat
  step : Nat
  stage : Nat
  deriving DecidableEq, Repr

/-- A drawn word: kind, stream, step, counter, word index (R252, R255). -/
def drawn (seed stream step stage kind a b c d q : Nat) : Nat :=
  let sub := philox seed (seed / 2 ^ 32) stream (16 * stage + kind) step (step / 2 ^ 32)
  wordOf (philox sub.1 sub.2.1 a b c d) q

/-- The word of a product: row word XOR column word (R255, R256). -/
def Key.prod (k : Key) (e i j kk : Nat) : Nat :=
  drawn k.seed k.stream k.step k.stage 1 e i (kk / 4) 0 (kk % 4) ^^^
    drawn k.seed k.stream k.step k.stage 1 e j (kk / 4) 0x80000000 (kk % 4)

/-- The word of an output. -/
def Key.out (k : Key) (e i j : Nat) : Nat := drawn k.seed k.stream k.step k.stage 2 e i (j / 4) 0 (j % 4)

/-- The word of a state element at a position. -/
def Key.state (k : Key) (handle pos el : Nat) : Nat := drawn k.seed handle pos k.stage 3 (el / 4) 0 0 0 (el % 4)

/-- The words of a filled element. -/
def Key.fill (k : Key) (x cls q : Nat) : Nat := drawn k.seed k.stream k.step k.stage 4 x (x / 2 ^ 32) cls 0 q

/-- The word of a master weight. -/
def Key.weight (k : Key) (group t x : Nat) : Nat := drawn k.seed group t k.stage 5 (x / 4) (x / 4 / 2 ^ 32) 0 0 (x % 4)

/-! ### A64 accumulation (R120 to R124) -/

/-- Sums wrap at 64 bits, read as signed. -/
def wrap64 (v : Int) : Int := sext 64 (toTwos 64 v)

/-- A64 sum with the counts of clamped and underflowed products. -/
structure Acc64 where
  v : Int
  sat : Nat
  under : Nat
  deriving DecidableEq, Repr

/-- Nothing summed. -/
def Acc64.zero : Acc64 := ⟨0, 0, 0⟩

/-- Add one exact product on the grid of anchor a (R120, R121). -/
def Acc64.product (acc : Acc64) (a : Int) (p : Ex) (stoch : Bool) (word : Unit → Nat) : Acc64 :=
  if p.num = 0 then acc
  else
    let x := p.scale (48 - a)
    let under := decide (x.num.natAbs < x.den)
    let q := roundGrid x stoch word
    let lim : Int := 2 ^ 48 - 1
    let sat := decide (lim < q.natAbs)
    ⟨wrap64 (acc.v + if sat then p.sign * lim else q), acc.sat + b2n sat, acc.under + b2n under⟩

/-- The sum of products of two rows of values, element kk numbered from kk0. -/
def dotFrom (a : Int) (stoch : Bool) (word : Nat → Nat) : Nat → Acc64 → List Ex → List Ex → Acc64
  | kk, acc, x :: xs, w :: ws => dotFrom a stoch word (kk + 1) (acc.product a (x.mul w) stoch fun _ => word kk) xs ws
  | _, acc, _, _ => acc

/-- V × u (R120). -/
def a64Val (v a : Int) : Ex := Ex.pow2 v (a - 48)

/-- g of R124: max(0, bitlen(k) − 15 − m). -/
def headroom (k m : Nat) : Nat := bitlen k - 15 - m

end Sys2Proof.Machine
end

