-- ==== Sys2Proof/Machine/Reference.lean ====
section
/-!
DEFINITION. The functions that Table 7.2, R191, R228, R260 and R261 name by their mathematical values, as exact rationals far closer to
them than any bound of the spec (log entry 87), and what such a bound allows of an FP32 result. Weafort's reference implementation fixes
the result inside the bound; the model leaves it free there.
-/
namespace Sys2Proof.Machine

/-! ### Values -/

/-- Binary places of the working grid, and of the reduction of an angle. -/
abbrev refBits : Nat := 192
@[inherit_doc refBits] abbrev angleBits : Nat := 512

/-- x on a grid of p binary places, rounded down. -/
def onGrid (p : Nat) (x : Ex) : Int := (x.scale p).num / (x.scale p).den

/-- A sum of terms f 0, f 1, … n of them. -/
def sumTerms (n : Nat) (f : Nat → Int) : Int := (List.range n).foldl (fun v i => v + f i) 0

/-- 2·artanh t of |t| ≤ 1/3, from its series on the grid. -/
def artanh2 (t : Int) : Int :=
  let sq := t * t / 2 ^ refBits
  ((List.range 70).foldl (fun (a : Int × Int) i => (a.1 + 2 * a.2 / (2 * i + 1 : Nat), a.2 * sq / 2 ^ refBits)) (0, t)).1

/-- ln 2 on the grid. -/
def ln2 : Int := artanh2 (2 ^ refBits / 3)

/-- Arc cotangent of k on the grid of an angle. -/
def arccot (k : Nat) : Int :=
  sumTerms 130 fun i => (if i % 2 = 0 then 1 else -1) * ((2 ^ angleBits / (k ^ (2 * i + 1) * (2 * i + 1)) : Nat) : Int)

/-- π on the grid of an angle. -/
def piGrid : Int := 16 * arccot 5 - 4 * arccot 239

/-- Horner's scheme for Σ s^i r^(2i + o) / (2i + o)!, and for the exponential's series, in n terms. -/
def altSeries (r : Int) (o n : Nat) : Int :=
  let sq := r * r / 2 ^ refBits
  let f := (List.range n).foldl (fun (a : Int) i =>
    let k := 2 * (n - i) + o
    (2 ^ refBits : Nat) - sq * a / 2 ^ refBits / (k * (k - 1) : Nat)) (2 ^ refBits : Nat)
  if o = 0 then f else r * f / 2 ^ refBits
@[inherit_doc altSeries] def expSeries (r : Int) (n : Nat) : Int :=
  (List.range n).foldl (fun (a : Int) i => (2 ^ refBits : Nat) + r * a / 2 ^ refBits / (n - i : Nat)) (2 ^ refBits : Nat)

/-- e^x; beyond 2^±500 the power itself. -/
def expEx (x : Ex) : Ex :=
  if (Ex.ofInt 350).lt x then Ex.pow2 1 505
  else if x.lt (Ex.ofInt (-350)) then Ex.pow2 1 (-505)
  else
    let v := onGrid refBits x
    let n := (v + ln2 / 2) / ln2
    Ex.pow2 (expSeries (v - n * ln2) 60) (n - refBits)

/-- ln x of a positive x. -/
def lnEx (x : Ex) : Ex :=
  let k := x.flog2
  let m := x.scale (-k)
  Ex.pow2 (k * ln2 + artanh2 (onGrid refBits ((m.sub Ex.one).div (m.add Ex.one)))) (-refBits)

/-- ln(1 + e^z). -/
def softplusEx (z : Ex) : Ex :=
  let y := expEx z
  if (Ex.ofInt 200).lt z then z
  else if y.lt (Ex.pow2 1 (-60)) then y.sub ((y.mul y).scale (-1))
  else lnEx (Ex.one.add y)

/-- tanh z. -/
def tanhEx (z : Ex) : Ex :=
  if z.abs.lt (Ex.pow2 1 (-20)) then z.mul (Ex.one.sub ((z.mul z).div (Ex.ofInt 3)))
  else
    let y := expEx (z.scale 1)
    (y.sub Ex.one).div (y.add Ex.one)

/-- 1 / (1 + e^−z). -/
def sigmoidEx (z : Ex) : Ex := Ex.one.div (Ex.one.add (expEx z.neg))

/-- cos θ and sin θ of an angle in radians. -/
def cosSinEx (th : Ex) : Ex × Ex :=
  let half := piGrid / 2
  let v := onGrid angleBits th
  let q := (v + half / 2) / half
  let r := (v - q * half) / 2 ^ (angleBits - refBits)
  let c := Ex.pow2 (altSeries r 0 30) (-refBits)
  let s := Ex.pow2 (altSeries r 1 30) (-refBits)
  let k := q % 4
  if k = 0 then (c, s) else if k = 1 then (s.neg, c) else if k = 2 then (c.neg, s.neg) else (s, c.neg)

/-- √x of a positive x, to 200 places of its own size. -/
def sqrtEx (x : Ex) : Ex :=
  if x.num ≤ 0 then Ex.zero
  else
    let e := x.flog2 / 2
    Ex.pow2 (isqrt 202 0 (onGrid 0 (x.scale (2 * (200 - e))).abs).toNat) (e - 200)

/-! ### What a bound allows (R192) -/

/-- An ulp of FP32 at a magnitude; below 2^−126 that of a subnormal. -/
def ulp32 (x : Ex) : Ex := Ex.pow2 1 ((if x.num = 0 then -126 else Max.max x.flog2 (-126)) - 23)

/-- A result, and whether it was limited to the largest finite FP32. -/
structure RefOut where
  code : Nat
  limited : Bool

/-- The FP32 code of a function whose value is v, within n ulp: the free code where it lies within the bound, else the nearest one. A
result beyond the largest finite FP32 is limited to it; where the bound allows both, `lim` says which (R192). -/
def withinUlp (n : Nat) (v : Ex) (free : Nat) (lim : Bool) : RefOut :=
  let big := fp32.maxMag
  let slack := (ulp32 v).mul (Ex.ofInt n)
  let neg := decide (v.num < 0)
  let top : Nat := b2n neg * 2 ^ 31 + 0x7F7FFFFF
  let past := big.lt (v.abs.sub slack)
  let may := big.lt (v.abs.add slack)
  if past || (may && lim) then ⟨top, true⟩
  else
    let near := (fp32.round v false fun _ => 0).1
    let f := free % 2 ^ 32
    let ok := !f32Bad f && !slack.lt (((f32 f).sub v).abs)
    ⟨if ok then f else near, false⟩

end Sys2Proof.Machine
end

