-- ==== Sys2Proof/Machine/Gates.lean ====
section
/-!
DEFINITION. The gate functions (R191, R192, Table 7.2) on FP32 bits: IDENTITY and RELU exactly; the others are fixed functions of their
input bits that the spec leaves to Weafort's reference implementation within the error bounds of Table 7.2: free values inside the
bounds.
-/
namespace Sys2Proof.Machine

/-- Bits of a finite FP32, limited to [0, 1] and to [−1, 1] (R192). -/
def unit32 (c : Nat) : Nat := if 2 ^ 31 ≤ c then 0 else min 0x3F800000 c
@[inherit_doc unit32] def signed32 (c : Nat) : Nat := c / 2 ^ 31 * 2 ^ 31 + min 0x3F800000 (c % 2 ^ 31)

/-- The value of a gate function at z, with λ for DECAY, and its bound in ulp (Table 7.2). -/
def gateRef (fn lam : Nat) (z : Ex) : Ex × Nat :=
  if fn = 1 then (sigmoidEx z, 2)
  else if fn = 2 then (tanhEx z, 2)
  else if fn = 3 then (softplusEx z, 2)
  else if fn = 4 then (expEx z, 1)
  else if fn = 5 then (expEx ((f32 lam).mul (softplusEx z)).neg, 3)
  else if fn = 6 then (z.mul (sigmoidEx z), 3)
  else
    let u := (Ex.mk 7978845608 10000000000).mul (z.add ((Ex.mk 44715 1000000).mul (z.mul (z.mul z))))
    (z.mul (sigmoidEx (u.scale 1)), 4)

/-- A gate function of FP32 bits, with λ for DECAY, and whether its result was limited (R192, Table 7.2). EXP of zero is 1 exactly
(R228). -/
def gateVal (fn lam z : Nat) : Nat × Bool :=
  if fn = 0 then (z, false)
  else if fn = 8 then (if z.testBit 31 then 0 else z, false)
  else if fn = 4 ∧ z % 2 ^ 31 = 0 then (0x3F800000, false)
  else
    let r := gateRef fn lam (f32 z)
    let o := withinUlp r.2 r.1 (Config.gateFn fn lam z) (Config.gateLimited fn z)
    (if fn = 1 ∨ fn = 5 then unit32 o.code else if fn = 2 then signed32 o.code else o.code, o.limited)

/-- The exponential of the softmax: EXP of Table 7.2 (R228). -/
def exp32 (z : Nat) : Nat := (gateVal 4 0 z).1

/-- A COMPLEX rotation: C = ρ·cos θ and S = ρ·sin θ, each within 2 ulp, and whether one was limited (R191, R192). -/
def rotation (rho th : Nat) : (Nat × Nat) × Bool :=
  let cs := cosSinEx (f32 th)
  let c := withinUlp 2 ((f32 rho).mul cs.1) (Config.gateCos rho th) (Config.rotLimited rho th false)
  let s := withinUlp 2 ((f32 rho).mul cs.2) (Config.gateSin rho th) (Config.rotLimited rho th true)
  ((c.code, s.code), c.limited || s.limited)

end Sys2Proof.Machine
end

