-- ==== Sys2Proof/Machine/Sparse.lean ====
section
/-!
DEFINITION. Sparse maps from addresses to values, as lists in one canonical form: keys strictly rising, and no entry
equal to the default its key reads as. Memory (default zero) and the register file (default: the reset value) are both
held this way, so equal contents are equal data.
-/
namespace Sys2Proof.Machine

/-- What key k holds in the map, d where it is not listed. -/
def spGet {α : Type} (d : α) : List (Nat × α) → Nat → α
  | [], _ => d
  | (k', v) :: m, k => if k = k' then v else spGet d m k

/-- The map with key k removed. -/
def spErase {α : Type} (m : List (Nat × α)) (k : Nat) : List (Nat × α) :=
  m.filter fun c => decide (c.1 ≠ k)

/-- The map with key k listed as v, in its place by key. -/
def spPut {α : Type} : List (Nat × α) → Nat → α → List (Nat × α)
  | [], k, v => [(k, v)]
  | (k', v') :: m, k, v =>
    if k = k' then (k, v) :: m
    else if k < k' then (k, v) :: (k', v') :: m
    else (k', v') :: spPut m k v

/-- The map with key k set to v, where an unlisted k reads as d: setting the default removes the entry. -/
def spSet {α : Type} [DecidableEq α] (d : α) (m : List (Nat × α)) (k : Nat) (v : α) : List (Nat × α) :=
  if v = d then spErase m k else spPut m k v

/-- The map with every key from lo to hi − 1 back at its default. -/
def spClear {α : Type} (m : List (Nat × α)) (lo hi : Nat) : List (Nat × α) :=
  m.filter fun c => decide (c.1 < lo ∨ hi ≤ c.1)

/-- Keys rise strictly from above lo, and no entry holds its key's default. -/
def spWfFrom {α : Type} [DecidableEq α] (d : Nat → α) : Nat → List (Nat × α) → Bool
  | _, [] => true
  | lo, (k, v) :: m => decide (lo ≤ k) && decide (v ≠ d k) && spWfFrom d (k + 1) m

/-- The canonical form. -/
def spWf {α : Type} [DecidableEq α] (d : Nat → α) (m : List (Nat × α)) : Bool := spWfFrom d 0 m

end Sys2Proof.Machine
end

