-- ==== Sys2Proof/Machine/RegTable.lean ====
section
/-!
DEFINITION. The register file of BAR0 as the spec's register tables give it (Table 18.8 and the table of each block):
every register's offset, stride and count, its owner for writes, whether it is packed (R12), and every field's bits,
access type (Table 0.7) and reset value. Where the spec takes a reset value from fuses, flash, SLOT_ID, boot, or the
image, the reset here is 0 (log entry 4, DESIGN CHOICE).
-/
namespace Sys2Proof.Machine

/-- Access types of Table 0.7. -/
inductive Acc where
  | rw | ro | w1c | w1s | wo | rwt | rwk
  deriving DecidableEq, Repr

/-- Who may write a register (the ownership rule of its block) and whose entries a virtual function sees (R437). -/
inductive Own where
  | ro | pf | any | ctx | part | pfPart | core | vault | pfVault | vaultNested | bulkFrame | partNested | pfPort
  | pfGroup | pfQuad | quad
  deriving DecidableEq, Repr

/-- One field: bits [hi:lo], access type, reset value. -/
structure FieldDef where
  hi : Nat
  lo : Nat
  name : String
  acc : Acc
  reset : Nat
  deriving DecidableEq, Repr

/-- One register or array of registers: entry (i, j), i < n1, j < n2, lies at base + i·s1 + j·s2. -/
structure RegDef where
  name : String
  base : Nat
  n1 : Nat
  s1 : Nat
  n2 : Nat
  s2 : Nat
  own : Own
  packed : Bool
  fields : List FieldDef
  deriving DecidableEq, Repr

/-- A field in a table row. -/
def fd (hi lo : Nat) (name : String) (acc : Acc) (reset : Nat) : FieldDef := ⟨hi, lo, name, acc, reset⟩

/-- The 32 two-bit class fields of MEM_CLASS and BLK_CLASS (Table 11.13). -/
def classFields : List FieldDef :=
  (List.range 32).map fun f => fd (2 * f + 1) (2 * f) "CLASS" .rw 0

/-- Registers of the GLB block. -/
def regsGlb : List RegDef := [
  ⟨"GLB_ID", 0x0, 1, 0x0, 1, 0x0, .ro, false,
    [fd 63 48 "VENDOR" .ro 8078, fd 47 32 "DEVICE" .ro 2561, fd 31 24 "FAMILY" .ro 78, fd 23 20 "STEP_MAJOR" .ro 1, fd 19 16 "STEP_MINOR" .ro 1]⟩,
  ⟨"GLB_SERIAL", 0x8, 1, 0x0, 1, 0x0, .ro, false,
    [fd 63 0 "SERIAL" .ro 0]⟩,
  ⟨"GLB_STATE", 0x10, 1, 0x0, 1, 0x0, .pf, false,
    [fd 8 8 "REQ_REJECT" .w1c 0, fd 6 4 "PREV_STATE" .ro 1, fd 2 0 "STATE" .ro 2]⟩,
  ⟨"GLB_STATE_REQ", 0x18, 1, 0x0, 1, 0x0, .pf, false,
    [fd 2 0 "TARGET" .wo 0]⟩,
  ⟨"GLB_COMMIT", 0x20, 1, 0x0, 1, 0x0, .any, false,
    [fd 23 0 "MASK" .wo 0]⟩]

/-- Registers of the TCK block. -/
def regsTck : List RegDef := [
  ⟨"TCK_CFG", 0x100000, 1, 0x0, 1, 0x0, .pf, true,
    [fd 60 59 "MODE" .rwt 0, fd 58 32 "PERIOD" .rwt 0, fd 26 0 "STRETCH_MAX" .rwt 0]⟩,
  ⟨"TCK_STATUS", 0x100008, 1, 0x0, 1, 0x0, .pf, false,
    [fd 63 16 "TICK_NUM" .ro 0, fd 15 15 "PENDING" .ro 0, fd 14 14 "PERIOD_CLAMP" .w1c 0, fd 13 13 "SOURCE" .ro 0, fd 12 11 "EFF_MODE" .ro 2, fd 10 10 "LAST_OVERRUN" .ro 0]⟩,
  ⟨"TCK_LAST_INTERVAL", 0x100010, 1, 0x0, 1, 0x0, .ro, false,
    [fd 58 32 "LENGTH" .ro 0, fd 26 0 "BUSY_END" .ro 0]⟩,
  ⟨"TCK_OVR_COUNT", 0x100018, 1, 0x0, 1, 0x0, .ro, false,
    [fd 63 32 "OVERRUN_TICKS" .ro 0, fd 31 0 "STRETCHED_TICKS" .ro 0]⟩,
  ⟨"TCK_CTX_BUDGET", 0x101000, 1, 0x0, 4096, 0x8, .ctx, false,
    [fd 39 0 "BUDGET" .rwt 1099511627775]⟩,
  ⟨"TCK_CTX_USED", 0x109000, 1, 0x0, 4096, 0x8, .ctx, false,
    [fd 63 48 "DEFERRED_TICKS" .ro 0, fd 39 0 "USED" .ro 0]⟩]

/-- Registers of the RING block; RING_CTL and RING_RET_BASE count as packed (R12; log entry 51). -/
def regsRing : List RegDef := [
  ⟨"RING_CTL", 0x200000, 1, 0x0, 1, 0x0, .any, true,
    [fd 63 60 "OP" .wo 0, fd 58 40 "COUNT" .wo 0, fd 17 0 "FIRST" .wo 0]⟩,
  ⟨"RING_CTL_STATUS", 0x200008, 1, 0x0, 1, 0x0, .any, false,
    [fd 1 1 "BUSY" .ro 0, fd 0 0 "REJECT" .w1c 0]⟩,
  ⟨"RING_CTX_TABLE", 0x210000, 1, 0x0, 4096, 0x8, .ctx, false,
    [fd 51 6 "TABLE_VA" .rw 0]⟩,
  ⟨"RING_RET_BASE", 0x220000, 1, 0x0, 4096, 0x8, .ctx, true,
    [fd 63 6 "BASE" .rw 0, fd 0 0 "LOC" .rw 0]⟩,
  ⟨"RING_RET_CFG", 0x228000, 1, 0x0, 4096, 0x8, .ctx, false,
    [fd 63 63 "ENABLE" .rw 0, fd 62 59 "SIZE" .rw 0, fd 42 32 "VECTOR" .rw 0, fd 31 16 "THRESH" .rw 0, fd 15 0 "TIMEOUT" .rw 0]⟩,
  ⟨"RING_RET_STATUS", 0x230000, 1, 0x0, 4096, 0x8, .ctx, false,
    [fd 63 32 "TAIL" .ro 0, fd 31 0 "HEAD" .ro 0]⟩]

/-- Registers of the CTX block. -/
def regsCtx : List RegDef := [
  ⟨"CTX_CMD", 0x400000, 1, 0x0, 1, 0x0, .any, true,
    [fd 63 60 "OP" .wo 0, fd 59 56 "PARTITION" .wo 0, fd 55 44 "CTX" .wo 0, fd 43 25 "RING_COUNT" .wo 0, fd 24 24 "DISCARD" .wo 0, fd 17 0 "FIRST_RING" .wo 0]⟩,
  ⟨"CTX_CMD_STATUS", 0x400008, 1, 0x0, 1, 0x0, .any, false,
    [fd 63 63 "BUSY" .ro 0, fd 62 62 "PENDING" .ro 0, fd 59 56 "OP" .ro 0, fd 55 44 "CTX" .ro 0, fd 43 40 "RESULT" .ro 0]⟩,
  ⟨"CTX_PREEMPT", 0x400010, 1, 0x0, 1, 0x0, .any, false,
    [fd 63 32 "YIELDS" .ro 0, fd 31 0 "MAX_YIELD" .rw 0]⟩,
  ⟨"CTX_DISAGREE", 0x400018, 1, 0x0, 1, 0x0, .ro, false,
    [fd 29 0 "DOMAIN" .ro 0]⟩,
  ⟨"CTX_PART_CFG", 0x401000, 1, 0x0, 16, 0x8, .pfPart, false,
    [fd 63 63 "HOLD" .rwt 1, fd 7 0 "LEND_IDLE" .rwt 1]⟩,
  ⟨"CTX_PART_STAT", 0x401080, 1, 0x0, 16, 0x8, .part, false,
    [fd 63 57 "LC_CORES" .ro 0, fd 56 50 "BE_CORES" .ro 0, fd 49 37 "CONTEXTS" .ro 0, fd 31 16 "SLOTS_FREE" .ro 0, fd 15 0 "SLOTS_TOTAL" .ro 0]⟩,
  ⟨"CTX_CFG", 0x500000, 1, 0x0, 4096, 0x40, .ctx, false,
    [fd 61 61 "CLASS" .rwt 0, fd 60 56 "FUNCTION" .ro 0, fd 55 52 "PARTITION" .ro 0]⟩,
  ⟨"CTX_CORES", 0x500008, 1, 0x0, 4096, 0x40, .ctx, false,
    [fd 63 0 "CORE_MASK" .rwt 0]⟩,
  ⟨"CTX_PT_ROOT", 0x500010, 1, 0x0, 4096, 0x40, .ctx, false,
    [fd 51 16 "ROOT" .rw 0]⟩,
  ⟨"CTX_SPILL", 0x500018, 1, 0x0, 4096, 0x40, .ctx, true,
    [fd 63 24 "BASE" .rw 0, fd 23 0 "SIZE" .rw 0]⟩,
  ⟨"CTX_SAVE", 0x500020, 1, 0x0, 4096, 0x40, .ctx, true,
    [fd 63 24 "BASE" .rw 0, fd 23 0 "SIZE" .rw 0]⟩,
  ⟨"CTX_STATE_TBL", 0x500028, 1, 0x0, 4096, 0x40, .ctx, false,
    [fd 51 5 "BASE" .rw 0]⟩,
  ⟨"CTX_KEY_TBL", 0x500030, 1, 0x0, 4096, 0x40, .ctx, false,
    [fd 51 4 "BASE" .rw 0]⟩,
  ⟨"CTX_STAT", 0x500038, 1, 0x0, 4096, 0x40, .ctx, false,
    [fd 63 61 "STATE" .ro 0, fd 60 56 "CAUSE" .ro 0, fd 55 40 "SLOTS" .ro 0, fd 39 24 "HELD" .ro 0, fd 23 8 "RESTORE_PARKED" .ro 0]⟩]

/-- Registers of the SEQ block. -/
def regsSeq : List RegDef := [
  ⟨"SEQ_CFG", 0x801000, 1, 0x0, 64, 0x10000, .core, false,
    [fd 15 0 "FINISH_LIMIT" .rwt 3000]⟩,
  ⟨"SEQ_STAT", 0x801008, 1, 0x0, 64, 0x10000, .core, false,
    [fd 63 63 "PENDING" .ro 0, fd 62 62 "BUSY" .ro 0, fd 61 58 "STAGE" .ro 0, fd 55 32 "ITEM" .ro 0, fd 31 14 "RING" .ro 0]⟩,
  ⟨"SEQ_SPILL", 0x801010, 1, 0x0, 64, 0x10000, .core, false,
    [fd 63 32 "CB_SPILLS" .ro 0, fd 31 0 "NT_SPILLS" .ro 0]⟩,
  ⟨"SEQ_CLAIM", 0x801018, 1, 0x0, 64, 0x10000, .core, false,
    [fd 63 32 "CLAIMS" .ro 0, fd 31 0 "ABANDONED" .ro 0]⟩,
  ⟨"SEQ_WELT", 0x801020, 1, 0x0, 64, 0x10000, .core, false,
    [fd 63 32 "SENT" .ro 0, fd 31 16 "RESENDS" .ro 0, fd 15 0 "FAILURES" .ro 0]⟩]

/-- Registers of the ARR block. -/
def regsArr : List RegDef := [
  ⟨"ARR_STAT", 0x802000, 1, 0x0, 64, 0x10000, .core, false,
    [fd 6 6 "HEADROOM" .w1c 0, fd 5 5 "NAN_INPUT" .w1c 0, fd 4 4 "INF_INPUT" .w1c 0, fd 3 3 "UNDERFLOW_OUT" .w1c 0, fd 2 2 "UNDERFLOW_PROD" .w1c 0, fd 1 1 "SAT_OUT" .w1c 0, fd 0 0 "SAT_PROD" .w1c 0]⟩,
  ⟨"ARR_STALL", 0x802008, 1, 0x0, 64, 0x10000, .core, false,
    [fd 63 32 "ROW_STALL" .ro 0, fd 31 0 "COL_STALL" .ro 0]⟩,
  ⟨"ARR_BUSY", 0x802010, 1, 0x0, 64, 0x10000, .core, false,
    [fd 63 0 "MAC_CYCLES" .ro 0]⟩]

/-- Registers of the LPE block. -/
def regsLpe : List RegDef := [
  ⟨"LPE_CFG", 0x803000, 1, 0x0, 64, 0x10000, .core, false,
    [fd 3 0 "RETAIN_MAX" .rwt 8]⟩,
  ⟨"LPE_STAT", 0x803008, 1, 0x0, 64, 0x10000, .core, false,
    [fd 63 63 "PENDING" .ro 0, fd 20 16 "RANGES" .ro 0, fd 9 0 "RETAINED_KIB" .ro 0]⟩,
  ⟨"LPE_FILL", 0x803010, 1, 0x0, 64, 0x10000, .core, false,
    [fd 63 32 "FILL_WAIT" .ro 0, fd 31 0 "PREFETCH_MISS" .ro 0]⟩,
  ⟨"LPE_RETAIN", 0x803018, 1, 0x0, 64, 0x10000, .core, false,
    [fd 63 32 "HITS" .ro 0, fd 31 0 "DROPS" .ro 0]⟩,
  ⟨"LPE_DECODE", 0x803020, 1, 0x0, 64, 0x10000, .core, false,
    [fd 63 32 "BLOCKS" .ro 0, fd 31 0 "ESC_CYCLES" .ro 0]⟩]

/-- Registers of the SCN block. -/
def regsScn : List RegDef := [
  ⟨"SCN_STAT", 0x804000, 1, 0x0, 64, 0x10000, .core, false,
    [fd 63 63 "BUSY" .ro 0, fd 2 2 "GUARD" .w1c 0, fd 1 1 "UNDERFLOW_STATE" .w1c 0, fd 0 0 "SAT_STATE" .w1c 0]⟩,
  ⟨"SCN_REANCHOR", 0x804008, 1, 0x0, 64, 0x10000, .core, false,
    [fd 63 32 "REANCHORS" .ro 0, fd 31 16 "GUARDS" .ro 0, fd 15 0 "MAX_SHIFT" .rw 0]⟩,
  ⟨"SCN_MAXABS", 0x804010, 1, 0x0, 64, 0x10000, .core, false,
    [fd 63 32 "MAX_ABS" .rw 0, fd 15 0 "LAST_ANCHOR" .ro 0]⟩,
  ⟨"SCN_WORK", 0x804018, 1, 0x0, 64, 0x10000, .core, false,
    [fd 63 32 "POSITIONS" .ro 0, fd 31 0 "SEAM_WAIT" .ro 0]⟩]

/-- Registers of the GATE block. -/
def regsGate : List RegDef := [
  ⟨"GATE_STAT", 0x805000, 1, 0x0, 64, 0x10000, .core, false,
    [fd 0 0 "SAT_FN" .w1c 0]⟩,
  ⟨"GATE_OPS", 0x805008, 1, 0x0, 64, 0x10000, .core, false,
    [fd 63 0 "ELEMENT_OPS" .ro 0]⟩]

/-- Registers of the RNG block. -/
def regsRng : List RegDef := [
  ⟨"RNG_STAT", 0x806000, 1, 0x0, 64, 0x10000, .core, false,
    [fd 1 1 "KAT_FAIL" .ro 0, fd 0 0 "BUSY" .ro 0]⟩,
  ⟨"RNG_BLOCKS", 0x806008, 1, 0x0, 64, 0x10000, .core, false,
    [fd 63 0 "BLOCKS" .ro 0]⟩,
  ⟨"RNG_WAIT", 0x806010, 1, 0x0, 64, 0x10000, .core, false,
    [fd 63 32 "SUBKEYS" .ro 0, fd 31 0 "WAIT_CYCLES" .ro 0]⟩]

/-- Registers of the UPD block. -/
def regsUpd : List RegDef := [
  ⟨"UPD_STAT", 0x807000, 1, 0x0, 64, 0x10000, .core, false,
    [fd 2 2 "SAT_W" .w1c 0, fd 1 1 "NONFINITE" .w1c 0, fd 0 0 "BUSY" .ro 0]⟩,
  ⟨"UPD_WORK", 0x807008, 1, 0x0, 64, 0x10000, .core, false,
    [fd 63 32 "ITEMS" .ro 0, fd 31 0 "GROUPS" .ro 0]⟩,
  ⟨"UPD_ELEMS", 0x807010, 1, 0x0, 64, 0x10000, .core, false,
    [fd 63 0 "ELEMENTS" .ro 0]⟩]

/-- Registers of the MEM block. -/
def regsMem : List RegDef := [
  ⟨"MEM_CFG", 0xc00000, 1, 0x0, 64, 0x4000, .pfVault, false,
    [fd 31 16 "SCRUB_MIN" .rw 720, fd 7 0 "CE_ROW_LIMIT" .rw 4]⟩,
  ⟨"MEM_STAT", 0xc00008, 1, 0x0, 64, 0x4000, .vault, false,
    [fd 63 56 "TEMP" .ro 0, fd 55 54 "WINDOW" .ro 0, fd 53 53 "THROTTLE" .ro 0, fd 52 52 "UNAVAIL" .ro 0, fd 51 51 "CLASS_BUSY" .ro 0, fd 50 50 "MARGIN_BUSY" .ro 0, fd 49 49 "MARGIN_REJECT" .w1c 0, fd 31 0 "SCRUB_PASSES" .ro 0]⟩,
  ⟨"MEM_ERR", 0xc00010, 1, 0x0, 64, 0x4000, .vault, false,
    [fd 63 48 "CORRECTED" .ro 0, fd 47 32 "UNCORRECTED" .ro 0, fd 31 16 "DETECTED" .ro 0, fd 15 0 "RETIRE_ADVISED" .ro 0]⟩,
  ⟨"MEM_MARGIN", 0xc00018, 1, 0x0, 64, 0x4000, .pfVault, false,
    [fd 63 63 "START" .wo 0, fd 59 56 "CHANNEL" .rw 0, fd 55 54 "PARAM" .rw 0, fd 47 40 "OFFSET" .rw 0]⟩,
  ⟨"MEM_MARGIN_RES", 0xc00020, 1, 0x0, 64, 0x4000, .vault, false,
    [fd 63 32 "ERRORS" .ro 0, fd 0 0 "DONE" .ro 0]⟩,
  ⟨"MEM_CLASS", 0xc00100, 64, 0x4000, 48, 0x8, .vaultNested, false,
    classFields⟩]

/-- Registers of the BLK block. -/
def regsBlk : List RegDef := [
  ⟨"BLK_CFG", 0xd00000, 1, 0x0, 1, 0x0, .pf, false,
    [fd 31 16 "SCRUB_MIN" .rw 1440, fd 7 0 "CE_ROW_LIMIT" .rw 4]⟩,
  ⟨"BLK_STAT", 0xd00008, 1, 0x0, 1, 0x0, .pf, false,
    [fd 63 56 "TEMP" .ro 0, fd 55 54 "DERATE" .ro 0, fd 53 53 "THROTTLE" .ro 0, fd 51 51 "CLASS_BUSY" .ro 0, fd 50 50 "MARGIN_BUSY" .ro 0, fd 49 49 "MARGIN_REJECT" .w1c 0, fd 31 0 "SCRUB_PASSES" .ro 0]⟩,
  ⟨"BLK_ERR", 0xd00010, 1, 0x0, 1, 0x0, .ro, false,
    [fd 63 48 "CORRECTED" .ro 0, fd 47 32 "UNCORRECTED" .ro 0, fd 31 16 "DETECTED" .ro 0, fd 15 0 "RETIRE_ADVISED" .ro 0]⟩,
  ⟨"BLK_MARGIN", 0xd00018, 1, 0x0, 1, 0x0, .pf, false,
    [fd 63 63 "START" .wo 0, fd 61 56 "CHANNEL" .rw 0, fd 55 54 "PARAM" .rw 0, fd 47 40 "OFFSET" .rw 0]⟩,
  ⟨"BLK_MARGIN_RES", 0xd00020, 1, 0x0, 1, 0x0, .ro, false,
    [fd 63 32 "ERRORS" .ro 0, fd 0 0 "DONE" .ro 0]⟩,
  ⟨"BLK_UNAVAIL", 0xd00040, 1, 0x0, 1, 0x0, .ro, false,
    [fd 63 0 "UNAVAIL" .ro 0]⟩,
  ⟨"BLK_CACHE", 0xd00100, 1, 0x0, 16, 0x8, .part, false,
    [fd 63 32 "HITS" .ro 0, fd 31 0 "MISSES" .ro 0]⟩,
  ⟨"BLK_CLASS", 0xd08000, 1, 0x0, 4096, 0x8, .bulkFrame, false,
    classFields⟩]

/-- Registers of the MIG block. -/
def regsMig : List RegDef := [
  ⟨"MIG_INVAL", 0xe00000, 1, 0x0, 1, 0x0, .any, true,
    [fd 63 52 "CTX" .wo 0, fd 51 51 "ALL" .wo 0, fd 47 8 "VPN" .wo 0, fd 7 0 "COUNT" .wo 0]⟩,
  ⟨"MIG_STAT", 0xe00008, 1, 0x0, 1, 0x0, .any, false,
    [fd 63 63 "INVAL_BUSY" .ro 0, fd 62 62 "PUSH_REJECT" .w1c 0, fd 61 61 "PENDING" .ro 0, fd 31 0 "ABANDONED" .ro 0]⟩,
  ⟨"MIG_MOVES", 0xe00010, 1, 0x0, 1, 0x0, .ro, false,
    [fd 63 32 "PROMOTIONS" .ro 0, fd 31 0 "DEMOTIONS" .ro 0]⟩,
  ⟨"MIG_PART_CFG", 0xe00100, 1, 0x0, 16, 0x8, .part, false,
    [fd 63 56 "EPOCH" .rwt 64, fd 55 40 "HOT" .rwt 1024, fd 39 24 "COLD" .rwt 64, fd 23 16 "MAX_MOVES" .rwt 16]⟩,
  ⟨"MIG_STACK", 0xe00200, 16, 0x10, 2, 0x8, .partNested, false,
    [fd 63 48 "CAP" .rw 0, fd 47 3 "BASE" .rw 0]⟩,
  ⟨"MIG_COUNT", 0xe00400, 1, 0x0, 16, 0x8, .part, false,
    [fd 63 32 "NEAR" .ro 0, fd 31 0 "BULK" .ro 0]⟩,
  ⟨"MIG_PUSH", 0xe00500, 1, 0x0, 16, 0x8, .part, true,
    [fd 63 63 "TIER" .wo 0, fd 38 21 "FRAME" .wo 0]⟩]

/-- Registers of the KV block. -/
def regsKv : List RegDef := [
  ⟨"KV_STAT", 0xf00000, 1, 0x0, 1, 0x0, .pf, false,
    [fd 15 3 "SLOTS_USED" .ro 0, fd 2 2 "QUOTA_REJECT" .w1c 0, fd 1 1 "POOL_WAIT" .ro 0, fd 0 0 "PENDING" .ro 0]⟩,
  ⟨"KV_FLUSH", 0xf00008, 1, 0x0, 1, 0x0, .ro, false,
    [fd 63 48 "FULL" .ro 0, fd 47 32 "FORCED" .ro 0, fd 31 16 "FORK" .ro 0, fd 15 0 "SAVE_PARK" .ro 0]⟩,
  ⟨"KV_COPY", 0xf00010, 1, 0x0, 1, 0x0, .ro, false,
    [fd 63 32 "COW_COPIES" .ro 0, fd 31 0 "RESCORES" .ro 0]⟩,
  ⟨"KV_PART_QUOTA", 0xf00100, 1, 0x0, 16, 0x8, .pfPart, false,
    [fd 12 0 "SLOTS" .rwt 0]⟩,
  ⟨"KV_RING", 0xf00200, 1, 0x0, 16, 0x8, .pf, false,
    [fd 63 63 "ENABLE" .rw 0, fd 62 56 "SIZE" .rw 0, fd 55 50 "POS" .rw 0, fd 47 32 "NEXT" .rw 0, fd 31 16 "PREV" .rw 0]⟩,
  ⟨"KV_CTX_LIST", 0xf01000, 1, 0x0, 4096, 0x8, .ctx, false,
    [fd 51 5 "LIST_BASE" .rw 0]⟩,
  ⟨"KV_CTX_POOL", 0xf09000, 1, 0x0, 4096, 0x8, .ctx, false,
    [fd 51 4 "POOL_BASE" .rw 0]⟩,
  ⟨"KV_CTX_CFG", 0xf11000, 1, 0x0, 4096, 0x8, .ctx, false,
    [fd 63 55 "PAGE_KIB" .rw 64, fd 31 0 "POOL_SIZE" .rw 0]⟩]

/-- Registers of the AWL block. -/
def regsAwl : List RegDef := [
  ⟨"AWL_STAT", 0x1000000, 1, 0x0, 1, 0x0, .pf, false,
    [fd 12 12 "PENDING" .ro 0, fd 11 11 "UNDERFLOW" .w1c 0, fd 10 10 "SATURATION" .w1c 0, fd 7 4 "UNAVAIL" .ro 0, fd 3 0 "BUSY" .ro 0]⟩,
  ⟨"AWL_CFG", 0x1000008, 1, 0x0, 1, 0x0, .pf, false,
    [fd 2 0 "BE_MAX" .rwt 4]⟩,
  ⟨"AWL_WORK", 0x1000010, 1, 0x0, 1, 0x0, .ro, false,
    [fd 63 32 "ITEMS" .ro 0, fd 31 0 "FALLBACKS" .ro 0]⟩]

/-- Registers of the PLK block. -/
def regsPlk : List RegDef := [
  ⟨"PLK_CTL", 0x1100000, 1, 0x0, 12, 0x10000, .pfPort, false,
    [fd 63 63 "ENABLE" .rw 1, fd 62 62 "RETRAIN" .wo 0]⟩,
  ⟨"PLK_STAT", 0x1100008, 1, 0x0, 12, 0x10000, .pfPort, false,
    [fd 63 62 "STATE" .ro 0, fd 61 60 "WIDTH" .ro 0, fd 59 59 "PARTNER_SWITCH" .ro 0, fd 58 58 "MARGIN_BUSY" .ro 0, fd 57 57 "MARGIN_REJECT" .w1c 0, fd 51 48 "PARTNER_PORT" .ro 0, fd 47 32 "PARTNER_ID" .ro 0]⟩,
  ⟨"PLK_PARTNER", 0x1100010, 1, 0x0, 12, 0x10000, .pfPort, false,
    [fd 63 0 "SERIAL" .ro 0]⟩,
  ⟨"PLK_ERR", 0x1100018, 1, 0x0, 12, 0x10000, .pfPort, false,
    [fd 63 32 "FEC_CORRECTED" .ro 0, fd 31 24 "FEC_UNCORRECTED" .ro 0, fd 23 8 "REPLAYS" .ro 0, fd 7 4 "RETRAINS" .ro 0, fd 3 0 "DOWNS" .ro 0]⟩,
  ⟨"PLK_MARGIN", 0x1100020, 1, 0x0, 12, 0x10000, .pfPort, false,
    [fd 63 63 "START" .wo 0, fd 59 58 "LANE" .rw 0, fd 57 57 "AXIS" .rw 0, fd 47 40 "OFFSET" .rw 0, fd 39 16 "DWELL" .rw 1024]⟩,
  ⟨"PLK_MARGIN_RES", 0x1100028, 1, 0x0, 12, 0x10000, .pfPort, false,
    [fd 63 32 "ERRORS" .ro 0, fd 0 0 "DONE" .ro 0]⟩]

/-- Registers of the CLX block. -/
def regsClx : List RegDef := [
  ⟨"CLX_ID", 0x1200000, 1, 0x0, 1, 0x0, .pf, false,
    [fd 15 10 "DOMAIN" .rw 0, fd 9 0 "MEMBER" .rw 0]⟩,
  ⟨"CLX_CFG", 0x1200008, 1, 0x0, 1, 0x0, .pf, false,
    [fd 63 63 "JOIN" .rwt 0, fd 62 62 "ELIGIBLE" .rwt 1, fd 61 61 "FLOCK" .rwt 1, fd 60 60 "FABRIC" .rwt 0, fd 10 0 "LEAD" .rwt 500]⟩,
  ⟨"CLX_STAT", 0x1200010, 1, 0x0, 1, 0x0, .pf, false,
    [fd 63 63 "PENDING" .ro 0, fd 62 62 "MEMBER_IN" .ro 0, fd 61 61 "IS_MANAGER" .ro 0, fd 60 60 "IS_STANDBY" .ro 0, fd 59 59 "HOLDOVER" .ro 0, fd 58 58 "LATE_CLASP" .w1c 0, fd 57 57 "DUP_ID" .ro 0, fd 56 56 "ID_REJECT" .w1c 0, fd 55 55 "FLOCK_DROPPED" .w1c 0, fd 31 16 "NO_ROUTE" .ro 0, fd 15 0 "EPOCH" .ro 0]⟩,
  ⟨"CLX_MGR", 0x1200018, 1, 0x0, 1, 0x0, .ro, false,
    [fd 63 48 "MANAGER" .ro 0, fd 47 32 "STANDBY" .ro 0, fd 31 16 "ROOT" .ro 0, fd 15 15 "MGR_VALID" .ro 0, fd 14 14 "STBY_VALID" .ro 0, fd 13 13 "ROOT_VALID" .ro 0, fd 10 0 "MEMBERS" .ro 0]⟩,
  ⟨"CLX_COLL_STAT", 0x1200020, 1, 0x0, 1, 0x0, .ro, false,
    [fd 63 32 "COMPLETED" .ro 0, fd 31 16 "TIMEOUTS" .ro 0, fd 12 0 "STORE_KIB" .ro 0]⟩,
  ⟨"CLX_COLL_DROP", 0x1200028, 1, 0x0, 1, 0x0, .ro, false,
    [fd 63 0 "DROPPED" .ro 0]⟩,
  ⟨"CLX_GROUP_CFG", 0x1201000, 1, 0x0, 256, 0x10, .pfGroup, false,
    [fd 63 63 "VALID" .rw 0, fd 62 59 "PARTITION" .rw 0, fd 58 58 "ALGO" .rw 0, fd 57 41 "SIZE" .rw 0, fd 40 25 "RANK" .rw 0, fd 24 9 "KEY" .rw 0]⟩,
  ⟨"CLX_GROUP_MAP", 0x1201008, 1, 0x0, 256, 0x10, .pfGroup, false,
    [fd 47 3 "MEMBERS" .rw 0]⟩]

/-- Registers of the PWR block. -/
def regsPwr : List RegDef := [
  ⟨"PWR_CFG", 0x1300000, 1, 0x0, 1, 0x0, .pf, false,
    [fd 63 62 "MODE" .rwt 0, fd 61 58 "CEILING" .rwt 0, fd 57 53 "RAMP" .rwt 2]⟩,
  ⟨"PWR_STAT", 0x1300008, 1, 0x0, 1, 0x0, .pf, false,
    [fd 63 62 "EFF_MODE" .ro 2, fd 61 61 "PENDING" .ro 0, fd 60 60 "RIDE_THROUGH" .ro 0, fd 59 59 "RIDE_EVENT" .w1c 0, fd 58 58 "PWR_FAIL" .ro 0, fd 57 57 "EXCURSION" .ro 0, fd 56 56 "FLOOR_OVERRIDE" .w1c 0, fd 55 55 "MODE_DISAGREE" .ro 0, fd 53 50 "MGMT_CEILING" .ro 15, fd 49 48 "MGMT_MODE" .ro 0, fd 47 32 "EXCURSIONS" .ro 0, fd 31 0 "FORCED_STEPS" .ro 0]⟩,
  ⟨"PWR_INPUT", 0x1300010, 1, 0x0, 1, 0x0, .pf, false,
    [fd 63 48 "VOLTAGE" .ro 0, fd 47 32 "CURRENT" .ro 0, fd 31 16 "POWER" .ro 0, fd 15 0 "POWER_MAX" .rw 0]⟩,
  ⟨"PWR_DOMAIN", 0x1300018, 1, 0x0, 1, 0x0, .pf, false,
    [fd 29 0 "ON" .rwt 0]⟩,
  ⟨"PWR_FLOCK", 0x1300020, 1, 0x0, 1, 0x0, .pf, false,
    [fd 63 63 "ENABLE" .rwt 1, fd 62 59 "TARGET" .rwt 15, fd 58 55 "LOCKED" .ro 15, fd 54 54 "FOLLOWING" .ro 0]⟩,
  ⟨"PWR_IRQ", 0x1300028, 1, 0x0, 1, 0x0, .pf, false,
    [fd 63 63 "ENABLE" .rw 0, fd 42 32 "VECTOR" .rw 0]⟩,
  ⟨"PWR_DROOP", 0x1300030, 1, 0x0, 1, 0x0, .ro, false,
    [fd 63 32 "EVENTS" .ro 0, fd 31 0 "CYCLES" .ro 0]⟩,
  ⟨"PWR_RAMP", 0x1300038, 1, 0x0, 1, 0x0, .ro, false,
    [fd 63 32 "RAMP_STALL" .ro 0, fd 31 0 "FILL_CYCLES" .ro 0]⟩,
  ⟨"PWR_UNATTR", 0x1300040, 1, 0x0, 1, 0x0, .ro, false,
    [fd 63 0 "ENERGY" .ro 0]⟩,
  ⟨"PWR_GROUP", 0x1300100, 1, 0x0, 16, 0x8, .pfQuad, false,
    [fd 63 60 "REQ" .rwt 0, fd 59 56 "FLOOR" .rwt 0, fd 55 52 "CEILING" .rwt 15, fd 51 48 "EFF" .ro 0, fd 47 44 "LIMIT" .ro 0, fd 43 39 "ACT_CEIL" .ro 16]⟩,
  ⟨"PWR_CTX_ENERGY", 0x1301000, 1, 0x0, 4096, 0x8, .ctx, false,
    [fd 63 0 "ENERGY" .ro 0]⟩]

/-- Registers of the THM block. -/
def regsThm : List RegDef := [
  ⟨"THM_CFG", 0x1400000, 1, 0x0, 1, 0x0, .pf, false,
    [fd 63 56 "JLIMIT" .rwt 103, fd 55 48 "DLIMIT" .rwt 95]⟩,
  ⟨"THM_STAT", 0x1400008, 1, 0x0, 1, 0x0, .pf, false,
    [fd 63 56 "TJ_MAX" .ro 0, fd 55 50 "TJ_CORE" .ro 0, fd 47 40 "TD_MAX" .ro 0, fd 39 34 "TD_VAULT" .ro 0, fd 31 24 "TB_MAX" .ro 0, fd 23 20 "TB_PKG" .ro 0, fd 15 15 "J_THROTTLE" .ro 0, fd 14 14 "D_THROTTLE" .ro 0, fd 13 13 "B_THROTTLE" .ro 0, fd 12 12 "J_FORCED" .w1c 0, fd 11 11 "PENDING" .ro 0]⟩,
  ⟨"THM_QUAD", 0x1400100, 1, 0x0, 16, 0x8, .quad, false,
    [fd 63 48 "T3" .ro 0, fd 47 32 "T2" .ro 0, fd 31 16 "T1" .ro 0, fd 15 0 "T0" .ro 0]⟩]

/-- Registers of the SEC block. -/
def regsSec : List RegDef := [
  ⟨"SEC_STAT", 0x1500000, 1, 0x0, 1, 0x0, .ro, false,
    [fd 63 60 "SLOT_A_RESULT" .ro 0, fd 59 56 "SLOT_B_RESULT" .ro 0, fd 55 55 "BOOT_SLOT" .ro 0, fd 54 54 "TRIAL" .ro 0, fd 53 53 "FALLBACK" .ro 0, fd 52 52 "SAFE_BOOT" .ro 0, fd 51 51 "OWNER_KEY" .ro 0, fd 50 50 "CERT_MISSING" .ro 0, fd 49 49 "DEBUG_LOCK" .ro 1, fd 48 47 "REVOKED" .ro 0, fd 46 46 "RUN_KEY" .ro 0, fd 45 39 "RUN_SVN" .ro 0, fd 38 32 "ROLLBACK" .ro 0, fd 31 24 "BOOT_FAILS" .ro 0]⟩,
  ⟨"SEC_SLOT", 0x1500008, 1, 0x0, 2, 0x8, .ro, false,
    [fd 63 63 "VALID" .ro 0, fd 62 62 "KEY" .ro 0, fd 54 48 "SVN" .ro 0, fd 31 0 "VERSION" .ro 0]⟩,
  ⟨"SEC_CMD", 0x1500018, 1, 0x0, 1, 0x0, .pf, true,
    [fd 63 60 "OP" .wo 0, fd 6 0 "ARG" .wo 0]⟩,
  ⟨"SEC_CMD_STATUS", 0x1500020, 1, 0x0, 1, 0x0, .ro, false,
    [fd 63 63 "BUSY" .ro 0, fd 62 60 "RESULT" .ro 0, fd 59 56 "OP" .ro 0]⟩,
  ⟨"SEC_OWNER_KEY", 0x1500040, 1, 0x0, 4, 0x8, .pf, false,
    [fd 63 0 "KEY" .rw 0]⟩,
  ⟨"SEC_MEAS", 0x1500100, 8, 0x20, 4, 0x8, .ro, false,
    [fd 63 0 "M" .ro 0]⟩,
  ⟨"SEC_ID_PK", 0x1500200, 1, 0x0, 4, 0x8, .ro, false,
    [fd 63 0 "PK" .ro 0]⟩,
  ⟨"SEC_ALIAS_PK", 0x1500220, 1, 0x0, 4, 0x8, .ro, false,
    [fd 63 0 "PK" .ro 0]⟩,
  ⟨"SEC_OWNER_PK", 0x1500240, 1, 0x0, 4, 0x8, .ro, false,
    [fd 63 0 "PK" .ro 0]⟩]

/-- Registers of the MGT block. -/
def regsMgt : List RegDef := [
  ⟨"MGT_STAT", 0x1600000, 1, 0x0, 1, 0x0, .ro, false,
    [fd 63 63 "AUTO_BOOT" .ro 1, fd 62 62 "SAFE_NEXT" .ro 0, fd 47 40 "EID_SMBUS" .ro 0, fd 39 32 "EID_VDM" .ro 0, fd 31 16 "EVENTS_LOST" .ro 0, fd 15 0 "MAX_ERASE" .ro 0]⟩,
  ⟨"MGT_DOMAIN", 0x1600008, 1, 0x0, 1, 0x0, .ro, false,
    [fd 29 0 "MGMT_ON" .ro 1073741823]⟩,
  ⟨"MGT_LOG_STAT", 0x1600010, 1, 0x0, 1, 0x0, .pf, false,
    [fd 63 63 "CLEAR" .wo 0, fd 62 62 "SNAPSHOT" .ro 0, fd 41 32 "OLDEST" .ro 0, fd 31 16 "LOST" .ro 0, fd 10 0 "COUNT" .ro 0]⟩,
  ⟨"MGT_AGE", 0x1600100, 1, 0x0, 16, 0x8, .quad, false,
    [fd 63 63 "LIMIT" .ro 0, fd 3 0 "TRIM" .ro 0]⟩]

/-- Registers of the TEL block. -/
def regsTel : List RegDef := [
  ⟨"TEL_CFG", 0x1600800, 1, 0x0, 1, 0x0, .pf, true,
    [fd 63 63 "ENABLE" .rwt 0, fd 62 48 "RECORDS" .rwt 0, fd 47 10 "BASE" .rwt 0]⟩,
  ⟨"TEL_STAT", 0x1600808, 1, 0x0, 1, 0x0, .ro, false,
    [fd 63 63 "PENDING" .ro 0, fd 62 48 "NEXT" .ro 0, fd 31 0 "SKIPPED" .ro 0]⟩]

/-- Registers of the MGT block. -/
def regsMgt2 : List RegDef := [
  ⟨"MGT_LOG", 0x1601000, 1024, 0x20, 4, 0x8, .ro, false,
    [fd 63 0 "W" .ro 0]⟩]

/-- Registers of the FI block. -/
def regsFi : List RegDef := [
  ⟨"FI_CTL", 0x1700000, 1, 0x0, 1, 0x0, .pf, false,
    [fd 0 0 "ARM" .rw 0]⟩,
  ⟨"FI_RULE", 0x1700100, 1, 0x0, 16, 0x10, .pf, false,
    [fd 63 63 "ENABLE" .rw 0, fd 62 61 "ACTION" .rw 0, fd 60 58 "TRIGGER" .rw 0, fd 57 46 "PORTS" .rw 0, fd 45 45 "DIR" .rw 0, fd 44 41 "VC_MASK" .rw 0, fd 40 33 "TYPE" .rw 255]⟩,
  ⟨"FI_PARAM", 0x1700108, 1, 0x0, 16, 0x10, .pf, false,
    [fd 63 32 "TRIG_VAL" .rw 0, fd 31 16 "LIMIT" .rw 0, fd 15 0 "DELAY" .rw 0]⟩,
  ⟨"FI_COUNT", 0x1700200, 1, 0x0, 16, 0x8, .pf, false,
    [fd 31 0 "INJECTED" .ro 0]⟩]

/-- Registers of the HOL block. -/
def regsHol : List RegDef := [
  ⟨"HOL_CMD", 0x1800000, 1, 0x0, 1, 0x0, .pf, false,
    [fd 7 0 "OP" .wo 0]⟩,
  ⟨"HOL_STAGE_LEN", 0x1800008, 1, 0x0, 1, 0x0, .pf, false,
    [fd 20 0 "LENGTH" .rw 0]⟩,
  ⟨"HOL_STATUS", 0x1800010, 1, 0x0, 1, 0x0, .pf, false,
    [fd 63 32 "ACTIVE_VERSION" .ro 0, fd 26 24 "STAGE" .ro 0, fd 23 16 "REJECT_CODE" .ro 0, fd 15 12 "RELOAD_PART" .ro 0, fd 11 11 "COMMIT_PENDING" .ro 0, fd 10 10 "APPLYING" .ro 0, fd 9 9 "ABANDONED" .w1c 0, fd 8 8 "STORE_BUSY" .ro 0, fd 7 7 "STORE_FAIL" .w1c 0]⟩,
  ⟨"HOL_RELOAD_CFG", 0x1800018, 1, 0x0, 1, 0x0, .pf, false,
    [fd 15 0 "DRAIN_TICKS" .rw 64]⟩,
  ⟨"HOL_ACTIVE_DIGEST", 0x1800020, 1, 0x0, 4, 0x8, .ro, false,
    [fd 63 0 "DIGEST" .ro 0]⟩,
  ⟨"HOL_VERSION_FLOOR", 0x1800040, 1, 0x0, 1, 0x0, .ro, false,
    [fd 31 0 "FLOOR" .ro 0]⟩]

/-- Every register of BAR0. -/
def regDefs : List RegDef :=
  regsGlb ++
  regsTck ++
  regsRing ++
  regsCtx ++
  regsSeq ++
  regsArr ++
  regsLpe ++
  regsScn ++
  regsGate ++
  regsRng ++
  regsUpd ++
  regsMem ++
  regsBlk ++
  regsMig ++
  regsKv ++
  regsAwl ++
  regsPlk ++
  regsClx ++
  regsPwr ++
  regsThm ++
  regsSec ++
  regsMgt ++
  regsTel ++
  regsMgt2 ++
  regsFi ++
  regsHol

/-- The entry (i, j) of an array that lies at an offset, if one does. -/
def RegDef.at? (r : RegDef) (off : Nat) : Option (Nat × Nat) :=
  if off < r.base then none
  else
    let d := off - r.base
    let i := if r.n1 ≤ 1 then 0 else d / r.s1
    let e := d - i * r.s1
    let j := if r.n2 ≤ 1 then 0 else e / r.s2
    if i < r.n1 ∧ j < r.n2 ∧ e = j * r.s2 then some (i, j) else none

/-- The register at a BAR0 offset, with its entry (i, j); none at a reserved offset (R436). -/
def findReg (off : Nat) : Option (RegDef × Nat × Nat) :=
  regDefs.findSome? fun r => (r.at? off).map fun ij => (r, ij.1, ij.2)

/-- The reset value of one register: each field at its reset, reserved bits zero (R7). -/
def RegDef.resetVal (r : RegDef) : Word :=
  BitVec.ofNat 64 (r.fields.foldl (fun n f => n + f.reset * 2 ^ f.lo) 0)

/-- The reset value at a BAR0 offset. -/
def regReset (off : Nat) : Word := match findReg off with
  | some (r, _, _) => r.resetVal
  | none => 0

/-- The bits of the fields of one access type. -/
def RegDef.maskAcc (r : RegDef) (a : Acc) : Word :=
  r.fields.foldl (fun m f => if f.acc = a then m ||| maskOf f.hi f.lo else m) 0

namespace Reg

/-- BAR0 offset of GLB_ID (Table 0.3). -/
@[reducible] def GLB_ID : Nat := 0x0
/-- BAR0 offset of GLB_SERIAL (Table 18.6). -/
@[reducible] def GLB_SERIAL : Nat := 0x8
/-- BAR0 offset of GLB_STATE (Table 0.4). -/
@[reducible] def GLB_STATE : Nat := 0x10
/-- BAR0 offset of GLB_STATE_REQ (R4). -/
@[reducible] def GLB_STATE_REQ : Nat := 0x18
/-- BAR0 offset of GLB_COMMIT (Table 18.7). -/
@[reducible] def GLB_COMMIT : Nat := 0x20
/-- BAR0 offset of TCK_CFG (Table 1.4). -/
@[reducible] def TCK_CFG : Nat := 0x100000
/-- BAR0 offset of TCK_STATUS (Table 1.5). -/
@[reducible] def TCK_STATUS : Nat := 0x100008
/-- BAR0 offset of TCK_LAST_INTERVAL (Table 1.6). -/
@[reducible] def TCK_LAST_INTERVAL : Nat := 0x100010
/-- BAR0 offset of TCK_OVR_COUNT (Table 1.7). -/
@[reducible] def TCK_OVR_COUNT : Nat := 0x100018
/-- BAR0 offset of TCK_CTX_BUDGET (Table 1.8). -/
@[reducible] def TCK_CTX_BUDGET (i : Nat) : Nat := 0x101000 + 0x8 * i
/-- BAR0 offset of TCK_CTX_USED (Table 1.9). -/
@[reducible] def TCK_CTX_USED (i : Nat) : Nat := 0x109000 + 0x8 * i
/-- BAR0 offset of RING_CTL (Table 3.3). -/
@[reducible] def RING_CTL : Nat := 0x200000
/-- BAR0 offset of RING_CTL_STATUS (Table 3.4). -/
@[reducible] def RING_CTL_STATUS : Nat := 0x200008
/-- BAR0 offset of RING_CTX_TABLE (Table 3.1). -/
@[reducible] def RING_CTX_TABLE (i : Nat) : Nat := 0x210000 + 0x8 * i
/-- BAR0 offset of RING_RET_BASE (Table 3.9). -/
@[reducible] def RING_RET_BASE (i : Nat) : Nat := 0x220000 + 0x8 * i
/-- BAR0 offset of RING_RET_CFG (Table 3.10). -/
@[reducible] def RING_RET_CFG (i : Nat) : Nat := 0x228000 + 0x8 * i
/-- BAR0 offset of RING_RET_STATUS (Table 3.11). -/
@[reducible] def RING_RET_STATUS (i : Nat) : Nat := 0x230000 + 0x8 * i
/-- BAR0 offset of CTX_CMD (Table 14.9). -/
@[reducible] def CTX_CMD : Nat := 0x400000
/-- BAR0 offset of CTX_CMD_STATUS (Table 14.2). -/
@[reducible] def CTX_CMD_STATUS : Nat := 0x400008
/-- BAR0 offset of CTX_PREEMPT (Table 14.10). -/
@[reducible] def CTX_PREEMPT : Nat := 0x400010
/-- BAR0 offset of CTX_DISAGREE (Table 14.11). -/
@[reducible] def CTX_DISAGREE : Nat := 0x400018
/-- BAR0 offset of CTX_PART_CFG (Table 14.12). -/
@[reducible] def CTX_PART_CFG (i : Nat) : Nat := 0x401000 + 0x8 * i
/-- BAR0 offset of CTX_PART_STAT (Table 14.13). -/
@[reducible] def CTX_PART_STAT (i : Nat) : Nat := 0x401080 + 0x8 * i
/-- BAR0 offset of CTX_CFG (Table 14.14). -/
@[reducible] def CTX_CFG (i : Nat) : Nat := 0x500000 + 0x40 * i
/-- BAR0 offset of CTX_CORES (Table 14.15). -/
@[reducible] def CTX_CORES (i : Nat) : Nat := 0x500008 + 0x40 * i
/-- BAR0 offset of CTX_PT_ROOT (R377). -/
@[reducible] def CTX_PT_ROOT (i : Nat) : Nat := 0x500010 + 0x40 * i
/-- BAR0 offset of CTX_SPILL (R377). -/
@[reducible] def CTX_SPILL (i : Nat) : Nat := 0x500018 + 0x40 * i
/-- BAR0 offset of CTX_SAVE (R377). -/
@[reducible] def CTX_SAVE (i : Nat) : Nat := 0x500020 + 0x40 * i
/-- BAR0 offset of CTX_STATE_TBL (R198). -/
@[reducible] def CTX_STATE_TBL (i : Nat) : Nat := 0x500028 + 0x40 * i
/-- BAR0 offset of CTX_KEY_TBL (R254). -/
@[reducible] def CTX_KEY_TBL (i : Nat) : Nat := 0x500030 + 0x40 * i
/-- BAR0 offset of CTX_STAT (Table 14.16). -/
@[reducible] def CTX_STAT (i : Nat) : Nat := 0x500038 + 0x40 * i
/-- BAR0 offset of SEQ_CFG (Table 5.8). -/
@[reducible] def SEQ_CFG (i : Nat) : Nat := 0x801000 + 0x10000 * i
/-- BAR0 offset of SEQ_STAT (Table 5.9). -/
@[reducible] def SEQ_STAT (i : Nat) : Nat := 0x801008 + 0x10000 * i
/-- BAR0 offset of SEQ_SPILL (Table 5.10). -/
@[reducible] def SEQ_SPILL (i : Nat) : Nat := 0x801010 + 0x10000 * i
/-- BAR0 offset of SEQ_CLAIM (Table 5.11). -/
@[reducible] def SEQ_CLAIM (i : Nat) : Nat := 0x801018 + 0x10000 * i
/-- BAR0 offset of SEQ_WELT (Table 5.12). -/
@[reducible] def SEQ_WELT (i : Nat) : Nat := 0x801020 + 0x10000 * i
/-- BAR0 offset of ARR_STAT (Table 4.11). -/
@[reducible] def ARR_STAT (i : Nat) : Nat := 0x802000 + 0x10000 * i
/-- BAR0 offset of ARR_STALL (Table 4.12). -/
@[reducible] def ARR_STALL (i : Nat) : Nat := 0x802008 + 0x10000 * i
/-- BAR0 offset of ARR_BUSY (Table 4.13). -/
@[reducible] def ARR_BUSY (i : Nat) : Nat := 0x802010 + 0x10000 * i
/-- BAR0 offset of LPE_CFG (Table 6.8). -/
@[reducible] def LPE_CFG (i : Nat) : Nat := 0x803000 + 0x10000 * i
/-- BAR0 offset of LPE_STAT (Table 6.9). -/
@[reducible] def LPE_STAT (i : Nat) : Nat := 0x803008 + 0x10000 * i
/-- BAR0 offset of LPE_FILL (Table 6.10). -/
@[reducible] def LPE_FILL (i : Nat) : Nat := 0x803010 + 0x10000 * i
/-- BAR0 offset of LPE_RETAIN (Table 6.11). -/
@[reducible] def LPE_RETAIN (i : Nat) : Nat := 0x803018 + 0x10000 * i
/-- BAR0 offset of LPE_DECODE (Table 6.12). -/
@[reducible] def LPE_DECODE (i : Nat) : Nat := 0x803020 + 0x10000 * i
/-- BAR0 offset of SCN_STAT (Table 7.10). -/
@[reducible] def SCN_STAT (i : Nat) : Nat := 0x804000 + 0x10000 * i
/-- BAR0 offset of SCN_REANCHOR (Table 7.11). -/
@[reducible] def SCN_REANCHOR (i : Nat) : Nat := 0x804008 + 0x10000 * i
/-- BAR0 offset of SCN_MAXABS (Table 7.12). -/
@[reducible] def SCN_MAXABS (i : Nat) : Nat := 0x804010 + 0x10000 * i
/-- BAR0 offset of SCN_WORK (Table 7.13). -/
@[reducible] def SCN_WORK (i : Nat) : Nat := 0x804018 + 0x10000 * i
/-- BAR0 offset of GATE_STAT (Table 7.14). -/
@[reducible] def GATE_STAT (i : Nat) : Nat := 0x805000 + 0x10000 * i
/-- BAR0 offset of GATE_OPS (Table 7.15). -/
@[reducible] def GATE_OPS (i : Nat) : Nat := 0x805008 + 0x10000 * i
/-- BAR0 offset of RNG_STAT (Table 10.8). -/
@[reducible] def RNG_STAT (i : Nat) : Nat := 0x806000 + 0x10000 * i
/-- BAR0 offset of RNG_BLOCKS (Table 10.9). -/
@[reducible] def RNG_BLOCKS (i : Nat) : Nat := 0x806008 + 0x10000 * i
/-- BAR0 offset of RNG_WAIT (Table 10.10). -/
@[reducible] def RNG_WAIT (i : Nat) : Nat := 0x806010 + 0x10000 * i
/-- BAR0 offset of UPD_STAT (Table 10.11). -/
@[reducible] def UPD_STAT (i : Nat) : Nat := 0x807000 + 0x10000 * i
/-- BAR0 offset of UPD_WORK (Table 10.12). -/
@[reducible] def UPD_WORK (i : Nat) : Nat := 0x807008 + 0x10000 * i
/-- BAR0 offset of UPD_ELEMS (Table 10.13). -/
@[reducible] def UPD_ELEMS (i : Nat) : Nat := 0x807010 + 0x10000 * i
/-- BAR0 offset of MEM_CFG (Table 11.8). -/
@[reducible] def MEM_CFG (i : Nat) : Nat := 0xc00000 + 0x4000 * i
/-- BAR0 offset of MEM_STAT (Table 11.9). -/
@[reducible] def MEM_STAT (i : Nat) : Nat := 0xc00008 + 0x4000 * i
/-- BAR0 offset of MEM_ERR (Table 11.10). -/
@[reducible] def MEM_ERR (i : Nat) : Nat := 0xc00010 + 0x4000 * i
/-- BAR0 offset of MEM_MARGIN (Table 11.11). -/
@[reducible] def MEM_MARGIN (i : Nat) : Nat := 0xc00018 + 0x4000 * i
/-- BAR0 offset of MEM_MARGIN_RES (Table 11.12). -/
@[reducible] def MEM_MARGIN_RES (i : Nat) : Nat := 0xc00020 + 0x4000 * i
/-- BAR0 offset of MEM_CLASS (R289). -/
@[reducible] def MEM_CLASS (i : Nat) (j : Nat) : Nat := 0xc00100 + 0x4000 * i + 0x8 * j
/-- BAR0 offset of BLK_CFG (R309). -/
@[reducible] def BLK_CFG : Nat := 0xd00000
/-- BAR0 offset of BLK_STAT (R309). -/
@[reducible] def BLK_STAT : Nat := 0xd00008
/-- BAR0 offset of BLK_ERR (R309). -/
@[reducible] def BLK_ERR : Nat := 0xd00010
/-- BAR0 offset of BLK_MARGIN (R309). -/
@[reducible] def BLK_MARGIN : Nat := 0xd00018
/-- BAR0 offset of BLK_MARGIN_RES (R309). -/
@[reducible] def BLK_MARGIN_RES : Nat := 0xd00020
/-- BAR0 offset of BLK_UNAVAIL (R309). -/
@[reducible] def BLK_UNAVAIL : Nat := 0xd00040
/-- BAR0 offset of BLK_CACHE (R309). -/
@[reducible] def BLK_CACHE (i : Nat) : Nat := 0xd00100 + 0x8 * i
/-- BAR0 offset of BLK_CLASS (R309). -/
@[reducible] def BLK_CLASS (i : Nat) : Nat := 0xd08000 + 0x8 * i
/-- BAR0 offset of MIG_INVAL (Table 11.15). -/
@[reducible] def MIG_INVAL : Nat := 0xe00000
/-- BAR0 offset of MIG_STAT (Table 11.16). -/
@[reducible] def MIG_STAT : Nat := 0xe00008
/-- BAR0 offset of MIG_MOVES (Table 11.17). -/
@[reducible] def MIG_MOVES : Nat := 0xe00010
/-- BAR0 offset of MIG_PART_CFG (Table 11.18). -/
@[reducible] def MIG_PART_CFG (i : Nat) : Nat := 0xe00100 + 0x8 * i
/-- BAR0 offset of MIG_STACK (Table 11.19). -/
@[reducible] def MIG_STACK (i : Nat) (j : Nat) : Nat := 0xe00200 + 0x10 * i + 0x8 * j
/-- BAR0 offset of MIG_COUNT (Table 11.20). -/
@[reducible] def MIG_COUNT (i : Nat) : Nat := 0xe00400 + 0x8 * i
/-- BAR0 offset of MIG_PUSH (Table 11.21). -/
@[reducible] def MIG_PUSH (i : Nat) : Nat := 0xe00500 + 0x8 * i
/-- BAR0 offset of KV_STAT (Table 8.9). -/
@[reducible] def KV_STAT : Nat := 0xf00000
/-- BAR0 offset of KV_FLUSH (Table 8.10). -/
@[reducible] def KV_FLUSH : Nat := 0xf00008
/-- BAR0 offset of KV_COPY (Table 8.11). -/
@[reducible] def KV_COPY : Nat := 0xf00010
/-- BAR0 offset of KV_PART_QUOTA (Table 8.12). -/
@[reducible] def KV_PART_QUOTA (i : Nat) : Nat := 0xf00100 + 0x8 * i
/-- BAR0 offset of KV_RING (Table 8.13). -/
@[reducible] def KV_RING (i : Nat) : Nat := 0xf00200 + 0x8 * i
/-- BAR0 offset of KV_CTX_LIST (Table 8.14). -/
@[reducible] def KV_CTX_LIST (i : Nat) : Nat := 0xf01000 + 0x8 * i
/-- BAR0 offset of KV_CTX_POOL (Table 8.15). -/
@[reducible] def KV_CTX_POOL (i : Nat) : Nat := 0xf09000 + 0x8 * i
/-- BAR0 offset of KV_CTX_CFG (Table 8.16). -/
@[reducible] def KV_CTX_CFG (i : Nat) : Nat := 0xf11000 + 0x8 * i
/-- BAR0 offset of AWL_STAT (Table 9.6). -/
@[reducible] def AWL_STAT : Nat := 0x1000000
/-- BAR0 offset of AWL_CFG (Table 9.7). -/
@[reducible] def AWL_CFG : Nat := 0x1000008
/-- BAR0 offset of AWL_WORK (Table 9.8). -/
@[reducible] def AWL_WORK : Nat := 0x1000010
/-- BAR0 offset of PLK_CTL (Table 12.10). -/
@[reducible] def PLK_CTL (i : Nat) : Nat := 0x1100000 + 0x10000 * i
/-- BAR0 offset of PLK_STAT (Table 12.11). -/
@[reducible] def PLK_STAT (i : Nat) : Nat := 0x1100008 + 0x10000 * i
/-- BAR0 offset of PLK_PARTNER (Table 12.12). -/
@[reducible] def PLK_PARTNER (i : Nat) : Nat := 0x1100010 + 0x10000 * i
/-- BAR0 offset of PLK_ERR (Table 12.13). -/
@[reducible] def PLK_ERR (i : Nat) : Nat := 0x1100018 + 0x10000 * i
/-- BAR0 offset of PLK_MARGIN (Table 12.14). -/
@[reducible] def PLK_MARGIN (i : Nat) : Nat := 0x1100020 + 0x10000 * i
/-- BAR0 offset of PLK_MARGIN_RES (Table 12.15). -/
@[reducible] def PLK_MARGIN_RES (i : Nat) : Nat := 0x1100028 + 0x10000 * i
/-- BAR0 offset of CLX_ID (Table 12.16). -/
@[reducible] def CLX_ID : Nat := 0x1200000
/-- BAR0 offset of CLX_CFG (Table 12.17). -/
@[reducible] def CLX_CFG : Nat := 0x1200008
/-- BAR0 offset of CLX_STAT (Table 12.18). -/
@[reducible] def CLX_STAT : Nat := 0x1200010
/-- BAR0 offset of CLX_MGR (Table 12.19). -/
@[reducible] def CLX_MGR : Nat := 0x1200018
/-- BAR0 offset of CLX_COLL_STAT (Table 13.8). -/
@[reducible] def CLX_COLL_STAT : Nat := 0x1200020
/-- BAR0 offset of CLX_COLL_DROP (Table 13.9). -/
@[reducible] def CLX_COLL_DROP : Nat := 0x1200028
/-- BAR0 offset of CLX_GROUP_CFG (Table 13.6). -/
@[reducible] def CLX_GROUP_CFG (i : Nat) : Nat := 0x1201000 + 0x10 * i
/-- BAR0 offset of CLX_GROUP_MAP (Table 13.7). -/
@[reducible] def CLX_GROUP_MAP (i : Nat) : Nat := 0x1201008 + 0x10 * i
/-- BAR0 offset of PWR_CFG (Table 15.8). -/
@[reducible] def PWR_CFG : Nat := 0x1300000
/-- BAR0 offset of PWR_STAT (Table 15.9). -/
@[reducible] def PWR_STAT : Nat := 0x1300008
/-- BAR0 offset of PWR_INPUT (Table 15.10). -/
@[reducible] def PWR_INPUT : Nat := 0x1300010
/-- BAR0 offset of PWR_DOMAIN (Table 15.11). -/
@[reducible] def PWR_DOMAIN : Nat := 0x1300018
/-- BAR0 offset of PWR_FLOCK (Table 15.12). -/
@[reducible] def PWR_FLOCK : Nat := 0x1300020
/-- BAR0 offset of PWR_IRQ (Table 15.13). -/
@[reducible] def PWR_IRQ : Nat := 0x1300028
/-- BAR0 offset of PWR_DROOP (R391). -/
@[reducible] def PWR_DROOP : Nat := 0x1300030
/-- BAR0 offset of PWR_RAMP (R390). -/
@[reducible] def PWR_RAMP : Nat := 0x1300038
/-- BAR0 offset of PWR_UNATTR (Table 15.15). -/
@[reducible] def PWR_UNATTR : Nat := 0x1300040
/-- BAR0 offset of PWR_GROUP (Table 15.16). -/
@[reducible] def PWR_GROUP (i : Nat) : Nat := 0x1300100 + 0x8 * i
/-- BAR0 offset of PWR_CTX_ENERGY (Table 15.17). -/
@[reducible] def PWR_CTX_ENERGY (i : Nat) : Nat := 0x1301000 + 0x8 * i
/-- BAR0 offset of THM_CFG (Table 15.18). -/
@[reducible] def THM_CFG : Nat := 0x1400000
/-- BAR0 offset of THM_STAT (Table 15.19). -/
@[reducible] def THM_STAT : Nat := 0x1400008
/-- BAR0 offset of THM_QUAD (Table 15.20). -/
@[reducible] def THM_QUAD (i : Nat) : Nat := 0x1400100 + 0x8 * i
/-- BAR0 offset of SEC_STAT (Table 16.12). -/
@[reducible] def SEC_STAT : Nat := 0x1500000
/-- BAR0 offset of SEC_SLOT (Table 16.13). -/
@[reducible] def SEC_SLOT (i : Nat) : Nat := 0x1500008 + 0x8 * i
/-- BAR0 offset of SEC_CMD (Table 16.14). -/
@[reducible] def SEC_CMD : Nat := 0x1500018
/-- BAR0 offset of SEC_CMD_STATUS (Table 16.15). -/
@[reducible] def SEC_CMD_STATUS : Nat := 0x1500020
/-- BAR0 offset of SEC_OWNER_KEY (R417). -/
@[reducible] def SEC_OWNER_KEY (i : Nat) : Nat := 0x1500040 + 0x8 * i
/-- BAR0 offset of SEC_MEAS (R410). -/
@[reducible] def SEC_MEAS (i : Nat) (j : Nat) : Nat := 0x1500100 + 0x20 * i + 0x8 * j
/-- BAR0 offset of SEC_ID_PK (R412). -/
@[reducible] def SEC_ID_PK (i : Nat) : Nat := 0x1500200 + 0x8 * i
/-- BAR0 offset of SEC_ALIAS_PK (R412). -/
@[reducible] def SEC_ALIAS_PK (i : Nat) : Nat := 0x1500220 + 0x8 * i
/-- BAR0 offset of SEC_OWNER_PK (R406). -/
@[reducible] def SEC_OWNER_PK (i : Nat) : Nat := 0x1500240 + 0x8 * i
/-- BAR0 offset of MGT_STAT (Table 17.11). -/
@[reducible] def MGT_STAT : Nat := 0x1600000
/-- BAR0 offset of MGT_DOMAIN (Table 17.12). -/
@[reducible] def MGT_DOMAIN : Nat := 0x1600008
/-- BAR0 offset of MGT_LOG_STAT (Table 17.13). -/
@[reducible] def MGT_LOG_STAT : Nat := 0x1600010
/-- BAR0 offset of MGT_AGE (Table 17.14). -/
@[reducible] def MGT_AGE (i : Nat) : Nat := 0x1600100 + 0x8 * i
/-- BAR0 offset of TEL_CFG (Table 17.15). -/
@[reducible] def TEL_CFG : Nat := 0x1600800
/-- BAR0 offset of TEL_STAT (Table 17.16). -/
@[reducible] def TEL_STAT : Nat := 0x1600808
/-- BAR0 offset of MGT_LOG (R424). -/
@[reducible] def MGT_LOG (i : Nat) (j : Nat) : Nat := 0x1601000 + 0x20 * i + 0x8 * j
/-- BAR0 offset of FI_CTL (Table 12.20). -/
@[reducible] def FI_CTL : Nat := 0x1700000
/-- BAR0 offset of FI_RULE (Table 12.21). -/
@[reducible] def FI_RULE (i : Nat) : Nat := 0x1700100 + 0x10 * i
/-- BAR0 offset of FI_PARAM (Table 12.22). -/
@[reducible] def FI_PARAM (i : Nat) : Nat := 0x1700108 + 0x10 * i
/-- BAR0 offset of FI_COUNT (Table 12.23). -/
@[reducible] def FI_COUNT (i : Nat) : Nat := 0x1700200 + 0x8 * i
/-- BAR0 offset of HOL_CMD (Table 2.11). -/
@[reducible] def HOL_CMD : Nat := 0x1800000
/-- BAR0 offset of HOL_STAGE_LEN (Table 2.12). -/
@[reducible] def HOL_STAGE_LEN : Nat := 0x1800008
/-- BAR0 offset of HOL_STATUS (Table 2.13). -/
@[reducible] def HOL_STATUS : Nat := 0x1800010
/-- BAR0 offset of HOL_RELOAD_CFG (Table 2.14). -/
@[reducible] def HOL_RELOAD_CFG : Nat := 0x1800018
/-- BAR0 offset of HOL_ACTIVE_DIGEST (R70). -/
@[reducible] def HOL_ACTIVE_DIGEST (i : Nat) : Nat := 0x1800020 + 0x8 * i
/-- BAR0 offset of HOL_VERSION_FLOOR (R66). -/
@[reducible] def HOL_VERSION_FLOOR : Nat := 0x1800040

end Reg

end Sys2Proof.Machine
end

