-- ==== Sys2Proof/Machine/Hash.lean ====
section
/-!
DEFINITION. The fixed functions the spec names by their standards: SHA-256 (R55, R66, R70, R73, R410) and the IEEE 802.3
CRC-32 of packets (Tables 5.7, 12.2).
PRESUMED (log entry 5): the text of FIPS 180-4 and of the CRC-32 of IEEE 802.3, which the spec names and does not repeat.
-/
namespace Sys2Proof.Machine

/-- The greatest number below 2 ^ b more than r whose power e is at most n, found a bit at a time. -/
def rootBits (e n : Nat) : Nat → Nat → Nat
  | 0, r => r
  | b + 1, r => rootBits e n b (if (r + 2 ^ b) ^ e ≤ n then r + 2 ^ b else r)

/-- The first 32 bits of the fraction of the root e of n, for a root below 16: what FIPS 180-4 takes its constants from. -/
def rootFraction (e n : Nat) : Nat := rootBits e (n * 2 ^ (32 * e)) 36 0 % 2 ^ 32

/-- The first 64 primes. -/
def primes64 : List Nat :=
  (List.range 312).filter fun n => decide (2 ≤ n) && [2, 3, 5, 7, 11, 13, 17].all fun d => decide (n = d ∨ n % d ≠ 0)

/-- A 32-bit word turned right by each amount, the turned words added without carry. -/
def turns (w : Nat) (ns : List Nat) : Nat := ns.foldl (fun acc n => acc ^^^ (w * (2 ^ 32 + 1) / 2 ^ n % 2 ^ 32)) 0

/-- One round. `v` holds the eight working words, first to last, and the sixteen schedule words that come next; the round takes the
first of these, and the word that it and the later ones make joins at the end. -/
def digestRound (v : List Nat × List Nat) (k : Nat) : List Nat × List Nat :=
  let x (i : Nat) : Nat := v.1.getD i 0
  let w (i : Nat) : Nat := v.2.getD i 0
  let choice := (x 4 &&& x 5) + ((2 ^ 32 - 1 - x 4) &&& x 6)
  let majority := (x 0 &&& (x 1 ||| x 2)) ||| (x 1 &&& x 2)
  let fed := x 7 + k + w 0 + choice + turns (x 4) [6, 11, 25]
  let joined := w 0 + w 9 + (turns (w 1) [7, 18] ^^^ w 1 / 8) + (turns (w 14) [17, 19] ^^^ w 14 / 1024)
  ((fed + majority + turns (x 0) [2, 13, 22]) % 2 ^ 32 :: updAt (v.1.take 7) 3 (fun d => (d + fed) % 2 ^ 32),
    v.2.drop 1 ++ [joined % 2 ^ 32])

/-- The chaining words after a 64-byte block: a round for each of the 64 cube roots, then word by word the sum of old and new. -/
def digestBlock (h : List Nat) (blk : List Byte) : List Nat :=
  let ws := (List.range 16).map fun i => beNat ((blk.drop (4 * i)).take 4)
  let last := (primes64.map (rootFraction 3)).foldl digestRound (h, ws)
  (h.zip last.1).map fun p => (p.1 + p.2) % 2 ^ 32

/-- SHA-256, 32 bytes: the message, a one bit, zeros to 8 bytes short of a whole block, its length in bits; chained over the blocks from
the square roots of the first eight primes. -/
def sha256 (msg : List Byte) : List Byte :=
  let full := msg ++ [0x80] ++ zeros ((119 - msg.length % 64) % 64) ++ beBytes 8 (8 * msg.length)
  let blocks := (List.range (full.length / 64)).map fun i => (full.drop (64 * i)).take 64
  (blocks.foldl digestBlock ((primes64.take 8).map (rootFraction 2))).flatMap (beBytes 4)

/-- HMAC-SHA-256 (R411). -/
def hmac (key msg : List Byte) : List Byte :=
  let k0 := if key.length > 64 then sha256 key else key
  let k := k0 ++ zeros (64 - k0.length)
  sha256 (k.map (· ^^^ 0x5C) ++ sha256 (k.map (· ^^^ 0x36) ++ msg))

/-- HKDF-SHA-256 expansion: blocks T(i) joined, by fuel. -/
def hkdfExpand (prk info : List Byte) : Nat → Nat → List Byte → List Byte
  | 0, _, _ => []
  | n + 1, i, prev =>
    let t := hmac prk (prev ++ info ++ [BitVec.ofNat 8 i])
    t ++ hkdfExpand prk info n (i + 1) t

/-- 48 bytes of HKDF-SHA-256 (R411). -/
def hkdf48 (ikm salt info : List Byte) : List Byte := (hkdfExpand (hmac salt ikm) info 2 1 []).take 48

/-- One bit of the reflected CRC-32. -/
def crcBit (c : Nat) : Nat := if c % 2 = 1 then (c / 2) ^^^ 0xEDB88320 else c / 2

/-- One byte of the reflected CRC-32. -/
def crcByte (c : Nat) (b : Byte) : Nat :=
  (List.range 8).foldl (fun c _ => crcBit c) (c ^^^ b.toNat)

/-- IEEE 802.3 CRC-32 (Tables 5.7 and 12.2). -/
def crc32 (bs : List Byte) : Nat := (bs.foldl crcByte 0xFFFFFFFF) ^^^ 0xFFFFFFFF

end Sys2Proof.Machine
end

