-- ==== Sys2Proof/Machine/Structure.lean ====
section
/-!
DEFINITION. The structure a Hollon image gives the part (02_hollon_image.md): partitions, fragments, power groups, the
built-in safe structure, the geometry and memory map that follow from them, and the reading and checking of an image's
bytes (R53 to R67, R75, R278, R284).
-/
namespace Sys2Proof.Machine

/-- One partition's FRAGMENT section (Tables 2.7 and 2.9). -/
structure Fragment where
  gang : Nat
  accTiles : Nat
  grain : Nat
  span : Nat
  defClass : Nat
  folds : List Word
  deriving DecidableEq, Repr

/-- One PARTITION_MAP entry (Table 2.6) with its fragment. -/
structure PartDef where
  quadMask : Nat
  fn : Nat
  chanMask : Nat
  wayMask : Nat
  maxCtx : Nat
  bulkBase : Nat
  bulkSize : Nat
  frag : Fragment
  deriving DecidableEq, Repr

/-- The structure in force: DEVICE section, 16 partitions and the POWER_GROUPS bytes (R52, R57, R58, R65). -/
structure Layout where
  tick : Word
  powerMode : Nat
  stepCeil : Nat
  profile : Nat
  holdLimit : Nat
  parts : List PartDef
  groups : List Nat
  deriving DecidableEq, Repr

/-- The image header (Table 2.2). -/
structure ImgHeader where
  magic : Nat
  format : Nat
  part : Nat
  length : Nat
  raiseFloor : Bool
  sections : Nat
  steppings : Nat
  kind : Nat
  target : Nat
  version : Nat
  serial : Word
  base : List Byte
  deriving DecidableEq, Repr

/-- One directory entry (Table 2.3). -/
structure DirEntry where
  type : Nat
  part : Nat
  offset : Nat
  length : Nat
  digest : List Byte
  deriving DecidableEq, Repr

/-- What a verified image holds: its header, the structure (full image) or fragment (package), and the SHA-256 of the
signed bytes (R70, R73). -/
structure Image where
  header : ImgHeader
  layout : Option Layout
  frag : Option Fragment
  digest : List Byte
  deriving DecidableEq, Repr

/-- The fragment of a partition that has none. -/
def noFragment : Fragment := ⟨0, 0, 0, 0, 0, []⟩

/-- An undefined partition: function 31, no quad (R58). -/
def noPart : PartDef := ⟨0, 31, 0, 0, 0, 0, 0, noFragment⟩

/-- A partition is defined when its entry names a function (R58). -/
def PartDef.defined (p : PartDef) : Bool := decide (p.fn ≠ 31)

/-- A partition of the layout; an index past 15 is undefined. -/
def Layout.part (l : Layout) (p : Nat) : PartDef := l.parts.getD p noPart

/-- The built-in safe structure of R75. -/
def builtIn : Layout where
  tick := 0
  powerMode := 2
  stepCeil := 15
  profile := 0
  holdLimit := 64
  parts := ⟨0xFFFF, 0, 0, 0xFFFF, 4096, 0, 256,
    ⟨0, 0, 0, 0, 0, [0x0100010001010000, 0x0200020002020000, 0x0400040004040000, 0x1000100010100000]⟩⟩
    :: List.replicate 15 noPart
  groups := List.replicate 30 0x80

/-- The quad of a core (Numbering, 00_scope.md): a 2×2 block of the 8×8 grid. -/
def quadOf (core : Nat) : Nat := 4 * (core / 16) + core % 8 / 2

/-- The lowest core of a quad: C(16⌊q/4⌋ + 2(q mod 4)). -/
def quadBase (q : Nat) : Nat := 16 * (q / 4) + 2 * (q % 4)

/-- The four cores of a quad. -/
def quadCores (q : Nat) : List Nat := [quadBase q, quadBase q + 1, quadBase q + 8, quadBase q + 9]

/-- Whether a partition owns a core (and the vault above it, R58). -/
def PartDef.hasCore (p : PartDef) (c : Nat) : Bool := p.defined && decide (c < 64) && p.quadMask.testBit (quadOf c)

/-- The cores of a partition, ascending. -/
def PartDef.cores (p : PartDef) : List Nat := (List.range 64).filter p.hasCore

/-- The partition that owns a core, if one does. -/
def Layout.partOfCore (l : Layout) (c : Nat) : Option Nat := (List.range 16).find? fun p => (l.part p).hasCore c

/-- The partition served by a function (R356). -/
def Layout.partOfFn (l : Layout) (fn : Nat) : Option Nat :=
  (List.range 16).find? fun p => decide ((l.part p).fn = fn) && (l.part p).defined

/-- The cores of one logical array, from its lowest core (Table 2.8). -/
def arrayCores (gang c : Nat) : List Nat :=
  if gang = 0 then [c] else if gang = 1 then [c, c + 1] else [c, c + 1, c + 8, c + 9]

/-- The logical arrays of a partition, each named by its lowest core, ascending (R60). -/
def PartDef.arrays (p : PartDef) : List Nat :=
  p.cores.filter fun c =>
    if p.frag.gang = 0 then true
    else if p.frag.gang = 1 then decide (c % 2 = 0)
    else decide (c = quadBase (quadOf c))

/-- Rows and columns of a logical array (Table 2.8). -/
def gangRows (gang : Nat) : Nat := if gang = 2 then 512 else 256
@[inherit_doc gangRows] def gangCols (gang : Nat) : Nat := if gang = 0 then 256 else 512

/-- The two tiers of the physical range (Table 11.1). -/
def vaultSize : Nat := 3 * 2 ^ 30
@[inherit_doc vaultSize] def nearTop : Nat := 64 * vaultSize
@[inherit_doc vaultSize] def bulkBase : Nat := 0x4000000000
@[inherit_doc vaultSize] def bulkTop : Nat := 0x8000000000

/-- An address lies in the bulk tier (Table 11.1). -/
def isBulk (pa : Nat) : Bool := decide (bulkBase ≤ pa ∧ pa < bulkTop)

/-- The channels a partition's slice rotates over: its exclusive ones or the shared pool, ascending (R58, R284). -/
def Layout.sharedMask (l : Layout) : Nat :=
  (2 ^ 64 - 1) ^^^ l.parts.foldl (fun m p => if p.defined then m ||| p.chanMask % 2 ^ 64 else m) 0
@[inherit_doc Layout.sharedMask] def Layout.channels (l : Layout) (p : PartDef) : List Nat :=
  maskList 64 (if p.chanMask = 0 then l.sharedMask else p.chanMask)

/-- The partition whose bulk slice holds an address (R58, R284). -/
def Layout.sliceOf (l : Layout) (pa : Nat) : Option Nat :=
  (List.range 16).find? fun i =>
    let p := l.part i
    let lo := bulkBase + p.bulkBase * 2 ^ 30
    p.defined && decide (lo ≤ pa ∧ pa < lo + p.bulkSize * 2 ^ 30)

/-- Channel and channel address of a bulk address of partition p (R284). -/
def Layout.bulkPlace (l : Layout) (i pa : Nat) : Nat × Nat :=
  let p := l.part i
  let o := pa - bulkBase - p.bulkBase * 2 ^ 30
  let below := (l.parts.filter fun q =>
    q.defined && decide (q.chanMask = 0) && decide (q.bulkBase < p.bulkBase)).foldl (fun n q => n + q.bulkSize) 0
  let x := if p.chanMask = 0 then o + below * 2 ^ 30 else o
  let ch := l.channels p
  let c := ch.length
  if c = 0 then (0, 2 ^ 32) else (ch.getD (x / 512 % c) 0, x / (512 * c) * 512 + x % 512)

/-- A bulk address is backed (R284): in a defined slice, with a channel address below 4 GiB. -/
def Layout.backed (l : Layout) (pa : Nat) : Bool := match l.sliceOf pa with
  | some i => decide ((l.bulkPlace i pa).2 < 2 ^ 32)
  | none => false

/-- The vaults of the span that holds a near-tier address of partition p (R64, R278). -/
def Layout.spanVaults (l : Layout) (i pa : Nat) : List Nat :=
  let p := l.part i
  let v := pa / vaultSize
  if p.frag.span = 0 then p.cores else if p.frag.span = 1 then sortBy (fun a b => decide (a ≤ b)) (quadCores (quadOf v))
  else [v]

/-- near_grain in bytes (Table 2.7). -/
def grainBytes (g : Nat) : Nat := if g = 0 then 2048 else if g = 1 then 4096 else if g = 2 then 65536 else 2097152

/-- Vault, channel and channel address of a near-tier address of partition p (R278). -/
def Layout.nearPlace (l : Layout) (i pa : Nat) : Nat × Nat × Nat :=
  let p := l.part i
  let vs := l.spanVaults i pa
  let nv := vs.length
  let gb := grainBytes p.frag.grain
  let v := pa / vaultSize
  let o := (vs.findIdx fun x => decide (x = v)) * vaultSize + pa % vaultSize
  let g := o / gb
  if nv = 0 then (v, 0, 0) else (vs.getD (g / 16 % nv) 0, g % 16, g / (16 * nv) * gb + o % gb)

/-- The partition that owns a physical address: a vault above its cores, or a backed address of its slice (R274). -/
def Layout.ownerOf (l : Layout) (pa : Nat) : Option Nat :=
  if pa < nearTop then l.partOfCore (pa / vaultSize)
  else if isBulk pa then (if l.backed pa then l.sliceOf pa else none)
  else none

/-- The vault whose controller serves an address, or the home vault of its cache line (R278, R286). -/
def homeVault (pa : Nat) : Nat := pa / 512 % 64

/-! ### Reading an image (R53 to R56) -/

/-- Word i of a byte list as a number. -/
def wnat (bs : List Byte) (i : Nat) : Nat := (wordAt bs i).toNat

/-- The header of an image (Table 2.2). -/
def imgHeader (bs : List Byte) : ImgHeader :=
  let w0 := wnat bs 0
  let w1 := wnat bs 1
  let w2 := wnat bs 2
  ⟨bits w0 63 32, bits w0 31 16, bits w0 15 0, bits w1 63 32, w1.testBit 16, bits w1 15 0, bits w2 63 48,
    bits w2 47 40, bits w2 39 32, bits w2 31 0, wordAt bs 3, (bs.drop 32).take 32⟩

/-- Directory entry i (Table 2.3). -/
def dirEntry (bs : List Byte) (i : Nat) : DirEntry :=
  let e := bs.drop (64 + 48 * i)
  ⟨bits (wnat e 0) 63 48, bits (wnat e 0) 47 40, bits (wnat e 0) 31 0, bits (wnat e 1) 63 32, (e.drop 16).take 32⟩

/-- The directory. -/
def imgDir (bs : List Byte) : List DirEntry := (List.range (imgHeader bs).sections).map (dirEntry bs)

/-- The bytes of a section. -/
def sectionBytes (bs : List Byte) (d : DirEntry) : List Byte := (bs.drop d.offset).take d.length

/-- A FRAGMENT section (Table 2.7). -/
def readFragment (bs : List Byte) : Fragment :=
  let w := wnat bs 0
  ⟨bits w 63 62, bits w 61 60, bits w 59 58, bits w 57 56, bits w 55 55,
    (List.range (bits w 47 32)).map fun i => wordAt bs (i + 1)⟩

/-- PARTITION_MAP entry p (Table 2.6), with its fragment. -/
def readPart (bs : List Byte) (p : Nat) (f : Fragment) : PartDef :=
  let e := bs.drop (32 * p)
  ⟨bits (wnat e 0) 63 48, bits (wnat e 0) 47 43, wnat e 1, bits (wnat e 2) 63 48, bits (wnat e 2) 31 0,
    bits (wnat e 3) 63 48, bits (wnat e 3) 47 32, f⟩

/-- The sections of one type. -/
def sectionsOf (bs : List Byte) (t : Nat) : List DirEntry := (imgDir bs).filter fun d => decide (d.type = t)

/-- The FRAGMENT section of partition p, absent ones empty. -/
def fragmentOf (bs : List Byte) (p : Nat) : Fragment :=
  match (sectionsOf bs 0x10).find? fun d => decide (d.part = p) with
  | some d => readFragment (sectionBytes bs d)
  | none => noFragment

/-- The structure of a full image (Tables 2.5 to 2.9, R65). -/
def readLayout (bs : List Byte) : Layout :=
  let sec t := sectionBytes bs ((sectionsOf bs t).headD ⟨0, 0, 0, 0, []⟩)
  let dev := sec 1
  let w1 := wnat dev 1
  ⟨wordAt dev 0, bits w1 63 62, bits w1 61 58, bits w1 57 56, bits w1 47 32,
    (List.range 16).map (fun p => readPart (sec 2) p (fragmentOf bs p)),
    (List.range 30).map fun d => ((sec 3).getD d 0).toNat⟩

/-! ### Checking an image (R58, R63, R65 to R67) -/

/-- No two of the masks share a bit. -/
def masksDisjoint : List Nat → Bool
  | [] => true
  | m :: ms => ms.all (fun k => decide (m &&& k = 0)) && masksDisjoint ms

/-- No two of the intervals (start, length) overlap. -/
def slicesDisjoint : List (Nat × Nat) → Bool
  | [] => true
  | (b, n) :: rs => rs.all (fun r => decide (n = 0 ∨ r.2 = 0 ∨ b + n ≤ r.1 ∨ r.1 + r.2 ≤ b)) && slicesDisjoint rs

/-- The rules of R58. -/
def resourceOk (l : Layout) : Bool :=
  let ds := l.parts.filter PartDef.defined
  l.parts.all (fun p => decide (p.fn ≤ 16 ∨ (p.fn = 31 ∧ p.quadMask = 0))) &&
  masksDisjoint (ds.map (·.quadMask)) && ds.all (fun p => decide (p.quadMask ≠ 0)) &&
  decide ((dedup (ds.map (·.fn))).length = ds.length) &&
  masksDisjoint (ds.map (·.chanMask)) &&
  (ds.all (fun p => decide (p.chanMask ≠ 0)) || decide (l.sharedMask ≠ 0)) &&
  ds.all (fun p => decide (p.wayMask ≠ 0)) &&
  decide (ds.foldl (fun n p => n + p.maxCtx) 0 ≤ 4096) &&
  ds.all (fun p => decide (p.bulkBase + p.bulkSize ≤ 256)) &&
  slicesDisjoint (ds.map fun p => (p.bulkBase, p.bulkSize))

/-- Fields of a fold entry (Table 2.9). -/
def foldRows (w : Word) : Nat := fld w 63 48
@[inherit_doc foldRows] def foldCols (w : Word) : Nat := fld w 47 32
@[inherit_doc foldRows] def foldPassRows (w : Word) : Nat := fld w 31 24
@[inherit_doc foldRows] def foldPassCols (w : Word) : Nat := fld w 23 16
@[inherit_doc foldRows] def foldOrder (w : Word) : Nat := fld w 15 14

/-- An empty fold entry (R63). -/
def foldEmpty (w : Word) : Bool := decide (foldRows w = 0 ∨ foldCols w = 0)

/-- A fold entry is empty or valid for the geometry, and its pass order is not reserved (R63). -/
def foldOk (gang : Nat) (w : Word) : Bool :=
  decide (foldOrder w ≠ 3) && (foldEmpty w ||
    decide (foldPassRows w ≠ 0 ∧ foldPassCols w ≠ 0 ∧
      (foldPassRows w - 1) * gangRows gang < foldRows w ∧ foldRows w ≤ foldPassRows w * gangRows gang ∧
      (foldPassCols w - 1) * gangCols gang < foldCols w ∧ foldCols w ≤ foldPassCols w * gangCols gang))

/-- The rules of R63 and Table 2.7 for one fragment, its fold_count of at most 256 among them (log entry 81). -/
def fragmentOk (f : Fragment) : Bool :=
  decide (f.gang ≠ 3 ∧ f.span ≠ 3 ∧ f.folds.length ≤ 256) && f.folds.all (foldOk f.gang)

/-- The rules of R65. -/
def powerOk (l : Layout) : Bool :=
  let on d := (l.groups.getD d 0).testBit 7
  let grp q := l.groups.getD (8 + q) 0 % 16
  (List.range 4).all on &&
  (l.parts.filter PartDef.defined).all (fun p =>
    (maskList 16 p.quadMask).all (fun q => on (8 + q) && decide (grp q = grp ((maskList 16 p.quadMask).headD 0)))) &&
  (on 27 || (List.range 8).all fun q => !on (8 + q)) &&
  (on 28 || (List.range 8).all fun q => !on (16 + q))

/-- Layout checks of the FORMAT row: magic, version, kind, alignment, lengths and offsets (R53 to R56). -/
def formatOk (bs : List Byte) (stageLen : Nat) : Bool :=
  let h := imgHeader bs
  decide (h.magic = 0x484F4C4E ∧ h.format = 1 ∧ (h.kind = 1 ∨ h.kind = 2) ∧ h.length % 64 = 0 ∧
    h.length + 7856 = stageLen ∧ stageLen ≤ 0x100000 ∧ 64 + 48 * h.sections ≤ h.length) &&
  (imgDir bs).all fun d =>
    decide (d.offset % 64 = 0 ∧ 64 + 48 * h.sections ≤ d.offset ∧ d.offset + d.length ≤ h.length) &&
    (if d.type = 1 then decide (d.length = 16) else if d.type = 2 then decide (d.length = 512)
     else if d.type = 3 then decide (d.length = 32)
     else if d.type = 0x10 then decide (8 ≤ d.length) &&
       decide (d.length = 8 + 8 * bits (wnat (sectionBytes bs d) 0) 47 32)
     else true)

/-- The section set of R56: one DEVICE, PARTITION_MAP and POWER_GROUPS and a FRAGMENT for each defined partition, or
one FRAGMENT for a defined partition of the structure in force. -/
def scopeOk (bs : List Byte) (cur : Layout) : Bool :=
  let h := imgHeader bs
  let frs := (sectionsOf bs 0x10).map (·.part)
  (imgDir bs).all (fun d => [1, 2, 3, 0x10].contains d.type) &&
  if h.kind = 1 then
    let l := readLayout bs
    decide ((sectionsOf bs 1).length = 1 ∧ (sectionsOf bs 2).length = 1 ∧ (sectionsOf bs 3).length = 1) &&
    (List.range 16).all (fun p => decide (frs.count p = if (l.part p).defined then 1 else 0)) &&
    frs.all (fun p => decide (p < 16))
  else
    decide ((imgDir bs).length = 1 ∧ frs = [h.target]) && (cur.part h.target).defined

/-- Verification of staged bytes: the first failing check of Table 2.10, or 0 (R66, R67). `sigOk` says whether the
signature at image_length verifies; `base` is false where no BASE check is made (R423). Reserved bits and fields that the image's kind
does not use are not looked at (log entry 81). -/
def verifyImage (bs : List Byte) (stageLen : Nat) (serial : Word) (floor : Nat) (active : List Byte) (cur : Layout)
    (sigOk base : Bool) : Nat :=
  let h := imgHeader bs
  if !formatOk bs stageLen then 1
  else if h.part ≠ 0x0101 ∨ !h.steppings.testBit 1 then 2
  else if h.serial ≠ 0 ∧ h.serial ≠ serial then 3
  else if !sigOk then 4
  else if !(imgDir bs).all (fun d => decide (sha256 (sectionBytes bs d) = d.digest)) then 5
  else if h.version < floor then 6
  else if base ∧ h.kind = 2 ∧ h.base ≠ active then 7
  else if !scopeOk bs cur then 8
  else if h.kind = 1 then
    let l := readLayout bs
    if !resourceOk l then 9
    else if l.powerMode = 3 ∨ !((l.parts.filter PartDef.defined).all fun p => fragmentOk p.frag) then 10
    else if !powerOk l then 11
    else 0
  else if !fragmentOk (fragmentOf bs h.target) then 10
  else 0

/-- The contents of verified bytes. -/
def readImage (bs : List Byte) : Image :=
  let h := imgHeader bs
  ⟨h, if h.kind = 1 then some (readLayout bs) else none,
    if h.kind = 1 then none else some (fragmentOf bs h.target), sha256 (bs.take h.length)⟩

/-- The signature bytes of an image (R53). -/
def imgSignature (bs : List Byte) : List Byte := (bs.drop (imgHeader bs).length).take 7856

end Sys2Proof.Machine
end

