-- ==== Sys2Proof/Machine/State.lean ====
section
/-!
DEFINITION. The state of the part as plain data. Every register of BAR0 has its one home in `State.regs` (Word 64 at its
offset; an unlisted offset holds its reset value); the in-force value of RWT fields is in `State.eff`. What the spec
gives the part besides registers is in the typed components. `pending` is the queue of commands waiting.
-/
namespace Sys2Proof.Machine

/-- Why the part stops. -/
inductive Fault where
  /-- The input stands above 72 V: outside the absolute maximum rating, "behaviour not specified" (Table 15.1). Raised
  by INPUT_SAMPLE. Safe: nothing is claimed of the part after it. -/
  | aboveAbsoluteMaximum
  deriving DecidableEq, Repr

/-- Why a command has no meaning in the model. -/
inductive Refusal where
  /-- A command not modelled, by its mnemonic. Raised by no meaning; kept for arms not reached. Safe. -/
  | notModelled (mnemonic : String)
  deriving DecidableEq, Repr

/-- What a meaning answers. -/
abbrev Out (σ : Type) := Host.Outcome σ Fault Refusal

/-! ### PCIe functions and what leaves the part -/

/-- The identity of a function in its configuration space (Table 18.1). -/
structure FnIdent where
  vendor : Nat
  device : Nat
  revision : Nat
  classCode : Nat
  subVendor : Nat
  subId : Nat
  deriving DecidableEq, Repr

/-- Configuration space of one function (R432 to R435). -/
structure FnCfg where
  ident : FnIdent
  /-- Memory Space Enable. -/
  memEnable : Bool
  /-- log2 of the BAR4 size in bytes, 28 to 39 (R434). -/
  bar4Log : Nat
  /-- MSI-X Enable and Function Mask (R435). -/
  msixEnable : Bool
  msixMask : Bool
  /-- Power state D3hot (Table 18.2). -/
  d3hot : Bool
  /-- SR-IOV VF Enable and NumVFs (physical function only). -/
  vfEnable : Bool
  numVfs : Nat
  /-- Other writable capability fields, by configuration offset, as last written. -/
  other : List (Nat × Nat)
  deriving DecidableEq, Repr

/-- One MSI-X table entry with its PBA bit (R435). -/
structure MsixEntry where
  addr : Nat
  data : Nat
  mask : Bool
  pend : Bool
  deriving DecidableEq, Repr

/-- The latest answer to a read or a management request. -/
inductive Resp where
  | none
  /-- Data of a register or BAR4 read. -/
  | data (bs : List Byte)
  | unsupportedRequest
  | completerAbort
  /-- A PLDM response: completion code and body. -/
  | pldm (cc : Nat) (body : List Nat)
  /-- An MCTP control response: completion code and body. -/
  | mctp (cc : Nat) (body : List Nat)
  /-- An SPDM response message. -/
  | spdm (msg : List Byte)
  /-- An SPDM ERROR with its code. -/
  | spdmError (code : Nat)
  deriving DecidableEq, Repr

/-- What AER logs (R276, R294, R436). -/
inductive AerEvent where
  | unsupportedRequest (fn addr : Nat)
  | uncorrectableInternal (fn addr : Nat)
  deriving DecidableEq, Repr

/-- Outputs of the part: the latest response, MSI-X messages sent (function, vector), posted writes to host memory,
AER events, ALERT#, fabric messages sent (port, message). -/
structure Output where
  resp : Resp
  msi : List (Nat × Nat)
  hostMem : List (Nat × Byte)
  aer : List AerEvent
  alert : Bool
  sent : List (Nat × FabMsg)
  deriving DecidableEq, Repr

/-! ### Device, Hollon block, tick -/

/-- Device-level state beside GLB_STATE. -/
structure Dev where
  /-- The last entry into STANDBY was by a BMC power-off (R381). -/
  bmcOff : Bool
  /-- A BMC power-on waits for 40 V (R381). -/
  onWaiting : Bool
  /-- Latest accepted GLB_STATE_REQ target (4 or 6), judged again at the next edge (R4). -/
  stateReq : Option Nat
  /-- SLOT_ID read when PD00 powered (R444). -/
  slotId : Nat
  /-- PCIe link up, with speed in GT/s and width (R433). -/
  linkUp : Bool
  linkSpeed : Nat
  linkWidth : Nat
  /-- This boot was requested to end in SAFE (R409). -/
  safeBoot : Bool
  /-- The firmware runs (between acceptance and the next STANDBY). -/
  fwRunning : Bool
  /-- Units that failed training: cores, vaults, bulk channels, ports, awl engines (R76, R280). -/
  badCores : Nat
  badVaults : Nat
  badPorts : Nat
  deriving DecidableEq, Repr

/-- The Hollon block beside its registers (R68 to R75). -/
structure Hol where
  /-- Staging window, sparse over zero. -/
  window : List (Nat × Byte)
  /-- The committed structure in force. -/
  cur : Layout
  /-- The structure in force is a verified image, not the built-in one (R4, R75). -/
  verified : Bool
  /-- A committed full image or fragment awaiting its edge (R69, R72). -/
  pendFull : Option Image
  pendFrag : Option Image
  /-- Edges left before a fragment commit is abandoned (R72). -/
  drainLeft : Nat
  /-- The edge after the fragment's COMMIT has passed: the partition opens no context (R72). -/
  draining : Bool
  /-- DRAIN_TICKS edges have passed with a context open (R72). -/
  expired : Bool
  /-- STORE under way: slot and bytes (R74). -/
  storing : Option (Nat × List Byte × Bool)
  deriving DecidableEq, Repr

/-- The tick unit beside its registers. -/
structure Tick where
  /-- Edges occur (R71). -/
  running : Bool
  /-- Time from the opening edge to the last completion of this interval whose time is given, 10 ns units: of any LC command (Table
  1.6); of the LC commands, and of all commands, that were admitted in the interval (Table 1.2). -/
  busyEnd : Nat
  lcEnd : Nat
  allEnd : Nat
  /-- A completion of that kind came after it, whose time no row gives (log entry 66). -/
  busyOpen : Bool
  lcOpen : Bool
  allOpen : Bool
  /-- Cores granted to LC and to BE for the interval (R362). -/
  lcCores : Nat
  beCores : Nat
  /-- Last ring served, by 2 × partition + class (R99). -/
  turns : List (Nat × Nat)
  /-- Discards of closed streams due at the next edge (R82): context, state handle, KV handle. -/
  discards : List (Nat × Nat × Nat)
  /-- Tallies of the interval for its telemetry record, by the keys of `Tel` (R426). -/
  tel : List (Nat × Nat)
  /-- Contexts closed in the interval: context, core time charged to it, a command deferred (Table 1.9). -/
  gone : List (Nat × Nat × Bool)
  deriving DecidableEq, Repr

/-! ### Contexts, rings and commands in flight -/

/-- A completion record waiting for its return ring (R103, R104): header words 0 to 6 and the payload. -/
structure Record where
  entry : Nat
  words : List Word
  payload : List Byte
  /-- Signal MSI-X when written (irq of the header). -/
  irq : Bool
  /-- Context to tear down after the record is written (R107), with the cause. -/
  tear : Option Nat
  deriving DecidableEq, Repr

/-- One context beside its registers. -/
structure Ctx where
  /-- CTX_STAT.STATE, CAUSE and RESTORE_PARKED (Table 14.16). -/
  state : Nat
  cause : Nat
  restoreParked : Nat
  /-- CTX_CFG.PARTITION and FUNCTION (Table 14.14). -/
  part : Nat
  fn : Nat
  /-- First ring and number of rings, as OPEN gave them (R358). -/
  first : Nat
  count : Nat
  /-- Core time charged in the current interval, 10 ns units (R45). -/
  used : Nat
  /-- A command was deferred by the budget in this interval. -/
  deferred : Bool
  /-- Intervals in a row without core time charged (R362). -/
  idle : Nat
  /-- CLOSE under way (R360); SAVE under way with DISCARD. -/
  closing : Bool
  saving : Option Bool
  /-- Completion records waiting, oldest first. -/
  recs : List Record
  /-- Records written since the last MSI-X signal (R102). -/
  unsignalled : Nat
  deriving DecidableEq, Repr

/-- A fetched packet: header words and payload (R86). -/
structure Packet where
  hdr : List Word
  payload : List Byte
  /-- Free-running ring index of its header entry. -/
  index : Nat
  deriving DecidableEq, Repr

/-- A stream (R25): its state and KV handles, chain and depth. -/
structure Stream where
  sh : Nat
  kh : Nat
  chain : Nat
  depth : Nat
  deriving DecidableEq, Repr

/-- One command ring (Table 3.2). -/
structure Ring where
  /-- The context it was opened for. -/
  owner : Nat
  /-- 0 CLOSED, 1 HELD, 2 FETCHING, 3 WAITING, 4 PARKED, 5 CLOSING. -/
  state : Nat
  /-- Free-running head and tail indexes (R84). -/
  head : Nat
  tail : Nat
  /-- Descriptor words 0 to 2 as read at OPEN. -/
  w0 : Word
  w1 : Word
  w2 : Word
  /-- Virtual address of the descriptor. -/
  descVa : Nat
  /-- The packet fetched and not yet admitted. -/
  fetched : Option Packet
  /-- The fetcher found that the packet at the head cannot be fetched: 0 nothing found, 1 a compute command of a parked stream (R38),
  2 a packet the tail does not cover (R84, R86). -/
  stall : Nat
  /-- The ring's stream is parked: it reads PARKED, or WAITING while a WAIT of it is unsatisfied (R38, R91; log entry 67). -/
  parked : Bool
  /-- The stream of this ring while it is live (R26). -/
  stream : Option Stream
  /-- A PARK or RESUME reached and waiting for an edge, or its transfer under way (R37, R40). -/
  transfer : Bool
  /-- Closed by a CLOSE, which discards the live stream (R82). -/
  discardDue : Bool
  deriving DecidableEq, Repr

/-- One claimed work item on an array (R151). -/
structure Claim where
  array : Nat
  item : Nat
  deriving DecidableEq, Repr

/-- A welt packet on its way (R162 to R164, R205, Table 5.7): the array that sends it, the one that receives it on this hop, the one
it is for, edge, tile, first row and column, payload, failed checks so far, and whether it is sent or waits for a credit. -/
structure WeltPacket where
  src : Nat
  dst : Nat
  final : Nat
  seq : Nat
  /-- Stage that produced the data. -/
  stage : Nat
  edge : Nat
  tile : Nat
  row : Nat
  col : Nat
  bytes : List Byte
  fails : Nat
  sent : Bool
  deriving DecidableEq, Repr

/-- Where data of a stage is held (R159, R163, R167): a core's spill region, its halo area, its activation area, or the context's spill
area in the near tier. -/
inductive Place where
  | region
  | halo
  | activation
  | area
  deriving DecidableEq, Repr

/-- What is held there: a slice partial, a reduction buffer, hand-over data, gate values, a state shadow, a seam, a halo, a block of
ring attention that waits, the completion bitmap, the destination of a COLLECTIVE (R347). -/
inductive Held where
  | part
  | red
  | handover
  | gates
  | shadow
  | seam
  | halo
  | block
  | bitmap
  | staging
  deriving DecidableEq, Repr

/-- Space a command holds on behalf of a core: what for, its key (an item, a tile, a stage, an entry and chunk), bytes. -/
structure Space where
  core : Nat
  place : Place
  kind : Held
  key : Nat
  bytes : Nat
  deriving DecidableEq, Repr

/-- Weight bytes a core of the north edge has fed in this stage, and whether they came from a retained range (R170). -/
structure Feed where
  core : Nat
  va : Nat
  len : Nat
  fmt : Nat
  packed : Bool
  hit : Bool
  deriving DecidableEq, Repr

/-- Gate values of one position of an entry, from a projected column on (R202). -/
structure GateRow where
  entry : Nat
  pos : Nat
  col : Nat
  vals : List Nat
  deriving DecidableEq, Repr

/-- FP32 scores of one query row of a group over the keys of a page that it sees (R231). -/
structure ScoreRow where
  grp : Nat
  page : Nat
  row : Nat
  vals : List Nat
  deriving DecidableEq, Repr

/-- One pointer-list entry as read at the start of the stage (Table 5.3). -/
structure PtrEntry where
  x : Nat
  w : Nat
  y : Nat
  len : Nat
  lenEn : Bool
  deriving DecidableEq, Repr

/-- A slice partial or a reduction buffer (R156): item or tile number, A64 values row-major, products clamped and
underflowed. -/
structure Partial where
  key : Nat
  vals : List Int
  sat : Nat
  under : Nat
  deriving DecidableEq, Repr

/-- Statistics of one entry (Table 4.8): maxima as FP32 codes, counts. -/
structure StatAcc where
  maxX : Nat
  maxW : Nat
  maxY : Nat
  satP : Nat
  underP : Nat
  satO : Nat
  underO : Nat
  deriving DecidableEq, Repr

/-- A state in motion: the shadow of an entry, or a seam after a chunk (R200, R202): v, a_s, cnt, pos. -/
structure Carry where
  v : List Int
  a : Int
  cnt : Nat
  pos : Nat
  deriving DecidableEq, Repr

/-- The seam after a chunk of an entry, and whether it has reached the array of the next chunk (R205). -/
structure Seam where
  entry : Nat
  chunk : Nat
  carry : Carry
  arrived : Bool
  deriving DecidableEq, Repr

/-- A candidate of argmax or CATEGORICAL: entry, position, exact score, index (R244, R261). -/
structure Cand where
  entry : Nat
  pos : Nat
  num : Int
  den : Nat
  idx : Nat
  deriving DecidableEq, Repr

/-- A parameter group record as read at the stage's start, with what its passes have formed (R264, R267): 16 words, largest |g| (num,
den), row and column sums; and η and λ, fixed for the stage, as FP32 codes (R265). -/
structure GroupRun where
  words : List Word
  maxNum : Int
  maxDen : Nat
  rowSums : List Int
  colSums : List Int
  eta : Nat
  lam : Nat
  deriving DecidableEq, Repr

/-- Operands the data mover has fetched ahead on an array: the command, the stage, the item expected, the bytes, and whether the item
has been claimed (R172). -/
structure Prefetched where
  array : Nat
  id : Nat
  stage : Nat
  item : Nat
  va : Nat
  len : Nat
  used : Bool
  deriving DecidableEq, Repr

/-- Progress of the current stage of a compute command (chapters 4 to 10). -/
structure StageRun where
  started : Bool
  startTick : Nat
  /-- Arrays fixed at the start, P of them (R363). -/
  arrays : List Nat
  /-- Items of the stage, W (R142). -/
  items : Nat
  /-- Anchor of each entry (R124), pointer list (R147), auxiliary block (R137). -/
  anchors : List Int
  ptrs : List PtrEntry
  aux : List Word
  /-- Items claimed so far through the counters, one counter per home cell (R151). -/
  counters : List Nat
  /-- Items to be claimed again, and the items claimed now (R151 to R153). -/
  reissue : List Nat
  claims : List Claim
  /-- Items finished, with the array that finished each (R154). -/
  done : List Claim
  /-- Slice partials sent and not yet added; items whose add bit is set; reduction buffers by tile (R156). -/
  parts : List Partial
  adds : List Nat
  red : List Partial
  /-- Blocks whose commit bit is set, tile × passes + pass (R154). -/
  commits : List Nat
  /-- Statistics of each entry (R137). -/
  stats : List StatAcc
  /-- Output handed over or returned, in its memory layout (R95). -/
  outBuf : List Byte
  /-- SCAN: sweeps run as (entry, chunk, 0 prefix or whole, 1 suffix), and the seams (R202 to R206). -/
  sweeps : List (Nat × Nat × Nat)
  seams : List Seam
  /-- Gate values not yet applied (R202), scores held (R231), and weight bytes fed (R170). -/
  gates : List GateRow
  scores : List ScoreRow
  feeds : List Feed
  /-- SCAN: largest |v[e]| × u_s of the sweeps of a core, FP32 code, counted when the stage commits (Table 7.12). -/
  peaks : List (Nat × Nat)
  /-- Candidates (R244, R261), parameter groups (R264), welt packets on their way (R162). -/
  cands : List Cand
  groups : List GroupRun
  welt : List WeltPacket
  /-- Ring-attention blocks used: (kind, origin, page) (R232). -/
  blocks : List (Nat × Nat × Nat)
  /-- Handles for which this stage has taken a slot not yet committed (R199). -/
  acq : List Nat
  deriving DecidableEq, Repr

/-- A stage that has not started. -/
def StageRun.idle : StageRun :=
  ⟨false, 0, [], 0, [], [], [], [], [], [], [], [], [], [], [], [], [], [], [], [], [], [], [], [], [], [], [], []⟩

/-- A command in the in-flight table (R98). -/
structure Entry where
  id : Nat
  ctx : Nat
  ring : Nat
  part : Nat
  pkt : Packet
  lc : Bool
  admitTick : Nat
  /-- Held for an unavailable unit since this tick (R24, R98); started commands are held without limit (R376). -/
  held : Option Nat
  /-- Work has begun (R376). -/
  begun : Bool
  /-- The current stage and its progress. -/
  stage : Nat
  run : StageRun
  /-- Output of the stage before, for in_src previous (R95). -/
  handover : List Byte
  /-- Pointer list of the stage before (R165). -/
  srcPtrs : List PtrEntry
  /-- Space its data holds (R159). -/
  space : List Space
  /-- Return payload gathered so far (R95). -/
  ret : List Byte
  /-- Underflow and saturation flags, spills and core time of the record (Table 3.12). -/
  under : Bool
  sat : Bool
  spills : Nat
  core : Nat
  /-- What admission takes for the command has been taken: seed and step0, and the pages of its reservation (R219, R257, R450). -/
  seeded : Bool
  paged : Bool
  /-- Seed and step0 as read at admission (R257). -/
  seed : Nat
  step0 : Nat
  /-- Edges still to pass (TICK_FENCE, R92). -/
  edges : Nat
  /-- Opcode-specific count: children created, elements dropped (Table 3.12 detail_a). -/
  detail : Nat
  /-- Collective progress: (sender, first element) blocks received (R347). -/
  recvd : List (Nat × Nat)
  /-- Staged contributions and sums of a collective. -/
  stagedVals : List (Nat × List Int)
  stagedRaw : List (Nat × List Byte)
  /-- The work is complete and its record is queued or written (R103). -/
  done : Bool
  deriving DecidableEq, Repr

/-- One resident-state slot (R35, R62, R199). -/
structure Slot where
  ctx : Nat
  handle : Nat
  core : Nat
  /-- First 256-value unit of the core and number of units. -/
  unit : Nat
  units : Nat
  /-- 0 state, 1 snapshot, 2 reserved by FORK for a child. -/
  kind : Nat
  /-- Number of values. -/
  d : Nat
  /-- The A64 values in element order. -/
  vals : List Int
  /-- For a snapshot: the state handles that reference it. -/
  refs : List Nat
  deriving DecidableEq, Repr

/-! ### Memory -/

/-- A line of the memory-side cache (R286 to R288): line number B / 512, way, dirty, and, of a dirty line, an error its code
cannot correct. Most recently used first. -/
structure CacheLine where
  line : Nat
  way : Nat
  dirty : Bool
  bad : Bool
  /-- First addresses of the units its fill read with an error: the line returns them with it (R287, R293). -/
  errs : List Nat
  /-- Bytes of class N that the bulk tier's cells took under the line, seen once it has gone clean (R287, R290). -/
  under : List (Nat × Byte)
  deriving DecidableEq, Repr

/-- Kind of a stored error (R292, R293). -/
inductive UnitError where
  /-- One symbol: corrected on read (class C). -/
  | correctable
  /-- Not correctable (class C) or detected (class D). -/
  | bad
  deriving DecidableEq, Repr

/-- A BAR4 access that waits for a frame being cleared (R289): the function, the address, and the bytes of a write or the length of a
read. -/
structure BarWait where
  fn : Nat
  addr : Nat
  len : Nat
  write : Option (List Byte)
  deriving DecidableEq, Repr

/-- Device memory. -/
structure Mem where
  /-- Bytes of both tiers by physical address; an unlisted byte reads zero (R275). -/
  cells : List (Nat × Byte)
  /-- Units in error by their first address. -/
  errs : List (Nat × UnitError)
  /-- Frames (2 MiB numbers) being cleared for a class change (R289). -/
  clearing : List Nat
  /-- The memory-side cache (R286). -/
  cache : List CacheLine
  /-- 512 B accesses per 2 MiB frame, saturating (R301). -/
  counts : List (Nat × Nat)
  /-- Where each auto leaf's entry lies: frame, (context, entry address, virtual address) (R301). -/
  leaves : List (Nat × Nat × Nat × Nat)
  /-- Corrected errors per DRAM row in the rolling 24 h (R306): row key (controller above bit 48), count. -/
  rowErrs : List (Nat × Nat)
  /-- BAR4 accesses to frames being cleared, oldest first (R289). -/
  waiting : List BarWait
  deriving DecidableEq, Repr

/-- A move of the migration engine or of MIGRATE (R300 to R302): partition, virtual page, context, source frame address,
target tier, target frame once taken, the entry address and value read, owning MIGRATE entry. -/
structure Move where
  part : Nat
  ctx : Nat
  va : Nat
  entryPa : Nat
  entryVal : Nat
  src : Nat
  toBulk : Bool
  target : Option Nat
  cmd : Option Nat
  deriving DecidableEq, Repr

/-- The migration engine. -/
structure Mig where
  queue : List Move
  /-- Ticks since the last epoch end of each partition. -/
  epoch : List Nat
  /-- MIG_INVALs not completed: (context, all, vpn, count). -/
  inval : List (Nat × Bool × Nat × Nat)
  deriving DecidableEq, Repr

/-- A retained weight range of a core (R168, R170). -/
structure Retained where
  core : Nat
  ctx : Nat
  va : Nat
  len : Nat
  fmt : Nat
  packed : Bool
  deriving DecidableEq, Repr

/-- A staged row set of one plane in an eyelet slot (R213 to R216), with its slot number. -/
structure EyeSlot where
  num : Nat
  ctx : Nat
  part : Nat
  list : Nat
  plane : Nat
  /-- First position staged, and the staged key and value rows, oldest first. -/
  pos : Nat
  rows : List (List Byte)
  /-- The reserved page kept while the target page is empty or shared (R219). -/
  page : Option Nat
  /-- Its storage has an error its code cannot correct (R219). -/
  bad : Bool
  deriving DecidableEq, Repr

/-- The KV unit beside its registers. -/
structure Kv where
  /-- Eyelet slots in use, least recently appended first. -/
  slots : List EyeSlot
  /-- Pages reserved at admission: entry id, context, pages (R219). -/
  reserved : List (Nat × Nat × List Nat)
  /-- Free list of each context's pool, and the records it covers: (context, pool size, free pages in order) (R211). -/
  pools : List (Nat × Nat × List Nat)
  /-- Ring-attention blocks received before their stage uses them (R232). -/
  blocks : List FabMsg
  /-- ring_seq values whose stage failed at the hold limit: later blocks are discarded (R233). -/
  dead : List Nat
  deriving DecidableEq, Repr

/-! ### Power and thermal -/

/-- Limits the safety loops set on a quad group: steps 0 to 15 (15: no limit), activity ceilings 1 to 16 (16: none). -/
structure GroupLoop where
  power : Nat
  junction : Nat
  dram : Nat
  input : Nat
  actPower : Nat
  actJunction : Nat
  actInput : Nat
  /-- The ramp's own ceiling (R390). -/
  actRamp : Nat
  /-- 10 µs samples at or above JL; at 110 °C; 3 °C or more below JL (R392). -/
  hotSamples : Nat
  tripSamples : Nat
  coolSamples : Nat
  /-- 1 ms samples 3 °C or more below DL (R393). -/
  dramCool : Nat
  /-- Clock at the droop frequency (R391). -/
  drooped : Bool
  /-- Step the rail and clock have reached (R387). -/
  atStep : Nat
  deriving DecidableEq, Repr

/-- The power and thermal controller beside its registers. -/
structure Pwr where
  /-- Effective state of the domains, and those whose power-up is complete (R374, R383). -/
  on : Nat
  ready : Nat
  /-- 1 µs samples: at 40 V or more; in 36 to 40 V; at 41 V or more; in 60 to 72 V (R378 to R380). -/
  us40 : Nat
  usRide : Nat
  us41 : Nat
  usOv : Nat
  /-- The hold-up storage is charged (R380). -/
  holdUp : Bool
  /-- Latest sampled input voltage, 10 mV. -/
  volts : Nat
  /-- 1 µs samples of the present excursion (R389). -/
  usExc : Nat
  /-- Excursion length at which the next forced step is due. -/
  excAt : Nat
  /-- Latest 100 ms average, 0.1 W. -/
  avg : Nat
  /-- The edge that ends ride-through has come (R379). -/
  rideEdge : Bool
  /-- Limits the loops set on each quad group. -/
  groups : List GroupLoop
  /-- Refresh: 1 ms samples 3 °C or more below the window's threshold, per vault (R281). -/
  winCool : List Nat
  /-- Access-slot limit in percent per vault and per package (R393). -/
  vaultLimit : List Nat
  pkgLimit : List Nat
  /-- 1 ms samples 3 °C or more below 95 °C, per vault and per package. -/
  vaultCool : List Nat
  pkgCool : List Nat
  /-- Override records of the interval (Table 17.8): group, loop code, step, floor. -/
  overrides : List (Nat × Nat × Nat × Nat)
  /-- Latest vault and package temperatures, °C. -/
  vaultTemp : List Int
  pkgTemp : List Int
  deriving DecidableEq, Repr

/-! ### Security and management -/

/-- The boot record (Table 16.2). -/
structure BootRecord where
  preferred : Nat
  trial : Bool
  trialUsed : Bool
  fails : Nat
  floor : Nat
  holSlot : Option Nat
  deriving DecidableEq, Repr

/-- One SPDM connection (R414, R415). -/
structure SpdmConn where
  /-- 0 none, 1 version, 2 capabilities, 3 algorithms negotiated. -/
  stage : Nat
  transcript : List Byte
  measTranscript : List Byte
  /-- A large request being received: handle, next sequence, bytes. -/
  chunkIn : Option (Nat × Nat × List Byte)
  /-- A large response being fetched: handle, bytes. -/
  chunkOut : Option (Nat × List Byte)
  deriving DecidableEq, Repr

/-- The security engine beside its registers. -/
structure Sec where
  /-- Fuses (Table 16.1): UDS and whether it is locked, firmware keys, the Hollon key, REVOKE, the rollback count. -/
  uds : List Byte
  udsLocked : Bool
  fwKeys : List (List Byte)
  holKey : List Byte
  revoke : Nat
  rollback : Nat
  /-- The fuse reading of this boot (R399). -/
  bootRevoke : Nat
  bootRollback : Nat
  /-- Flash (Table 16.2): firmware slots, Hollon slots, the boot record. -/
  fwSlots : List (List Byte)
  holSlots : List (List Byte)
  boot : BootRecord
  /-- Owner key stored, and the one in force this boot (R405, R406). -/
  ownerStored : Option (List Byte)
  ownerInForce : Option (List Byte)
  /-- HOL_VERSION_FLOOR for the next boot after an enrolment or clear. -/
  floorNext : Option Nat
  /-- The certificate area, when a copy verifies (R413). -/
  certArea : Option (List Byte)
  /-- Alias key seeds and alias certificate of this boot (R411, R412). -/
  aliasSeeds : List Byte
  aliasCert : List Byte
  /-- Firmware slot that runs. -/
  runSlot : Nat
  /-- Flash Hollon slot that booted (R74). -/
  bootedHol : Option Nat
  /-- SEC_CMD under way: operation and argument. -/
  op : Option (Nat × Nat)
  /-- Connections: 0 SMBus, 1 PCIe VDM. -/
  conns : List SpdmConn
  deriving DecidableEq, Repr

/-- A platform event waiting for acknowledgement (R421): class, data. -/
structure Event where
  /-- Number, class and data. -/
  id : Nat
  kind : Nat
  data : Nat
  deriving DecidableEq, Repr

/-- One entry of the SRAM error log (Table 17.4), at its window index. -/
structure LogEntry where
  slot : Nat
  w0 : Word
  w1 : Word
  w2 : Word
  w3 : Word
  deriving DecidableEq, Repr

/-- The management controller beside its registers. -/
structure Mgt where
  /-- The SRAM error log, oldest entry first, at most 1,024 (R424). -/
  log : List LogEntry
  /-- Event receiver set, and the queue of unacknowledged events. -/
  receiver : Option Nat
  events : List Event
  nextEvent : Nat
  /-- Log: severity-2 entries unwritten; snapshots (newest first); write in progress. -/
  unwritten : Bool
  snapshots : List (List LogEntry)
  writing : Bool
  /-- Firmware update: agent (binding), component under way, bytes, written slot that may be activated. -/
  updater : Option Nat
  component : Option Nat
  received : List Byte
  activatable : Option Nat
  /-- Erase counts of the log region's blocks; their number, 32, is the model's (R429; log entry 4). -/
  erases : List Nat
  /-- Rail trims of the sixteen groups, kept in flash (R430). -/
  trims : List Nat
  deriving DecidableEq, Repr

/-! ### Fabric -/

/-- What the part knows of one port (R313 to R321). -/
structure Port where
  /-- Next sequence number to send and the one expected; packets unacknowledged, oldest first (R315). -/
  txSeq : Nat
  rxSeq : Nat
  replay : List (Nat × FabMsg)
  /-- Consecutive replays of one packet. -/
  replays : Nat
  /-- Link delay measured by TIME, 10 ns units (R332). -/
  delay : Nat
  /-- A HELLO has been received since the link came UP. -/
  partnerSeen : Bool
  deriving DecidableEq, Repr

/-- A member as the manager knows it (R324, R331): ID, µs since last heard, eligible, READY of the interval received. -/
structure Member where
  id : Nat
  silent : Nat
  eligible : Bool
  ready : Bool
  deriving DecidableEq, Repr

/-- A scheduled edge of the tick group (Table 12.5), edge_time in 10 ns units of domain time. -/
structure Sched where
  tick : Nat
  edgeTime : Nat
  step : Nat
  stepValid : Bool
  tck : Word
  epoch : Nat
  standby : Nat
  standbyValid : Bool
  /-- As manager: scheduled at the latest time with READYs missing (R330). -/
  forced : Bool
  deriving DecidableEq, Repr

/-- The fabric unit beside its registers. -/
structure Fab where
  ports : List Port
  /-- Other devices of the domain learnt from HELLO: (ID, serial, eligible) (R321). -/
  known : List (Nat × Word × Bool)
  /-- Lowest eligible ID heard in the election running (R326). -/
  best : Option Nat
  /-- Members of the tick group, this device included (R323 to R328). -/
  members : List Member
  /-- Membership changes announced: (edge at which they apply, ID, joins) (R325). -/
  changes : List (Nat × Nat × Bool)
  /-- The edge the manager or CLASP has scheduled and not yet applied. -/
  sched : Option Sched
  /-- Domain time as last heard, 10 ns units (R332). -/
  domainTime : Nat
  /-- Domain time of the latest edge, 10 ns units. -/
  edgeAt : Nat
  /-- READY has been sent for the interval (R331). -/
  readySent : Bool
  /-- As fabric root: managers of the other domains, and whether their READY of the interval has come (R333). -/
  domains : List (Nat × Bool)
  /-- A CLASP for an edge already applied under holdover, for its tck, step and epoch (R332). -/
  late : Option Sched
  /-- As a domain manager that follows the root: the root's latest CLASP (R333). -/
  rootSched : Option Sched
  /-- Steps reported by FLOCK_DROP with their age in ms (R396). -/
  drops : List (Nat × Nat)
  /-- Messages held by fault injection: rule, port, message (R335). -/
  held : List (Nat × Nat × FabMsg)
  /-- Matches seen by each rule since ARM. -/
  seen : List Nat
  /-- Receive store: messages of a coll_seq no admitted COLLECTIVE matches yet (R347). -/
  store : List FabMsg
  /-- (KEY, coll_seq) of collectives that failed: later messages are discarded (R348). -/
  dead : List (Nat × Nat)
  /-- Messages sent, by 4 × destination + VC; broadcasts at 4 × 65,536 (R317). -/
  mseq : List (Nat × Nat)
  /-- Member lists of the groups, read when VALID was set (R338). -/
  groups : List (Nat × List Nat)
  deriving DecidableEq, Repr

/-- The whole state. -/
structure State where
  /-- Commands waiting, first in first out (the model's own). -/
  pending : List Instr
  regs : List (Nat × Word)
  eff : List (Nat × Word)
  dev : Dev
  fns : List FnCfg
  msix : List (Nat × MsixEntry)
  hol : Hol
  tick : Tick
  ctxs : List (Nat × Ctx)
  rings : List (Nat × Ring)
  flight : List Entry
  /-- Next in-flight entry number (the model's own). -/
  nextId : Nat
  slots : List Slot
  /-- Parked images held by reference: (context, child handle, handle whose image it is) (R30). -/
  images : List (Nat × Nat × Nat)
  mem : Mem
  mig : Mig
  retained : List Retained
  prefetched : List Prefetched
  kv : Kv
  pwr : Pwr
  sec : Sec
  mgt : Mgt
  fab : Fab
  out : Output
  /-- Free values drawn so far (the model's own): the index of the next one. -/
  free : Nat
  deriving DecidableEq, Repr

/-! ### Setting one component -/

/-- The state with one component replaced. -/
def State.putPending (s : State) (x : List Instr) : State := { s with pending := x }
@[inherit_doc State.putPending] def State.putRegs (s : State) (x : List (Nat × Word)) : State := { s with regs := x }
@[inherit_doc State.putPending] def State.putEff (s : State) (x : List (Nat × Word)) : State := { s with eff := x }
@[inherit_doc State.putPending] def State.putDev (s : State) (x : Dev) : State := { s with dev := x }
@[inherit_doc State.putPending] def State.putFns (s : State) (x : List FnCfg) : State := { s with fns := x }
@[inherit_doc State.putPending] def State.putMsix (s : State) (x : List (Nat × MsixEntry)) : State := { s with msix := x }
@[inherit_doc State.putPending] def State.putHol (s : State) (x : Hol) : State := { s with hol := x }
@[inherit_doc State.putPending] def State.putTick (s : State) (x : Tick) : State := { s with tick := x }
@[inherit_doc State.putPending] def State.putCtxs (s : State) (x : List (Nat × Ctx)) : State := { s with ctxs := x }
@[inherit_doc State.putPending] def State.putRings (s : State) (x : List (Nat × Ring)) : State := { s with rings := x }
@[inherit_doc State.putPending] def State.putFlight (s : State) (x : List Entry) : State := { s with flight := x }
@[inherit_doc State.putPending] def State.putNextId (s : State) (x : Nat) : State := { s with nextId := x }
@[inherit_doc State.putPending] def State.putSlots (s : State) (x : List Slot) : State := { s with slots := x }
@[inherit_doc State.putPending] def State.putImages (s : State) (x : List (Nat × Nat × Nat)) : State := { s with images := x }
@[inherit_doc State.putPending] def State.putMem (s : State) (x : Mem) : State := { s with mem := x }
@[inherit_doc State.putPending] def State.putMig (s : State) (x : Mig) : State := { s with mig := x }
@[inherit_doc State.putPending] def State.putRetained (s : State) (x : List Retained) : State := { s with retained := x }
@[inherit_doc State.putPending] def State.putPrefetched (s : State) (x : List Prefetched) : State := { s with prefetched := x }
@[inherit_doc State.putPending] def State.putKv (s : State) (x : Kv) : State := { s with kv := x }
@[inherit_doc State.putPending] def State.putPwr (s : State) (x : Pwr) : State := { s with pwr := x }
@[inherit_doc State.putPending] def State.putSec (s : State) (x : Sec) : State := { s with sec := x }
@[inherit_doc State.putPending] def State.putMgt (s : State) (x : Mgt) : State := { s with mgt := x }
@[inherit_doc State.putPending] def State.putFab (s : State) (x : Fab) : State := { s with fab := x }
@[inherit_doc State.putPending] def State.putOut (s : State) (x : Output) : State := { s with out := x }
@[inherit_doc State.putPending] def State.putFree (s : State) (x : Nat) : State := { s with free := x }

/-! ### Reset -/

/-- No structure committed (before the end of the first TRAIN). -/
def noLayout : Layout := ⟨0, 2, 15, 0, 64, List.replicate 16 noPart, List.replicate 30 0⟩

/-- Configuration space of function fn at reset: its identity (Table 18.1), Memory Space off, BAR4 256 MiB (R434), MSI-X off, D0. -/
def FnCfg.reset (fn : Nat) : FnCfg :=
  ⟨⟨0x1F8E, if fn = 0 then 0x0A01 else 0x0A02, 0x11, 0x120000, 0x1F8E, 0x0101⟩, false, 28, false, false, false, false, 0, []⟩

/-- Of every function: the physical one and sixteen virtual ones. -/
def FnCfg.resetAll : List FnCfg := (List.range 17).map FnCfg.reset

/-- A FREE context. -/
def Ctx.free : Ctx := ⟨0, 0, 0, 0, 0, 0, 0, 0, false, 0, false, none, [], 0⟩

/-- A CLOSED ring. -/
def Ring.closed : Ring := ⟨0, 0, 0, 0, 0, 0, 0, 0, none, 0, false, none, false, false⟩

/-- An MSI-X entry at reset: masked. -/
def MsixEntry.reset : MsixEntry := ⟨0, 0, true, false⟩

/-- No loop limits a group; the rail stands at F0. -/
def GroupLoop.none : GroupLoop := ⟨15, 15, 15, 15, 16, 16, 16, 16, 0, 0, 0, 0, false, 0⟩

/-- A DOWN port. -/
def Port.down : Port := ⟨0, 0, [], 0, 0, false⟩

/-- Memory with nothing listed. -/
def Mem.empty : Mem := ⟨[], [], [], [], [], [], [], []⟩

/-- A connection with nothing negotiated. -/
def SpdmConn.none : SpdmConn := ⟨0, [], [], Option.none, Option.none⟩

/-- The part when its registers first become readable: BOOT, coming from STANDBY (Table 0.4), every register at its
reset value, no structure committed, memory empty, no command waiting. Fuses, flash contents and SLOT_ID are the
model's choice (log entry 4). -/
def State.reset : State where
  pending := []
  regs := []
  eff := []
  dev := ⟨false, false, none, 0, false, 0, 0, false, false, 0, 0, 0⟩
  fns := FnCfg.resetAll
  msix := []
  hol := ⟨[], noLayout, false, none, none, 0, false, false, none⟩
  tick := ⟨false, 0, 0, 0, false, false, false, 0, 0, [], [], [], []⟩
  ctxs := []
  rings := []
  flight := []
  nextId := 0
  slots := []
  images := []
  mem := Mem.empty
  mig := ⟨[], List.replicate 16 0, []⟩
  retained := []
  prefetched := []
  kv := ⟨[], [], [], [], []⟩
  pwr := ⟨0xF, 0xF, 0, 0, 0, 0, false, 0, 0, 10000, 0, false,
    List.replicate 16 GroupLoop.none, List.replicate 64 0, List.replicate 64 100, List.replicate 16 100,
    List.replicate 64 0, List.replicate 16 0, [], List.replicate 64 0, List.replicate 16 0⟩
  sec := ⟨List.replicate 32 0, false, [List.replicate 32 0, List.replicate 32 0], List.replicate 32 0, 0, 0, 0, 0,
    [[], []], [[], []], ⟨0, false, false, 0, 0, none⟩, none, none, none, none, [], [], 0, none, none,
    [SpdmConn.none, SpdmConn.none]⟩
  mgt := ⟨[], none, [], 0, false, [], false, none, none, [], none, List.replicate 32 0, List.replicate 16 0⟩
  fab := ⟨List.replicate 12 Port.down, [], none, [], [], none, 0, 0, false, [], none, none, [], [], List.replicate 16 0, [], [], [], []⟩
  out := ⟨.none, [], [], [], false, []⟩
  free := 0

end Sys2Proof.Machine
end

