-- ==== Sys2Proof/Machine/Ops.lean ====
section
/-!
DEFINITION. The named operations over registers, outputs, the error log and memory that every meaning uses: register
fields (R7 to R11), MSI-X (R435), platform events (R421), the error log (R424), availability (R280), physical accesses by
protection class (R289 to R294), the memory-side cache (R286, R287) and translation (R296, R297).
-/
namespace Sys2Proof.Machine

/-! ### Registers -/

/-- The register at a BAR0 offset, as last written or latched. -/
def State.reg (s : State) (off : Nat) : Word := spGet (regReset off) s.regs off

/-- Set a whole register. -/
def State.setReg (s : State) (off : Nat) (w : Word) : State := s.putRegs (spSet (regReset off) s.regs off w)

/-- Field [hi:lo] of a register. -/
def State.fldR (s : State) (off hi lo : Nat) : Nat := fld (s.reg off) hi lo

/-- Set field [hi:lo] of a register. -/
def State.setF (s : State) (off hi lo v : Nat) : State := s.setReg off (setFld (s.reg off) hi lo v)

/-- Add to a counter field that wraps. -/
def State.addF (s : State) (off hi lo n : Nat) : State := s.setF off hi lo (s.fldR off hi lo + n)

/-- Add to a counter field that saturates. -/
def State.satF (s : State) (off hi lo n : Nat) : State := s.setF off hi lo (satAdd (hi + 1 - lo) (s.fldR off hi lo) n)

/-- Raise a field to at least v. -/
def State.maxF (s : State) (off hi lo v : Nat) : State := s.setF off hi lo (max (s.fldR off hi lo) (min v (2 ^ (hi + 1 - lo) - 1)))

/-- The value in force of an RWT register (R9). -/
def State.effReg (s : State) (off : Nat) : Word := spGet (regReset off) s.eff off

/-- Set the value in force. -/
def State.setEff (s : State) (off : Nat) (w : Word) : State := s.putEff (spSet (regReset off) s.eff off w)

/-- Field [hi:lo] of the value in force. -/
def State.effF (s : State) (off hi lo : Nat) : Nat := fld (s.effReg off) hi lo

/-- Set a register and its value in force together (a value the part itself puts in force, R57). -/
def State.setBoth (s : State) (off : Nat) (w : Word) : State := (s.setReg off w).setEff off w

/-- The RWT bits of the register at an offset. -/
def rwtMask (off : Nat) : Word := match findReg off with
  | some (r, _, _) => r.maskAcc .rwt
  | none => 0

/-- A shadow differs from its value in force (R11). -/
def State.shadowed (s : State) (off : Nat) : Bool := decide ((s.reg off ^^^ s.effReg off) &&& rwtMask off ≠ 0)

/-- Some register with lo ≤ offset < hi has an unapplied shadow. -/
def State.pendingIn (s : State) (lo hi : Nat) : Bool :=
  ((s.regs.map (·.1)) ++ (s.eff.map (·.1))).any fun off => decide (lo ≤ off ∧ off < hi) && s.shadowed off

/-- Device state code (Table 0.5). -/
def State.devState (s : State) : Nat := s.fldR Reg.GLB_STATE 2 0

/-- Device states by name (Table 0.5). -/
abbrev stOff : Nat := 0
@[inherit_doc stOff] abbrev stStandby : Nat := 1
@[inherit_doc stOff] abbrev stBoot : Nat := 2
@[inherit_doc stOff] abbrev stTrain : Nat := 3
@[inherit_doc stOff] abbrev stReady : Nat := 4
@[inherit_doc stOff] abbrev stRun : Nat := 5
@[inherit_doc stOff] abbrev stSafe : Nat := 6
@[inherit_doc stOff] abbrev stFault : Nat := 7

/-- READY, RUN or SAFE. -/
def State.live (s : State) : Bool := decide (4 ≤ s.devState ∧ s.devState ≤ 6)

/-- The current tick number. -/
def State.tickNum (s : State) : Nat := s.fldR Reg.TCK_STATUS 63 16

/-- The mode in force of the tick: Free where PERIOD is zero or MODE is 0b10 or 0b11 (R17, R48). -/
def tickMode (w : Word) : Nat := if fld w 58 32 = 0 then 2 else if fld w 60 59 = 3 then 2 else fld w 60 59

/-- PERIOD as applied (R48). -/
def tickPeriod (w : Word) : Nat := if fld w 58 32 = 0 then 0 else clampNat 2000 100000000 (fld w 58 32)

/-- The hold limit in ticks (R24, R57). -/
def State.holdLimit (s : State) : Nat := s.hol.cur.holdLimit

/-! ### Tallies of the interval (R426) -/

/-- Keys of the interval's tallies: of the device, and 16 (p + 1) + k of partition p. -/
abbrev telCorrected : Nat := 0
@[inherit_doc telCorrected] abbrev telUncorrected : Nat := 1
@[inherit_doc telCorrected] abbrev telDetected : Nat := 2
@[inherit_doc telCorrected] abbrev telReplays : Nat := 3
@[inherit_doc telCorrected] abbrev telUnattributed : Nat := 4
@[inherit_doc telCorrected] abbrev telEnergy : Nat := 5
@[inherit_doc telCorrected] abbrev telPowerMax : Nat := 6
@[inherit_doc telCorrected] abbrev telLate : Nat := 0
@[inherit_doc telCorrected] abbrev telCbSpills : Nat := 1
@[inherit_doc telCorrected] abbrev telNtSpills : Nat := 2
@[inherit_doc telCorrected] abbrev telMaxShift : Nat := 3
@[inherit_doc telCorrected] abbrev telMaxAbs : Nat := 4
@[inherit_doc telCorrected] abbrev telGuards : Nat := 5
@[inherit_doc telCorrected] abbrev telForced : Nat := 6
@[inherit_doc telCorrected] abbrev telCopies : Nat := 7
@[inherit_doc telCorrected] abbrev telCompletions : Nat := 8
@[inherit_doc telCorrected] abbrev telFailures : Nat := 9
@[inherit_doc telCorrected] abbrev telPartEnergy : Nat := 10
@[inherit_doc telCorrected] abbrev telCoreTime : Nat := 11
@[inherit_doc telCorrected] abbrev telDeferred : Nat := 12

/-- A tally of the interval. -/
def State.telAt (s : State) (k : Nat) : Nat := spGet 0 s.tick.tel k

/-- Add to a tally, or raise it, while the tick runs. -/
def tally (s : State) (k n : Nat) : State :=
  if !s.tick.running then s else s.putTick { s.tick with tel := spSet 0 s.tick.tel k (s.telAt k + n) }
@[inherit_doc tally] def tallyMax (s : State) (k n : Nat) : State :=
  if !s.tick.running then s else s.putTick { s.tick with tel := spSet 0 s.tick.tel k (max (s.telAt k) n) }

/-- The key of a partition's tally. -/
def telPart (p k : Nat) : Nat := 16 * (p + 1) + k

/-! ### Functions, interrupts, events and the log -/

/-- The configuration of a function. -/
def State.fn (s : State) (n : Nat) : FnCfg := s.fns.getD n (FnCfg.reset n)

/-- A function exists: the physical function, or a virtual function enabled through SR-IOV (R59, R356). -/
def State.fnOn (s : State) (n : Nat) : Bool := decide (n = 0) || ((s.fn 0).vfEnable && decide (n ≤ (s.fn 0).numVfs))

/-- The function of partition p is enabled: its partition can run work (R59). -/
def State.partOn (s : State) (p : Nat) : Bool := s.fnOn (s.hol.cur.part p).fn

/-- Entry v of a function's MSI-X table. -/
def State.msixAt (s : State) (fn v : Nat) : MsixEntry := spGet MsixEntry.reset s.msix (fn * 2048 + v)

/-- Set entry v of a function's MSI-X table. -/
def State.setMsix (s : State) (fn v : Nat) (e : MsixEntry) : State :=
  s.putMsix (spSet MsixEntry.reset s.msix (fn * 2048 + v) e)

/-- A vector can be sent now: MSI-X enabled, neither function nor vector masked (R435). -/
def State.msixOpen (s : State) (fn v : Nat) : Bool :=
  (s.fn fn).msixEnable && !(s.fn fn).msixMask && !(s.msixAt fn v).mask

/-- Signal an MSI-X vector: sent, or left pending in the PBA while masked (R435). -/
def signalMsi (s : State) (fn v : Nat) : State :=
  if s.msixOpen fn v then s.putOut { s.out with msi := s.out.msi ++ [(fn, v)] }
  else s.setMsix fn v { s.msixAt fn v with pend := true }

/-- Signal the PWR_IRQ vector when enabled (Table 15.13). -/
def signalPwr (s : State) : State :=
  if s.fldR Reg.PWR_IRQ 63 63 = 1 then signalMsi s 0 (s.fldR Reg.PWR_IRQ 42 32) else s

/-- Append an AER event. -/
def logAer (s : State) (e : AerEvent) : State := s.putOut { s.out with aer := s.out.aer ++ [e] }

/-- Set the latest response. -/
def respond (s : State) (r : Resp) : State := s.putOut { s.out with resp := r }

/-- Platform events by kind (R421): 0 state transition, 1 ride-through, 2 power-fail, 3 floor override, 4 throttle,
5 disagreement, 6 error entry. Queued up to 64 while unacknowledged, the oldest replaced and counted when full; ALERT#
is asserted while one is pending (R418). -/
def platformEvent (s : State) (kind data : Nat) : State :=
  match s.mgt.receiver with
  | none => s
  | some _ =>
    let full := decide (64 ≤ s.mgt.events.length)
    let q := if full then s.mgt.events.drop 1 else s.mgt.events
    let s1 := if full then s.satF Reg.MGT_STAT 31 16 1 else s
    s1
        |>.putMgt { s1.mgt with events := q ++ [⟨s1.mgt.nextEvent, kind, data⟩], nextEvent := s1.mgt.nextEvent + 1 }
        |>.putOut { s1.out with alert := true }

/-- Sources of Table 17.5. -/
abbrev srcNear : Nat := 1
@[inherit_doc srcNear] abbrev srcBulk : Nat := 2
@[inherit_doc srcNear] abbrev srcCache : Nat := 3
@[inherit_doc srcNear] abbrev srcPelvas : Nat := 5
@[inherit_doc srcNear] abbrev srcPcie : Nat := 6
@[inherit_doc srcNear] abbrev srcPower : Nat := 7
@[inherit_doc srcNear] abbrev srcThermal : Nat := 8
@[inherit_doc srcNear] abbrev srcBoot : Nat := 9
@[inherit_doc srcNear] abbrev srcWelt : Nat := 10
@[inherit_doc srcNear] abbrev srcTeardown : Nat := 11
@[inherit_doc srcNear] abbrev srcAgeing : Nat := 12

/-- What is logged (Table 17.4). -/
structure LogArgs where
  source : Nat
  sev : Nat
  retire : Bool := false
  injected : Bool := false
  code : Nat := 0
  unit : Nat := 0
  ctx : Option Nat := none
  extent : Nat := 1
  addr : Nat := 0
  detail : Nat := 0

/-- The words of a new log entry (Table 17.4). -/
def logWords (tick : Nat) (a : LogArgs) : Word × Word × Word × Word :=
  (BitVec.ofNat 64 (tick % 2 ^ 48 * 2 ^ 16 + a.source % 256 * 2 ^ 8 + a.sev % 4 * 2 ^ 6 + b2n a.retire * 2 ^ 5 +
      b2n a.injected * 2 ^ 4),
   BitVec.ofNat 64 (a.code % 2 ^ 16 * 2 ^ 48 + a.unit % 2 ^ 16 * 2 ^ 32 + a.ctx.getD 0 % 2 ^ 12 * 2 ^ 20 +
      b2n a.ctx.isSome * 2 ^ 19),
   BitVec.ofNat 64 (a.extent % 2 ^ 16 * 2 ^ 48 + a.addr % 2 ^ 48),
   BitVec.ofNat 64 (2 ^ 32 + a.detail % 2 ^ 32))

/-- Severity of a log entry. -/
def LogEntry.sev (e : LogEntry) : Nat := fld e.w0 7 6

/-- Same interval, source, code, unit and physical address (R424, coalescing). -/
def LogEntry.same (e : LogEntry) (w : Word × Word × Word × Word) : Bool :=
  decide (fld e.w0 63 8 = fld w.1 63 8 ∧ fld e.w1 63 32 = fld w.2.1 63 32 ∧ fld e.w2 47 0 = fld w.2.2.1 47 0)

/-- The lowest window index not in use. -/
def freeLogSlot (l : List LogEntry) : Nat :=
  ((List.range 1024).find? fun i => !(l.any fun e => decide (e.slot = i))).getD 0

/-- The SRAM error log with an entry written or coalesced; a full log replaces the oldest entry of no higher severity, or
drops the new one and counts it in LOST (R424). The snapshot view ends with the first new entry (R425). -/
def logInsert (s : State) (a : LogArgs) : State :=
  let w := logWords s.tickNum a
  let l := s.mgt.log
  let s0 := s.setF Reg.MGT_LOG_STAT 62 62 0
  if l.any (·.same w) then
    s0.putMgt { s0.mgt with log := l.map fun e => if e.same w then { e with w3 := e.w3 + 0x100000000 } else e }
  else if l.length < 1024 then
    s0.putMgt { s0.mgt with log := l ++ [⟨freeLogSlot l, w.1, w.2.1, w.2.2.1, w.2.2.2⟩] }
  else match l.find? fun e => decide (e.sev ≤ a.sev) with
    | some old =>
      s0.putMgt { s0.mgt with
            log := l.filter (fun e => decide (e.slot ≠ old.slot)) ++ [⟨old.slot, w.1, w.2.1, w.2.2.1, w.2.2.2⟩] }
    | none => s.satF Reg.MGT_LOG_STAT 31 16 1

/-- An entry of severity 2 or 3 waits for the flash. -/
def markUnwritten (s : State) (sev : Nat) : State := if 2 ≤ sev then s.putMgt { s.mgt with unwritten := true } else s

/-- Log an error; severity 2 and above, or advice to retire, is an event (R421, R424, R425). -/
def logError (s : State) (a : LogArgs) : State :=
  let s2 := markUnwritten (logInsert s a) a.sev
  if 2 ≤ a.sev ∨ a.retire then platformEvent s2 6 a.source else s2

/-- Write the SRAM error log to the flash log region: a new snapshot, the 16 latest kept, in the block with the fewest
erases (R425, R429). -/
def snapshotLog (s : State) : State :=
  let er := s.mgt.erases
  let k := er.foldl min (er.headD 0)
  let b := er.findIdx fun e => decide (e = k)
  let er' := updAt er b (· + 1)
  s.putMgt { s.mgt with
        snapshots := (s.mgt.log :: s.mgt.snapshots).take 16
        unwritten := false
        erases := er' }

/-! ### Contexts and rings -/

/-- Context n. -/
def State.ctx (s : State) (n : Nat) : Ctx := spGet Ctx.free s.ctxs n

/-- Set context n. -/
def State.setCtx (s : State) (n : Nat) (c : Ctx) : State := s.putCtxs (spSet Ctx.free s.ctxs n c)

/-- Ring r. -/
def State.ring (s : State) (r : Nat) : Ring := spGet Ring.closed s.rings r

/-- Set ring r. -/
def State.setRing (s : State) (r : Nat) (g : Ring) : State := s.putRings (spSet Ring.closed s.rings r g)

/-- CTX_STAT.STATE of context n: 0 FREE, 1 OPEN, 2 SAVING, 3 SAVED, 4 RESTORING, 5 TORN_DOWN. -/
def State.ctxState (s : State) (n : Nat) : Nat := (s.ctx n).state

/-- Partition and owning function of context n (Table 14.14). -/
def State.ctxPart (s : State) (n : Nat) : Nat := (s.ctx n).part
@[inherit_doc State.ctxPart] def State.ctxFn (s : State) (n : Nat) : Nat := (s.ctx n).fn

/-- Contexts not FREE, ascending (R361). -/
def State.openCtxs (s : State) : List Nat := (s.ctxs.filter fun c => decide (c.2.state ≠ 0)).map (·.1)

/-- The context whose range holds ring r, if one is not FREE. -/
def State.ctxOfRing (s : State) (r : Nat) : Option Nat :=
  s.openCtxs.find? fun n => decide ((s.ctx n).first ≤ r ∧ r < (s.ctx n).first + (s.ctx n).count)

/-- A function may act on context n: its owner or the physical function (R356). -/
def State.mayAct (s : State) (fn n : Nat) : Bool := s.fnOn fn && decide (fn = 0 ∨ (s.ctxState n ≠ 0 ∧ fn = s.ctxFn n))

/-- The partition's structure. -/
def State.part (s : State) (p : Nat) : PartDef := s.hol.cur.part p

/-! ### Availability of units (R24, R280, R374, R383) -/

/-- Domain d is on and its power-up complete. -/
def State.domReady (s : State) (d : Nat) : Bool := s.pwr.on.testBit d && s.pwr.ready.testBit d

/-- Core c can run: its quad is up and it did not fail in TRAIN. -/
def State.coreOk (s : State) (c : Nat) : Bool := s.domReady (8 + quadOf c) && !s.dev.badCores.testBit c

/-- Vault v can be reached: its domain is up and it is not marked unavailable. -/
def State.vaultOk (s : State) (v : Nat) : Bool := s.domReady (27 + v / 32) && !s.dev.badVaults.testBit v

/-- Bulk channel c can be reached. -/
def State.chanOk (s : State) (c : Nat) : Bool := s.domReady 26 && !(s.reg Reg.BLK_UNAVAIL).toNat.testBit c

/-- The vault whose controller holds a near-tier address (R278). -/
def State.vaultOf (s : State) (pa : Nat) : Nat := match s.hol.cur.partOfCore (pa / vaultSize) with
  | some p => (s.hol.cur.nearPlace p pa).1
  | none => pa / vaultSize

/-- The units that serve a physical address are available. -/
def State.physOk (s : State) (pa : Nat) : Bool :=
  if pa < nearTop then s.vaultOk (s.vaultOf pa)
  else match s.hol.cur.sliceOf pa with
    | some p => s.chanOk (s.hol.cur.bulkPlace p pa).1
    | none => false

/-- The 512 B chunks that n bytes from pa touch. -/
def chunksOf (pa n : Nat) : List Nat :=
  if n = 0 then [] else (List.range ((pa + n - 1) / 512 - pa / 512 + 1)).map (pa / 512 + ·)

/-- The units that serve every byte of [pa, pa + n) are available: the near tier changes vault at 2 KiB or more, the bulk tier
changes channel every 512 B (R278, R280, R284). -/
def State.reachOk (s : State) (pa n : Nat) : Bool := (chunksOf pa n).all fun c => s.physOk (512 * c)

/-- A logical array of partition p can run: every core of it. -/
def State.arrayOk (s : State) (p a : Nat) : Bool := (arrayCores (s.part p).frag.gang a).all s.coreOk

/-! ### Physical memory (R289 to R294) -/

/-- n bytes from a physical address. -/
def State.phys (s : State) (pa n : Nat) : List Byte := (List.range n).map fun i => spGet 0 s.mem.cells (pa + i)

/-- 8-byte little-endian value at a physical address. -/
def State.physNat (s : State) (pa : Nat) : Nat := leNat (s.phys pa 8)

/-- The class code of the 2 MiB frame of an address: 0 C, 1 D, 2 N (R289). -/
def State.classOf (s : State) (pa : Nat) : Nat :=
  if pa < nearTop then
    let f := pa % vaultSize / 2 ^ 21
    bits (s.reg (Reg.MEM_CLASS (pa / vaultSize) (f / 32))).toNat (2 * (f % 32) + 1) (2 * (f % 32))
  else
    let f := (pa - bulkBase) / 2 ^ 21
    bits (s.reg (Reg.BLK_CLASS (f / 32))).toNat (2 * (f % 32) + 1) (2 * (f % 32))

/-- Two intervals [a, a + n) and [b, b + m) overlap. -/
def overlaps (a n b m : Nat) : Bool := decide (a < b + m ∧ b < a + n)

/-- A frame that [pa, pa + n) touches is being cleared: accesses to it wait (R289). -/
def State.clears (s : State) (pa n : Nat) : Bool := s.mem.clearing.any fun f => overlaps pa n (f * 2 ^ 21) (2 ^ 21)

/-- Bytes of a checked unit of a class (Table 11.5). -/
def unitBytes (cls : Nat) : Nat := if cls = 0 then 64 else if cls = 1 then 16 else 1

/-- First addresses of the units that n bytes from pa touch, at one class. -/
def unitsOf (cls pa n : Nat) : List Nat :=
  let u := unitBytes cls
  if n = 0 then [] else (List.range ((pa + n - 1) / u - pa / u + 1)).map fun i => (pa / u + i) * u

/-- The cached line of a bulk address, if it is in the cache (R287). -/
def Mem.lineOf (m : Mem) (pa : Nat) : Option CacheLine :=
  if isBulk pa then m.cache.find? fun c => decide (c.line = pa / 512) else none

/-- Unit u reads with an error: what its cached line came with, or holds, if it has one; else what its storage holds (R287, R288,
R293). -/
def Mem.badAt (m : Mem) (u : Nat) : Bool := match m.lineOf u with
  | some c => c.bad || c.errs.contains u
  | none => decide ((u, UnitError.bad) ∈ m.errs)

/-- The bad cache lines that n bytes from pa touch, ascending (R288). -/
def State.badLines (s : State) (pa n : Nat) : List Nat :=
  if !isBulk pa ∨ s.mem.cache.all (fun c => !c.bad) then []
  else (chunksOf pa n).filter fun l => s.mem.cache.any fun c => decide (c.line = l) && c.bad

/-- The status an error of a class gives its reader (R293). -/
def errStatus (cls : Nat) : Nat := if cls = 1 then 3 else 4

/-- The first unit in [pa, pa + n) whose read fails, or the line of a bad one: its address and the status it gives; an
uncorrectable error comes before a detected one (R106, R288, R293). -/
def State.badUnit (s : State) (pa n : Nat) : Option (Nat × Nat) :=
  let cls := s.classOf pa
  let unit := if 2 ≤ cls then none else ((unitsOf cls pa n).find? s.mem.badAt).map fun u => (u, errStatus cls)
  match s.badLines pa n with
  | [] => unit
  | l :: _ => match unit with
    | some (u, st) => if st = 4 ∧ u < 512 * l then some (u, st) else some (512 * l, 4)
    | none => some (512 * l, 4)

/-- Store bytes at consecutive addresses. -/
def storeBytes (cells : List (Nat × Byte)) : Nat → List Byte → List (Nat × Byte)
  | _, [] => cells
  | pa, b :: bs => storeBytes (spSet 0 cells pa b) (pa + 1) bs

/-- Bytes [lo, hi) of a list that starts at address pa. -/
def sliceAt (pa : Nat) (bs : List Byte) (lo hi : Nat) : List Byte := (bs.drop (lo - pa)).take (hi - max lo pa)

/-- A write of the whole unit u ends its error, in the cached line or in the storage (R293). -/
def Mem.cure (m : Mem) (u : Nat) : Mem := match m.lineOf u with
  | some l => { m with cache := m.cache.map fun c => if c.line = l.line then { c with errs := c.errs.filter fun x => decide (x ≠ u) } else c }
  | none => { m with errs := m.errs.filter fun e => decide (e.1 ≠ u) }

/-- The units of [pa, pa + n) that the write covers only in part (R291). -/
def mergedUnits (cls pa n : Nat) : List Nat :=
  (unitsOf cls pa n).filter fun u => !decide (pa ≤ u ∧ u + unitBytes cls ≤ pa + n)

/-- The units a write of n bytes at pa does not write: covered in part, and in error (R291). -/
def State.refused (s : State) (pa n : Nat) : List Nat :=
  let cls := s.classOf pa
  if 2 ≤ cls then [] else (mergedUnits cls pa n).filter s.mem.badAt

/-- The first of them, and the status it gives the writer. -/
def State.refusesUnit (s : State) (pa n : Nat) : Option (Nat × Nat) :=
  (s.refused pa n).head?.map fun u =>
    (u, if (s.mem.lineOf u).any (·.bad) then 4 else errStatus (s.classOf pa))

/-- Write one unit's part of the bytes, unless it is refused (R291); a whole-unit write ends the error (R293). -/
def writeUnit (cls pa : Nat) (bs : List Byte) (refused : List Nat) (m : Mem) (u : Nat) : Mem :=
  let w := unitBytes cls
  let lo := max pa u
  let hi := min (pa + bs.length) (u + w)
  if refused.contains u then m
  else
    let m1 := { m with cells := storeBytes m.cells lo (sliceAt pa bs lo hi) }
    if lo = u ∧ hi = u + w then m1.cure u else m1

/-- A physical write unit by unit, within one 2 MiB frame, but for the units refused (R291). -/
def physWriteBut (s : State) (refused : List Nat) (pa : Nat) (bs : List Byte) : State :=
  let cls := s.classOf pa
  s.putMem ((unitsOf cls pa bs.length).foldl (writeUnit cls pa bs refused) s.mem)
@[inherit_doc physWriteBut] def physWrite (s : State) (pa : Nat) (bs : List Byte) : State :=
  physWriteBut s (s.refused pa bs.length) pa bs

/-- Clear [lo, hi) to zero, with its stored errors and those of its cached lines. -/
def clearPhys (s : State) (lo hi : Nat) : State :=
  s.putMem { s.mem with
        cells := spClear s.mem.cells lo hi
        errs := s.mem.errs.filter fun e => decide (e.1 < lo ∨ hi ≤ e.1)
        cache := s.mem.cache.map fun c =>
          if lo ≤ 512 * c.line ∧ 512 * c.line < hi then { c with bad := false, errs := [], under := [] } else c }

/-! ### Error accounting (R292, R293, R305, R306) -/

/-- The error register and the log source of the controller that holds an address (R278, R292). -/
def State.errReg (s : State) (pa : Nat) : Nat := if pa < nearTop then Reg.MEM_ERR (s.vaultOf pa) else Reg.BLK_ERR
@[inherit_doc State.errReg] def errSource (pa : Nat) : Nat := if pa < nearTop then srcNear else srcBulk

/-- The unit number logged for an address: vault × 16 + channel, or the bulk channel (Table 17.4). -/
def State.errUnit (s : State) (pa : Nat) : Nat :=
  match s.hol.cur.ownerOf pa with
  | some p =>
    if pa < nearTop then (s.hol.cur.nearPlace p pa).1 * 16 + (s.hol.cur.nearPlace p pa).2.1
    else (s.hol.cur.bulkPlace p pa).1
  | none => 0

/-- The row of an address as a key, its controller (64: the bulk tier's) above bit 48: its aligned 2 KiB run, or its device row of
the bulk tier (R306). -/
def State.rowKey (s : State) (pa : Nat) : Nat :=
  if pa < nearTop then s.vaultOf pa * 2 ^ 48 + pa / 2048
  else match s.hol.cur.sliceOf pa with
    | some p => 64 * 2 ^ 48 + (s.hol.cur.bulkPlace p pa).1 * 2 ^ 24 + (s.hol.cur.bulkPlace p pa).2 / 2048
    | none => 65 * 2 ^ 48

/-- The configuration register of the controller that holds an address (Tables 11.8, 11.14). -/
def State.memCfg (s : State) (pa : Nat) : Nat := if pa < nearTop then Reg.MEM_CFG (s.vaultOf pa) else Reg.BLK_CFG
/-- Its status register (Tables 11.9, 11.14). -/
def State.memStat (s : State) (pa : Nat) : Nat := if pa < nearTop then Reg.MEM_STAT (s.vaultOf pa) else Reg.BLK_STAT

/-- CE_ROW_LIMIT of the controller (Tables 11.8, 11.14). -/
def State.rowLimit (s : State) (pa : Nat) : Nat := s.fldR (s.memCfg pa) 7 0

/-- Log a row for retirement and count it (R306). -/
def adviseRow (s : State) (pa : Nat) : State :=
  logError (s.satF (s.errReg pa) 15 0 1)
    { source := errSource pa, sev := 0, retire := true, code := 0, unit := s.errUnit pa,
      extent := if pa < nearTop then 1 else 4, addr := pa }

/-- A correctable class C error at unit u: corrected and written back, counted, logged, its row tracked in the controller's
256-row table (R292, R306). -/
def correctUnit (s : State) (u : Nat) (ctx : Option Nat) : State :=
  let key := s.rowKey u
  let n := spGet 0 s.mem.rowErrs key + 1
  let mine := s.mem.rowErrs.filter fun r => decide (r.1 / 2 ^ 48 = key / 2 ^ 48)
  let keep := decide (mine.any (fun r => r.1 = key) ∨ mine.length < 256)
  let s1 := s.putMem { s.mem with
        errs := s.mem.errs.filter (fun e => decide (e ≠ (u, UnitError.correctable)))
        rowErrs := if keep then spSet 0 s.mem.rowErrs key n else s.mem.rowErrs }
  let s2 := logError (tally (s1.satF (s.errReg u) 63 48 1) telCorrected 1)
    { source := errSource u, sev := 1, code := 0, unit := s.errUnit u, ctx := ctx, addr := u }
  if s.rowLimit u = 0 ∨ (keep ∧ n = s.rowLimit u) then adviseRow s2 u else s2

/-- An uncorrectable or detected error found at unit u: counted, logged with retirement advised, left as stored. -/
def noteBadUnit (s : State) (u status : Nat) (ctx : Option Nat) : State :=
  let s1 := if status = 4 then tally (s.satF (s.errReg u) 47 32 1) telUncorrected 1
    else tally (s.satF (s.errReg u) 31 16 1) telDetected 1
  let s2 := s1.satF (s.errReg u) 15 0 1
  logError s2 { source := errSource u, sev := 2, retire := true, code := status, unit := s.errUnit u, ctx := ctx,
                extent := if u < nearTop then 1 else 4, addr := u }

/-- No unit and no line is in error. -/
def Mem.sound (m : Mem) : Bool := decide (m.errs = []) && m.cache.all fun c => !c.bad && decide (c.errs = [])

/-- A dirty line is lost: it is dropped, the bulk tier keeps older contents there, which are free values, and the log names
the range (R288). -/
def loseLine (s : State) (ctx : Option Nat) (line : Nat) : State :=
  let old : List Byte := (List.range 512).map fun i => BitVec.ofNat 8 (Config.freeNat (s.free + i))
  let s1 := s.putMem { s.mem with
        cells := storeBytes s.mem.cells (512 * line) old
        cache := s.mem.cache.filter fun c => decide (c.line ≠ line) }
  logError (s1.putFree (s.free + 512))
    { source := srcCache, sev := 2, code := 4, unit := line % 64 * 16, ctx := ctx, extent := 8, addr := 512 * line }

/-- The accounting of reading n stored bytes at pa: correctable units corrected, failing units noted; a line that is bad is
accounted by `noteRead`. -/
def noteUnits (s : State) (pa n : Nat) (ctx : Option Nat) : State :=
  let cls := s.classOf pa
  if 2 ≤ cls ∨ s.mem.sound then s
  else (unitsOf cls pa n).foldl (fun s u =>
    if (s.mem.lineOf u).any (·.bad) then s
    else if s.mem.badAt u then noteBadUnit s u (errStatus cls) ctx
    else if cls = 0 ∧ (s.mem.lineOf u).isNone ∧ (u, UnitError.correctable) ∈ s.mem.errs then correctUnit s u ctx else s) s

/-- The accounting of a read of n bytes at pa: of its stored units, and of the cache lines it loses (R288, R292, R293). -/
def noteRead (s : State) (pa n : Nat) (ctx : Option Nat) : State :=
  (s.badLines pa n).foldl (fun s l => loseLine s ctx l) (noteUnits s pa n ctx)

/-- The reads of a write's merges: correctable units corrected, failing units noted, bad lines lost (R288, R291 to R293). -/
def noteMerge (s : State) (pa n : Nat) (ctx : Option Nat) : State :=
  let cls := s.classOf pa
  if 2 ≤ cls ∨ s.mem.sound then s
  else (mergedUnits cls pa n).foldl (fun s u => noteRead s u 1 ctx) s

/-! ### The memory-side cache (R286 to R288) -/

/-- Two lines share a home vault and set. -/
def sameSet (a b : Nat) : Bool := decide (a % 64 = b % 64 ∧ a / 64 % 64 = b / 64 % 64)

/-- A line leaves the cache: a bad one is lost; a dirty one is written back, which replaces its units but for those it came with
in error; under a clean one the storage stands (R287, R288, R293). -/
def evict (s : State) (c : CacheLine) : State :=
  let rest := s.mem.cache.filter fun d => decide (d.line ≠ c.line)
  if c.bad then loseLine s none c.line
  else if c.dirty then
    s.putMem { s.mem with cache := rest, errs := s.mem.errs.filter (fun e => decide (e.1 / 512 ≠ c.line)) ++ c.errs.map (·, UnitError.bad) }
  else s.putMem { s.mem with cache := rest, cells := c.under.foldl (fun m x => spSet 0 m x.1 x.2) s.mem.cells }

/-- A dirty line is written back and stays, clean; a bad one is lost (R288). -/
def cleanLine (s : State) (c : CacheLine) : State :=
  if !c.dirty then s
  else
    let t := evict s c
    if c.bad then t else t.putMem { t.mem with cache := { c with dirty := false, under := [] } :: t.mem.cache }

/-- A fill reads a whole line from its channel: its correctable units are corrected (R287, R292). -/
def fillLine (s : State) (line : Nat) (ctx : Option Nat) : State :=
  if s.mem.errs = [] then s
  else (unitsOf 0 (512 * line) 512).foldl (fun s u =>
    if s.classOf u = 0 ∧ (u, UnitError.correctable) ∈ s.mem.errs then correctUnit s u ctx else s) s

/-- Look up one bulk line for partition p, most recently used first; on a miss it takes a free or the least recently used
way of the partition's mask, the old line leaving, and is filled unless the access writes all of it. `whole` writes replace a
bad line. Lines homed in vaults that are off are not cached (R287, R288). -/
def cacheLine (s : State) (p line : Nat) (write whole : Bool) (ctx : Option Nat) : State :=
  if !s.domReady (27 + line % 64 / 32) then s
  else match s.mem.cache.find? fun c => decide (c.line = line) with
  | some c =>
    (s.putMem { s.mem with
          cache := { c with dirty := c.dirty || write, bad := c.bad && !whole, errs := if whole then [] else c.errs } ::
            s.mem.cache.filter fun d => decide (d.line ≠ line) }).addF
      (Reg.BLK_CACHE p) 63 32 1
  | none =>
    let ways := maskList 16 (s.part p).wayMask
    let mine : List CacheLine := s.mem.cache.filter fun c => sameSet c.line line && ways.contains c.way
    let way : Nat := match ways.find? fun w => !(mine.any fun c => decide (c.way = w)) with
      | some w => w
      | none => ((mine.getLast?).map (·.way)).getD 0
    let s1 := match s.mem.cache.find? fun c => sameSet c.line line && decide (c.way = way) with
      | some c => evict s c
      | none => s
    let s2 := if whole then s1 else fillLine s1 line ctx
    let came := if whole then [] else ((s2.mem.errs.filter fun e => decide (e.2 = UnitError.bad ∧ e.1 / 512 = line)).map (·.1))
    (s2.putMem { s2.mem with cache := ⟨line, way, write, false, came, []⟩ :: s2.mem.cache }).addF
      (Reg.BLK_CACHE p) 31 0 1

/-- Account an access of n bytes at pa by partition p: 512 B access counts (R301) and, in the bulk tier, the cache. -/
def touchPhys (s : State) (p pa n : Nat) (write : Bool) (ctx : Option Nat) : State :=
  (chunksOf pa n).foldl (fun s line =>
    let f := line / 4096
    let s1 := s.putMem { s.mem with counts := spSet 0 s.mem.counts f (satAdd 16 (spGet 0 s.mem.counts f) 1) }
    if isBulk pa then cacheLine s1 p line write (write && decide (pa ≤ 512 * line ∧ 512 * (line + 1) ≤ pa + n)) ctx else s1) s

/-- The accounting of a read of n bytes at pa by partition p. -/
def readPhys (s : State) (p pa n : Nat) (ctx : Option Nat) : State := noteRead (touchPhys s p pa n false ctx) pa n ctx

/-! ### Translation (R296, R297) -/

/-- Why an access does not complete: outside the translations; content that is a host error (R20, R88); a frame being cleared
(R289); a unit that is not available; an error of the data (status 3 or 4). -/
inductive MErr where
  | trans (va : Nat)
  | host
  | wait
  | unavail
  | data (status va : Nat)
  deriving DecidableEq, Repr

/-- Where a reason stands when several apply to one command: TRANSLATION_FAULT first, an uncorrectable error before a detected one
(R106). -/
def MErr.rank : MErr → Nat
  | .trans _ => 0
  | .host => 1
  | .wait => 2
  | .unavail => 3
  | .data st _ => 8 - st

/-- The reason that stands of two, the first of equals. -/
def worse (a b : MErr) : MErr := if b.rank < a.rank then b else a

/-- Both results, or the reason that stands of those that fail. -/
def both {α β : Type} (x : Except MErr α) (y : Except MErr β) : Except MErr (α × β) := match x, y with
  | .ok a, .ok b => .ok (a, b)
  | .ok _, .error e => .error e
  | .error e, .ok _ => .error e
  | .error e, .error f => .error (worse e f)

/-- A translated address: physical address, address of the leaf entry, log2 of the page, the entry. -/
structure Leaf where
  pa : Nat
  entryPa : Nat
  shift : Nat
  entry : Nat
  deriving DecidableEq, Repr

/-- Why the table entry at ea cannot be read for partition p, if so (R289, R297). -/
def State.entryErr (s : State) (p va ea : Nat) : Option MErr :=
  if s.hol.cur.ownerOf ea ≠ some p then some (.trans va)
  else if s.clears ea 8 then some .wait
  else if !s.physOk ea then some .unavail
  else if (s.badUnit ea 8).isSome then some (.data 4 va)
  else none

/-- One level of the walk below the root: a table at `tbl`, the index [shift + 8 : shift] of va, then `rest` deeper
levels (Table 11.6, R297). -/
def walkLevel (s : State) (part va : Nat) (wr : Bool) : List Nat → Nat → Except MErr Leaf
  | [], _ => .error (.trans va)
  | shift :: rest, tbl =>
    let ea := tbl + 8 * (va / 2 ^ shift % 512)
    match s.entryErr part va ea with
    | some x => .error x
    | none =>
      let e := s.physNat ea
      let addr := bits e 47 12 * 4096
      if !e.testBit 63 ∨ bits e 47 39 ≠ 0 then .error (.trans va)
      else if e.testBit 62 then
        if addr % 2 ^ shift ≠ 0 ∨ (wr ∧ !e.testBit 61) then .error (.trans va)
        else
          let pa := addr + va % 2 ^ shift
          if s.hol.cur.ownerOf pa ≠ some part then .error (.trans va) else .ok ⟨pa, ea, shift, e⟩
      else if rest = [] then .error (.trans va)
      else walkLevel s part va wr rest addr

/-- The root entry of context n for va (R296). -/
def State.rootEntry (s : State) (n va : Nat) : Nat := s.fldR (Reg.CTX_PT_ROOT n) 51 16 * 2 ^ 16 + 8 * (va / 2 ^ 39 % 8192)

/-- Translate a virtual address of context n (R296). The root entry must point to a table. -/
def translate (s : State) (n va : Nat) (wr : Bool) : Except MErr Leaf :=
  let part := s.ctxPart n
  let ea := s.rootEntry n va
  if va ≥ 2 ^ 52 then .error (.trans va)
  else match s.entryErr part va ea with
    | some x => .error x
    | none =>
      let e := s.physNat ea
      if !e.testBit 63 ∨ e.testBit 62 ∨ bits e 47 39 ≠ 0 then .error (.trans va)
      else walkLevel s part va wr [30, 21, 12] (bits e 47 12 * 4096)

/-- The entries a walk reads below the root, in order: to its leaf, or to the one that ends it. -/
def walkReads (s : State) (part va : Nat) : List Nat → Nat → List Nat
  | [], _ => []
  | shift :: rest, tbl =>
    let ea := tbl + 8 * (va / 2 ^ shift % 512)
    match s.entryErr part va ea with
    | some (.data ..) => [ea]
    | some _ => []
    | none =>
      let e := s.physNat ea
      if !e.testBit 63 ∨ e.testBit 62 ∨ bits e 47 39 ≠ 0 then [ea] else ea :: walkReads s part va rest (bits e 47 12 * 4096)

/-- The entries a walk of context n for va reads. -/
def State.walk (s : State) (n va : Nat) : List Nat :=
  let part := s.ctxPart n
  let ea := s.rootEntry n va
  if va ≥ 2 ^ 52 then []
  else match s.entryErr part va ea with
    | some (.data ..) => [ea]
    | some _ => []
    | none =>
      let e := s.physNat ea
      if !e.testBit 63 ∨ e.testBit 62 ∨ bits e 47 39 ≠ 0 then [ea] else ea :: walkReads s part va [30, 21, 12] (bits e 47 12 * 4096)

/-- The accounting of a walk: its table reads are accesses of the partition (R286, R292, R293, R297), and an auto leaf is recorded
with the place of its entry (R301). The model keeps no translation cache: each access walks (log entry 65). -/
def walked (s : State) (n va : Nat) : State :=
  let s1 := (s.walk n va).foldl (fun t ea => readPhys t (s.ctxPart n) ea 8 (some n)) s
  match translate s n va false with
  | .ok l =>
    if l.entry.testBit 60 ∧ l.shift = 21 then
      let f := l.pa / 2 ^ 21
      s1.putMem { s1.mem with
            leaves := (f, n, l.entryPa, va / 2 ^ 21 * 2 ^ 21) :: s1.mem.leaves.filter fun x => decide (x.1 ≠ f) }
    else s1
  | .error _ => s1

/-- An access that meets unavailable memory. -/
def isUnavail {α : Type} : Except MErr α → Bool
  | .error .unavail => true
  | _ => false

/-- A range cut at 4 KiB boundaries: (address, length), `fuel` pieces at most. -/
def pagesOf : Nat → Nat → Nat → List (Nat × Nat)
  | 0, _, _ => []
  | fuel + 1, va, n =>
    if n = 0 then []
    else
      let k := min n (4096 - va % 4096)
      (va, k) :: pagesOf fuel (va + k) (n - k)

/-- The pieces of n bytes at va. -/
def pieces (va n : Nat) : List (Nat × Nat) := pagesOf (n / 4096 + 2) va n

/-- Read one piece. -/
def readPiece (s : State) (n : Nat) (pc : Nat × Nat) : Except MErr (List Byte) :=
  match translate s n pc.1 false with
  | .error e => .error e
  | .ok l =>
    if s.clears l.pa pc.2 then .error .wait
    else if !s.reachOk l.pa pc.2 then .error .unavail
    else match s.badUnit l.pa pc.2 with
      | some (u, st) => .error (.data st (pc.1 + u - l.pa))
      | none => .ok (s.phys l.pa pc.2)

/-- Read pieces: their bytes in order, or the reason that stands of those that fail (R106). -/
def readPieces (s : State) (n : Nat) : List (Nat × Nat) → Except MErr (List Byte)
  | [] => .ok []
  | pc :: pcs => (both (readPiece s n pc) (readPieces s n pcs)).map fun x => x.1 ++ x.2

/-- Read n bytes of context c at va. -/
def vread (s : State) (c va n : Nat) : Except MErr (List Byte) := readPieces s c (pieces va n)

/-- Read an 8-byte word of context c. -/
def vread64 (s : State) (c va : Nat) : Except MErr Nat := (vread s c va 8).map leNat

/-- Entries a ring holds (R18). -/
def Ring.cap (g : Ring) : Nat := 16 * 2 ^ fld g.w1 63 60

/-- Entries from head to tail (R84). -/
def Ring.avail (g : Ring) : Nat := (g.tail + 2 ^ 32 - g.head) % 2 ^ 32

/-- Entries a packet takes (R86). -/
def packetEntries (len : Nat) : Nat := 1 + ceilDiv len 64

/-- Virtual address of the i-th entry past the head of a ring in device memory. -/
def Ring.entryVa (g : Ring) (i : Nat) : Nat := fld g.w0 63 6 * 64 + 64 * ((g.head + i) % g.cap)

/-- Entries past the head, from the i-th on, of packets that no WAIT precedes on the ring: after their doorbell nothing may write into
them (R353). -/
def exposed (s : State) (g : Ring) : Nat → Nat → List Nat
  | 0, _ => []
  | fuel + 1, i => if g.avail ≤ i then [] else match vread64 s g.owner (g.entryVa i) with
    | .error _ => []
    | .ok w =>
      let k := packetEntries (bits w 18 0)
      (List.range k).map (i + ·) ++ if bits w 63 56 = 0x31 then [] else exposed s g fuel (i + k)

/-- The exposed entries of a ring in device memory; behind a fetched WAIT there are none (R353). -/
def Ring.exposed (s : State) (g : Ring) : List Nat :=
  if fld g.w0 0 0 = 0 ∨ g.state = 0 ∨ g.state = 5 ∨ g.fetched.any (fun p => decide (fld (p.hdr.getD 0 0) 63 56 = 0x31)) = true then []
  else Machine.exposed s g (min g.avail g.cap) 0

/-- Contexts into whose exposed packets a write of n bytes at pa falls (R353). -/
def State.packetOwners (s : State) (pa n : Nat) : List Nat :=
  (s.rings.filter fun r => (r.2.exposed s).any fun i => match translate s r.2.owner (r.2.entryVa i) false with
    | .ok l => overlaps l.pa 64 pa n
    | .error _ => false).map (·.2.owner)

/-- Why the write of one piece would not complete (R291, R297), or what it writes to is a packet whose doorbell has rung (R353). -/
def pieceErr (s : State) (c : Nat) (pc : Nat × Nat) : Option MErr := match translate s c pc.1 true with
  | .error e => some e
  | .ok l =>
    if s.packetOwners l.pa pc.2 ≠ [] then some .host
    else if s.clears l.pa pc.2 then some .wait
    else if !s.reachOk l.pa pc.2 then some .unavail
    else (s.refusesUnit l.pa pc.2).map fun x => .data x.2 (pc.1 + x.1 - l.pa)

/-- The write of pieces would not complete: the reason that stands of those that fail (R106). -/
def writeErr (s : State) (c : Nat) : List (Nat × Nat) → Option MErr
  | [] => none
  | pc :: pcs => match pieceErr s c pc, writeErr s c pcs with
    | some a, some b => some (worse a b)
    | some a, none => some a
    | none, b => b

/-- Drop the retained ranges that satisfy a test, counting each in LPE_RETAIN.DROPS (R171). -/
def dropWhere (s : State) (hit : Retained → Bool) : State :=
  (s.retained.filter hit).foldl (fun s r => s.addF (Reg.LPE_RETAIN r.core) 31 0 1)
    (s.putRetained (s.retained.filter fun r => !hit r))

/-- Drop the retained ranges of context c whose addresses a change of translations covers (R171, R298). -/
def dropRetained (s : State) (c va n : Nat) : State :=
  dropWhere s fun r => decide (r.ctx = c) && overlaps r.va r.len va n

/-- The 4 KiB physical page of an address of context c, if it translates. -/
def physPage (s : State) (c va : Nat) : Option Nat := match translate s c va false with
  | .ok l => some (l.pa / 4096)
  | .error _ => none

/-- Drop the retained ranges that share one of the written 4 KiB pages (R171; log entry 20). -/
def dropPagesWritten (s : State) (pages : List Nat) : State :=
  dropWhere s fun r => (pieces r.va r.len).any fun pc => match physPage s r.ctx pc.1 with
    | some p => pages.contains p
    | none => false

/-- The pages of [pa, pa + n). -/
def pagesIn (pa n : Nat) : List Nat := if n = 0 then [] else (List.range ((pa + n - 1) / 4096 - pa / 4096 + 1)).map (pa / 4096 + ·)

/-- An access of partition p writes bytes at pa, within one 2 MiB frame: through the cache in the bulk tier, merges read, units in
error that it covers in part left as they were, and retained copies of the pages dropped (R171, R286, R291 to R293). -/
def storePhys (s : State) (p pa : Nat) (bs : List Byte) (ctx : Option Nat) : State :=
  let n := bs.length
  let s1 := touchPhys (dropPagesWritten s (pagesIn pa n)) p pa n true ctx
  physWriteBut (noteMerge s1 pa n ctx) (s1.refused pa n) pa bs

/-- Write bytes piece by piece at the addresses that the state s0 before the write translates them to (R298: a change of the
tables need not take effect before its invalidation; DEDUCED, log entry 36); a piece that does not translate, or lies in
unavailable memory, ends the write there, and pieces before it have been written (R291). -/
def writePieces (s0 s : State) (c : Nat) : List (Nat × Nat) → List Byte → State
  | [], _ => s
  | pc :: pcs, bs => match translate s0 c pc.1 true with
    | .error _ => walked s c pc.1
    | .ok l =>
      if s0.clears l.pa pc.2 ∨ !s0.reachOk l.pa pc.2 then s
      else writePieces s0 (storePhys (walked s c pc.1) (s0.ctxPart c) l.pa (bs.take pc.2) (some c)) c pcs (bs.drop pc.2)

/-- Write bytes of context c at va: the state after it and the error that fails the writer, if any (R291, R293). -/
def vwrite (s : State) (c va : Nat) (bs : List Byte) : State × Option MErr :=
  let pcs := pieces va bs.length
  (writePieces s s c pcs bs, writeErr s c pcs)

/-- The accounting of a read of n bytes of context c at va: its walks, corrections, error counts, access counts, cache. -/
def vtouch (s : State) (c va n : Nat) : State :=
  (pieces va n).foldl (fun s pc => match translate s c pc.1 false with
    | .ok l =>
      if s.clears l.pa pc.2 ∨ !s.reachOk l.pa pc.2 then walked s c pc.1
      else readPhys (walked s c pc.1) (s.ctxPart c) l.pa pc.2 (some c)
    | .error _ => walked s c pc.1) s

/-- Read n bytes of context c at va with the accounting of the read. -/
def vload (s : State) (c va n : Nat) : State × Except MErr (List Byte) := (vtouch s c va n, vread s c va n)
@[inherit_doc vload] def vload64 (s : State) (c va : Nat) : State × Except MErr Nat := (vtouch s c va 8, vread64 s c va)

/-- Accesses the part makes on its own account are made once the frames being cleared are clear: the clear has zeroed them
already, and the row that makes the access stands for the moment its wait has ended (R289; log entry 38). -/
def afterClears (s : State) (f : State → State) : State :=
  let t := f (s.putMem { s.mem with clearing := [] })
  t.putMem { t.mem with clearing := s.mem.clearing }

/-- Bytes posted to host memory (records, head write-backs, descriptors). -/
def hostWrite (s : State) (addr : Nat) (bs : List Byte) : State :=
  s.putOut { s.out with hostMem := storeBytes s.out.hostMem addr bs }

/-- The next free value, and the state with it drawn. -/
def draw (s : State) : Nat × State := (Config.freeNat s.free, (s.putFree (s.free + 1)))

end Sys2Proof.Machine
end

