-- ==== Sys2Proof/Machine/Link.lean ====
section
/-!
DEFINITION. Sending a message on the fabric: its type and virtual channel (Table 12.3), the route (R318), fault injection
on the way out (R335) and the replay buffer (R315).
-/
namespace Sys2Proof.Machine

/-- Message type code (Table 12.3). -/
def bodyType : FabBody → Nat
  | .hello .. => 0x01
  | .elect .. => 0x02
  | .heartbeat .. => 0x03
  | .time .. => 0x04
  | .clasp .. => 0x10
  | .ready .. => 0x11
  | .unready .. => 0x12
  | .member .. => 0x13
  | .flockDrop .. => 0x14
  | .coll op .. => if op ≤ 1 then 0x20 else 0x21
  | .ringBlock .. => 0x21

/-- Virtual channel of a message; a reduction of an ALGO 1 group travels on VC2 (R346), marked by the sender. -/
def bodyVc (direct : Bool) : FabBody → Nat
  | .coll op .. => if op ≤ 1 ∧ !direct then 1 else 2
  | .ringBlock .. => 2
  | _ => 0

/-- Message bytes, header included (R317, R350). -/
def bodyLength : FabBody → Nat
  | .coll _ _ _ _ _ _ _ data => 32 + data.length
  | .ringBlock _ _ _ _ _ _ _ _ data => 32 + data.length
  | _ => 48

/-- This device's ID (R319). -/
def State.devId (s : State) : Nat := s.fldR Reg.CLX_ID 15 0

/-- The message is for this device: a broadcast, one that names its ID, or TIME, which measures one link (R332, Table 12.4). -/
def State.forMe (s : State) (m : FabMsg) : Bool := m.bcast || decide (m.dst = s.devId) || decide (bodyType m.body = 0x04)

/-- Port p, 0 to 11, is UP. -/
def State.portUp (s : State) (p : Nat) : Bool := decide (p < 12 ∧ s.fldR (Reg.PLK_STAT p) 63 62 = 2)

/-- A message of VC1 or VC2 for this device is taken on a port (R322). -/
def State.takesVc12 (s : State) (p : Nat) (m : FabMsg) : Bool :=
  s.live && s.portUp p && decide (s.fldR Reg.CLX_STAT 57 57 = 0) && s.forMe m

/-- Port p leads to a switch. -/
def State.portSwitch (s : State) (p : Nat) : Bool := decide (s.fldR (Reg.PLK_STAT p) 59 59 = 1)

/-- The UP ports. -/
def State.upPorts (s : State) : List Nat := (List.range 12).filter s.portUp

/-- The port a message to dst leaves by: the direct link, else the hashed choice among UP switch ports (R318). -/
def State.route (s : State) (src dst : Nat) : Option Nat :=
  match s.upPorts.find? fun p => (s.fab.ports.getD p Port.down).partnerSeen && !s.portSwitch p &&
      decide (s.fldR (Reg.PLK_STAT p) 47 32 = dst) with
  | some p => some p
  | none =>
    let sw := s.upPorts.filter s.portSwitch
    if sw = [] then none else sw[Config.routeHash src dst % sw.length]?

/-- Port state p. -/
def State.port (s : State) (p : Nat) : Port := s.fab.ports.getD p Port.down

/-- Change port state p. -/
def State.setPort (s : State) (p : Nat) (f : Port → Port) : State :=
  s.putFab { s.fab with ports := updAt s.fab.ports p f }

/-! ### Fault injection (R335) -/

/-- Rule i matches a message of this type and channel on port p in direction dir (0 transmit, 1 receive). -/
def State.fiMatches (s : State) (i p dir vc ty : Nat) : Bool :=
  let r := s.reg (Reg.FI_RULE i)
  s.live && decide (s.fldR Reg.FI_CTL 0 0 = 1 ∧ fld r 63 63 = 1 ∧ (fld r 57 46).testBit p ∧ fld r 45 45 = dir ∧
    (fld r 44 41).testBit vc ∧ (fld r 40 33 = 0xFF ∨ fld r 40 33 = ty))

/-- The trigger of rule i fires on its n-th match, n counted from 1 (Table 12.8); trigger 1 is armed by the named edge
(its count is then 1), trigger 2 uses a free value. -/
def State.fiFires (s : State) (i n : Nat) : Bool :=
  let trig := s.fldR (Reg.FI_RULE i) 60 58
  let v := s.fldR (Reg.FI_PARAM i) 63 32
  let lim := s.fldR (Reg.FI_PARAM i) 31 16
  (decide (lim = 0 ∨ s.fldR (Reg.FI_COUNT i) 31 0 < lim)) &&
  (if trig = 0 then decide (v ≠ 0 ∧ n % v = 0)
   else if trig = 1 then decide (n = 2)
   else if trig = 2 then decide (Config.freeNat s.free % 2 ^ 32 < v)
   else if trig = 3 then decide (n ≤ v)
   else false)

/-- The first rule that fires on a message, with the state after the matches are counted and the injection logged. -/
def fiStep (s : State) (p dir vc ty : Nat) : Option Nat × State :=
  (List.range 16).foldl (fun (acc : Option Nat × State) i =>
    let s := acc.2
    if acc.1.isSome ∨ !s.fiMatches i p dir vc ty then acc
    else
      let one := decide (s.fldR (Reg.FI_RULE i) 60 58 = 1)
      let n0 := s.fab.seen.getD i 0
      let n := if one ∧ n0 = 0 then 0 else n0 + 1
      let fires := s.fiFires i n
      let s1 := s |>.putFab { s.fab with seen := updAt s.fab.seen i fun _ => n } |>.putFree (s.free + 1)
      if fires then
        (some i, logError (s1.addF (Reg.FI_COUNT i) 31 0 1) { source := srcPelvas, sev := 0, injected := true, unit := p, detail := i })
      else (none, s1)) (none, s)

/-- Put a message on port p: into the replay buffer and out (R315, R317). -/
def transmit (s : State) (p : Nat) (m : FabMsg) : State :=
  let n := max 1 (ceilDiv (bodyLength m.body) 2032)
  let s1 := s.setPort p fun q => { q with txSeq := wrapAdd 16 q.txSeq n, replay := q.replay ++ [(wrapAdd 16 q.txSeq (n - 1), m)] }
  s1.putOut { s1.out with sent := s1.out.sent ++ [(p, m)] }

/-- Send a message through port p, under the injection rules of its direction (Table 12.7). A corrupted packet is
replayed by its receiver: the message itself leaves unchanged. -/
def sendOn (s : State) (direct : Bool) (p : Nat) (m : FabMsg) : State :=
  match fiStep s p 0 (bodyVc direct m.body) (bodyType m.body) with
  | (none, s1) =>
    let waiting := s1.fab.held.filter fun h => decide (h.2.1 = p ∧ s1.fldR (Reg.FI_RULE h.1) 62 61 = 2 ∧
      s1.fldR (Reg.FI_RULE h.1) 45 45 = 0 ∧ bodyVc direct h.2.2.body = bodyVc direct m.body)
    let s2 := transmit s1 p m
    waiting.foldl (fun s h => transmit s p h.2.2)
      (s2.putFab { s2.fab with held := s2.fab.held.filter fun h => !(waiting.contains h) })
  | (some i, s1) =>
    let act := s1.fldR (Reg.FI_RULE i) 62 61
    if act = 0 then s1
    else if act = 1 then transmit s1 p m
    else s1.putFab { s1.fab with held := s1.fab.held ++ [(i, p, m)] }

/-- The sequence number of the next message under a key of `mseq`, and the state with it taken (R317). -/
def nextMseq (s : State) (k : Nat) : Nat × State :=
  let n := spGet 0 s.fab.mseq k
  (n, (s.putFab { s.fab with mseq := spSet 0 s.fab.mseq k (wrapAdd 32 n 1) }))

/-- A message of this channel would leave by this port: its route, while DUP_ID leaves the ports VC0 only (R318, R322). -/
def State.egress (s : State) (direct : Bool) (dst : Nat) (body : FabBody) : Option Nat :=
  if bodyVc direct body ≠ 0 ∧ s.fldR Reg.CLX_STAT 57 57 = 1 then none else s.route s.devId dst

/-- Send a message to a device: by its route, or discarded and counted in NO_ROUTE (R318). -/
def fabSend (s : State) (direct : Bool) (dst tag : Nat) (body : FabBody) : State :=
  let q := nextMseq s (4 * dst + bodyVc direct body)
  match q.2.egress direct dst body with
  | some p => sendOn q.2 direct p ⟨dst, s.devId, false, tag, q.1, body⟩
  | none => q.2.satF Reg.CLX_STAT 31 16 1

/-- Send a message to every neighbour (bcast, Table 12.4). -/
def fabBroadcast (s : State) (body : FabBody) : State :=
  let q := nextMseq s (4 * 65536)
  s.upPorts.foldl (fun s p => sendOn s false p ⟨0, s.devId, true, 0, q.1, body⟩) q.2

/-! ### The tick group -/

/-- This device is a member, the manager, the standby of a tick group (Table 12.18). -/
def State.inGroup (s : State) : Bool := decide (s.fldR Reg.CLX_STAT 62 62 = 1)
@[inherit_doc State.inGroup] def State.isManager (s : State) : Bool := decide (s.fldR Reg.CLX_STAT 61 61 = 1)
@[inherit_doc State.inGroup] def State.isStandby (s : State) : Bool := decide (s.fldR Reg.CLX_STAT 60 60 = 1)

/-- This device is the manager named, whether or not its group has had its first edge (R326). -/
def State.leads (s : State) : Bool := decide (s.fldR Reg.CLX_MGR 15 15 = 1 ∧ s.fldR Reg.CLX_MGR 63 48 = s.devId)

/-- The manager, the standby, the fabric root, when there is one (Table 12.19). -/
def State.manager (s : State) : Option Nat := if s.fldR Reg.CLX_MGR 15 15 = 1 then some (s.fldR Reg.CLX_MGR 63 48) else none
@[inherit_doc State.manager] def State.standby (s : State) : Option Nat :=
  if s.fldR Reg.CLX_MGR 14 14 = 1 then some (s.fldR Reg.CLX_MGR 47 32) else none
@[inherit_doc State.manager] def State.root (s : State) : Option Nat :=
  if s.fldR Reg.CLX_MGR 13 13 = 1 then some (s.fldR Reg.CLX_MGR 31 16) else none

/-- Send to the manager, if there is one and it is another device. -/
def toManager (s : State) (body : FabBody) : State := match s.manager with
  | some m => if m = s.devId then s else fabSend s false m 0 body
  | none => s

/-- Change the record of a member. -/
def updMember (s : State) (id : Nat) (f : Member → Member) : State :=
  s.putFab { s.fab with members := s.fab.members.map fun m => if m.id = id then f m else m }

/-- A READY already sent is withdrawn: UNREADY to the manager (R331). -/
def withdrawReady (s : State) : State :=
  if !s.fab.readySent then s
  else toManager (updMember (s.putFab { s.fab with readySent := false }) s.devId fun m => { m with ready := false })
    (.unready s.tickNum)

/-- The group table entry (Table 13.6): VALID, PARTITION, ALGO, SIZE, RANK, KEY. -/
structure Group where
  valid : Bool
  part : Nat
  algo : Nat
  size : Nat
  rank : Nat
  key : Nat
  members : List Nat

/-- Group g, with the member list read when VALID was set (R338). -/
def State.group (s : State) (g : Nat) : Group :=
  let w := s.reg (Reg.CLX_GROUP_CFG g)
  ⟨decide (fld w 63 63 = 1), fld w 62 59, fld w 58 58, fld w 57 41, fld w 40 25, fld w 24 9,
    ((s.fab.groups.find? fun x => decide (x.1 = g)).map (·.2)).getD []⟩

/-- Send a collective message to a rank of a group. -/
def sendRank (s : State) (g : Group) (rank tag : Nat) (body : FabBody) : State :=
  fabSend s (decide (g.algo = 1)) (g.members.getD rank 0) tag body

end Sys2Proof.Machine
end

