-- ==== Sys2Proof/Machine/Work.lean ====
section
/-!
DEFINITION. The operations every command shares: the in-flight table (R98), the record of a completion (R103 to R106), holding for an
unavailable unit (R24), teardown (R373), the confined unpredictable outcome (R19 to R21), and the device transitions that take power or
work away (Table 0.6, R275). What a completion does is in Complete.lean.
-/
namespace Sys2Proof.Machine

/-! ### Packet headers (Table 3.5) -/

/-- Header word i of a packet. -/
def Packet.w (p : Packet) (i : Nat) : Word := p.hdr.getD i 0

/-- Fields of the header. -/
def Packet.op (p : Packet) : Nat := fld (p.w 0) 63 56
@[inherit_doc Packet.op] def Packet.stages (p : Packet) : Nat := fld (p.w 0) 55 52
@[inherit_doc Packet.op] def Packet.fence (p : Packet) : Bool := decide (fld (p.w 0) 51 51 = 1)
@[inherit_doc Packet.op] def Packet.irq (p : Packet) : Bool := decide (fld (p.w 0) 50 50 = 1)
@[inherit_doc Packet.op] def Packet.tag (p : Packet) : Nat := fld (p.w 1) 63 32
@[inherit_doc Packet.op] def Packet.kh (p : Packet) : Nat := fld (p.w 2) 63 32
@[inherit_doc Packet.op] def Packet.sh (p : Packet) : Nat := fld (p.w 2) 31 0
@[inherit_doc Packet.op] def Packet.len (p : Packet) : Nat := fld (p.w 3) 63 39
@[inherit_doc Packet.op] def Packet.count (p : Packet) : Nat := fld (p.w 3) 19 0

/-- Opcodes of Table 3.6. -/
abbrev opcMatmul : Nat := 0x01
@[inherit_doc opcMatmul] abbrev opcConv : Nat := 0x02
@[inherit_doc opcMatmul] abbrev opcScan : Nat := 0x03
@[inherit_doc opcMatmul] abbrev opcAttn : Nat := 0x04
@[inherit_doc opcMatmul] abbrev opcUpdate : Nat := 0x05
@[inherit_doc opcMatmul] abbrev opcRngFill : Nat := 0x06
@[inherit_doc opcMatmul] abbrev opcLoad : Nat := 0x10
@[inherit_doc opcMatmul] abbrev opcStore : Nat := 0x11
@[inherit_doc opcMatmul] abbrev opcMigrate : Nat := 0x12
@[inherit_doc opcMatmul] abbrev opcFork : Nat := 0x20
@[inherit_doc opcMatmul] abbrev opcPark : Nat := 0x21
@[inherit_doc opcMatmul] abbrev opcResume : Nat := 0x22
@[inherit_doc opcMatmul] abbrev opcEvent : Nat := 0x30
@[inherit_doc opcMatmul] abbrev opcWait : Nat := 0x31
@[inherit_doc opcMatmul] abbrev opcTickFence : Nat := 0x32
@[inherit_doc opcMatmul] abbrev opcCollective : Nat := 0x40
@[inherit_doc opcMatmul] abbrev opcConfig : Nat := 0x50
@[inherit_doc opcMatmul] abbrev opcCommit : Nat := 0x51

/-- A compute opcode (0x01 to 0x06). -/
def isCompute (op : Nat) : Bool := decide (1 ≤ op ∧ op ≤ 6)

/-- An opcode of Table 3.6 (R88, R89). -/
def opDefined (op : Nat) : Bool :=
  [0x01, 0x02, 0x03, 0x04, 0x05, 0x06, 0x10, 0x11, 0x12, 0x20, 0x21, 0x22, 0x30, 0x31, 0x32, 0x40, 0x50, 0x51].contains op

/-- Commands admitted only after every earlier one and before every later one (R100). -/
def isSerial (op : Nat) : Bool := [0x20, 0x21, 0x22, 0x31, 0x32, 0x50, 0x51].contains op

/-! ### Entries -/

/-- The in-flight entry of a number. -/
def State.entry (s : State) (id : Nat) : Option Entry := s.flight.find? fun e => decide (e.id = id)

/-- Change one entry. -/
def State.updEntry (s : State) (id : Nat) (f : Entry → Entry) : State :=
  s.putFlight (s.flight.map fun e => if e.id = id then f e else e)

/-- Free one entry. -/
def State.dropEntry (s : State) (id : Nat) : State := s.putFlight (s.flight.filter fun e => decide (e.id ≠ id))

/-- Entries of a ring, of a context, of a partition. -/
def State.ringFlight (s : State) (r : Nat) : List Entry := s.flight.filter fun e => decide (e.ring = r)
@[inherit_doc State.ringFlight] def State.ctxFlight (s : State) (n : Nat) : List Entry :=
  s.flight.filter fun e => decide (e.ctx = n)
@[inherit_doc State.ringFlight] def State.partFlight (s : State) (p : Nat) : List Entry :=
  s.flight.filter fun e => decide (e.part = p)

/-- Every command of the ring so far has completed (R92, R100). -/
def State.ringIdle (s : State) (r : Nat) : Bool := (s.ringFlight r).all (·.done)

/-- Charge core time to a context and its command (R45). -/
def charge (s : State) (e : Entry) (t : Nat) : State :=
  let s1 := tally (s.setCtx e.ctx { s.ctx e.ctx with used := (s.ctx e.ctx).used + t }) (telPart e.part telCoreTime) t
  s1.updEntry e.id fun x => { x with core := x.core + t }

/-- What a completion reports. -/
structure Completion where
  status : Nat
  stage : Option Nat := none
  addr : Nat := 0
  payload : List Byte := []
  /-- Time since the opening edge in 10 ns units, where the row gives it. -/
  time : Option Nat := none
  tear : Option Nat := none

/-- Commands that wait for edges by what they are: TICK_FENCE, PARK and RESUME are never outstanding work and never late
(R37, R92; log entry 26). -/
def edgeBound (op : Nat) : Bool := decide (op = opcTickFence ∨ op = opcPark ∨ op = opcResume)

/-- An LC command whose interval has closed is late (R44). -/
def State.lateOf (s : State) (e : Entry) : Bool := e.lc && decide (e.admitTick < s.tickNum) && !edgeBound e.pkt.op

/-- The record of a completion (Table 3.12): OK becomes TICK_OVERRUN when late (R44, R106). -/
def recordOf (s : State) (e : Entry) (c : Completion) : Record :=
  let late := s.lateOf e
  let st := if c.status = 0 ∧ late then 5 else c.status
  let p := e.pkt
  { entry := e.id
    words := [
      BitVec.ofNat 64 (p.op * 2 ^ 56 + st % 256 * 2 ^ 48 + (c.stage.getD 0) % 16 * 2 ^ 44 + b2n c.stage.isSome * 2 ^ 43 +
        c.payload.length % 2 ^ 19),
      BitVec.ofNat 64 (p.tag * 2 ^ 32 + p.index % 2 ^ 32),
      BitVec.ofNat 64 (e.admitTick % 2 ^ 32 * 2 ^ 32 + e.ring % 2 ^ 18),
      BitVec.ofNat 64 (s.tickNum % 2 ^ 32 * 2 ^ 32 + min e.core (2 ^ 32 - 1)),
      BitVec.ofNat 64 (min (if isCompute p.op then e.spills else e.detail) (2 ^ 32 - 1) * 2 ^ 32 + b2n e.under * 2 + b2n e.sat),
      BitVec.ofNat 64 c.addr,
      BitVec.ofNat 64 (b2n late)]
    payload := c.payload
    irq := p.irq
    tear := c.tear }

/-- Hold a command for an unavailable unit, counting from now (R24). -/
def holdEntry (s : State) (id : Nat) : State :=
  s.updEntry id fun e => { e with held := some (e.held.getD s.tickNum) }

/-! ### Teardown (R373) -/

/-- Send an abort for an admitted COLLECTIVE to every other rank (R349). -/
def sendAborts (s : State) (e : Entry) : State :=
  let g := s.group (fld (e.pkt.w 4) 59 52)
  let op := fld (e.pkt.w 4) 63 60
  (List.range g.size).foldl (fun s r =>
    if r = g.rank then s
    else sendRank s g r (fld (e.pkt.w 6) 63 32) (.coll op g.key g.rank 0 true 0 0 [])) s

/-- The receive store without the messages of a collective that failed (R348, R349). -/
def dropStored (k : Nat × Nat) (l : List FabMsg) : List FabMsg := l.filter fun m => match m.body with
  | .coll _ key .. => !decide ((key, m.tag) = k)
  | _ => true

/-- Free what the context holds outside its memory: eyelet slots unflushed, state slots, retained ranges, queued moves,
in-flight entries, records (R373 steps 1 to 5). -/
def releaseCtx (s : State) (n : Nat) : State :=
  s
      |>.putFlight (s.flight.filter fun e => decide (e.ctx ≠ n))
      |>.putKv { s.kv with slots := s.kv.slots.filter (fun k => decide (k.ctx ≠ n)), reserved := s.kv.reserved.filter (fun k => decide (k.2.1 ≠ n)) }
      |>.putImages (s.images.filter fun k => decide (k.1 ≠ n))
      |>.putSlots (s.slots.filter fun k => decide (k.ctx ≠ n))
      |>.putTick { s.tick with discards := s.tick.discards.filter fun k => decide (k.1 ≠ n) }
      |>.putRetained (s.retained.filter fun k => decide (k.ctx ≠ n))
      |>.putMig { s.mig with queue := s.mig.queue.filter fun k => decide (k.ctx ≠ n) }
      |>.putMem { s.mem with leaves := s.mem.leaves.filter fun k => decide (k.2.1 ≠ n) }

/-- Close every ring of the context without the discard of R82 (R373 step 6). -/
def dropRings (s : State) (n : Nat) : State :=
  let c := s.ctx n
  s.putRings (s.rings.filter fun r => decide (r.1 < c.first ∨ c.first + c.count ≤ r.1))

/-- Tear a context down with a cause (R373): aborts, release, rings closed, one MSI-X signal if ENABLE, TORN_DOWN. -/
def teardown (s : State) (n cause : Nat) : State :=
  if s.ctxState n = 0 ∨ s.ctxState n = 5 then s
  else
    let colls := (s.ctxFlight n).filter fun e => decide (e.pkt.op = opcCollective) && !e.done
    let s1 := colls.foldl sendAborts s
    let s2 := dropRings (releaseCtx s1 n) n
    let c := s2.ctx n
    let s3 := if c.saving.isSome then s2.setF Reg.CTX_CMD_STATUS 63 63 0 else s2
    let s4 := s3.setCtx n { c with state := 5, cause := cause, recs := [], closing := false, saving := none, unsignalled := 0 }
    let s5 := if s4.fldR (Reg.RING_RET_CFG n) 63 63 = 1
      then signalMsi s4 (s4.ctxFn n) (s4.fldR (Reg.RING_RET_CFG n) 42 32) else s4
    logError s5 { source := srcTeardown, sev := 2, code := cause, ctx := some n }

/-- Tear down each context of a list. -/
def teardownAll (s : State) (l : List Nat) (cause : Nat) : State := l.foldl (fun s n => teardown s n cause) s

/-- Enter a device state (R3): PREV_STATE and STATE change, and a platform event is sent (R421). In SAFE the weight areas are all stream:
nothing is retained or fetched ahead (R176). -/
def enterState (s : State) (dst : Nat) : State :=
  let s1 := if dst = stSafe then (s.putRetained []).putPrefetched [] else s
  platformEvent ((s1.setF Reg.GLB_STATE 6 4 s1.devState).setF Reg.GLB_STATE 2 0 dst) 0 dst

/-! ### Unpredictable outcomes (R19 to R21) -/

/-- The scope an unpredictable outcome is stated with (R19). -/
inductive Scope where
  | ctx (n : Nat)
  | part (p : Nat)
  | device
  deriving DecidableEq, Repr

/-- The contexts in a scope. -/
def State.inScope (s : State) (sc : Scope) (n : Nat) : Bool :=
  decide (s.ctxState n = 1) && match sc with
  | .ctx m => decide (n = m)
  | .part p => decide (s.ctxPart n = p)
  | .device => true

/-- One unpredictable write, made only where the context may write (R20, R21). -/
def unpredWrite (s : State) (sc : Scope) (w : Nat × Nat × Byte) : State :=
  if s.inScope sc w.1 then (vwrite s w.1 w.2.1 [w.2.2]).1 else s

/-- The teardown of the last context that was not torn down yet takes RUN to READY, when it is an unpredictable outcome's (R21; log
entry 68). -/
def readyOnTear (s : State) : State :=
  if s.devState = stRun ∧ s.openCtxs.all (fun n => decide (s.ctxState n = 5)) = true then enterState s stReady else s

/-- An unpredictable outcome: writes of free values where the scope may write, and a free choice of contexts in the
scope torn down; nothing outside the scope (R20, R21). -/
def unpredictable (s : State) (sc : Scope) : State :=
  let k := s.free
  let s1 := (Config.unpredWrites k).foldl (fun s w => unpredWrite s sc w) (s.putFree (k + 1))
  let torn := (Config.unpredTear k).filter (s1.inScope sc)
  let s2 := torn.foldl (fun s n => teardown s n (Config.freeNat k % 32)) s1
  if torn = [] then s2 else readyOnTear s2

/-! ### Device transitions -/

/-- Registers held in PD00: GLB_STATE, the PWR and THM blocks and MGT, TEL excepted (Table 15.21, log entry 6). -/
def inPd00 (off : Nat) : Bool :=
  decide (off = Reg.GLB_STATE ∨ (0x1300000 ≤ off ∧ off < 0x1500000) ∨ (0x1600000 ≤ off ∧ off < 0x1600800) ∨
    (0x1601000 ≤ off ∧ off < 0x1700000))

/-- Registers of PD01 and PD02 besides: the SEC, HOL and GLB blocks. -/
def inPd01 (off : Nat) : Bool :=
  decide (off < 0x100000 ∨ (0x1500000 ≤ off ∧ off < 0x1600000) ∨ 0x1800000 ≤ off)

/-- Work lost when every domain but PD00 (and, in FAULT, PD01 and PD02) is off: contexts, rings, commands, state slots, KV and
fabric state; the registers kept are those of `keep`, the memory is `m`. -/
def loseDomains (s : State) (keep : Nat → Bool) (on : Nat) (m : Mem) : State :=
  s
      |>.putRegs (s.regs.filter fun r => keep r.1)
      |>.putEff (s.eff.filter fun r => keep r.1)
      |>.putTick State.reset.tick
      |>.putCtxs []
      |>.putRings []
      |>.putFlight []
      |>.putSlots []
      |>.putMem m
      |>.putMig ⟨[], List.replicate 16 0, []⟩
      |>.putRetained []
      |>.putPrefetched []
      |>.putKv State.reset.kv
      |>.putImages []
      |>.putFab State.reset.fab
      |>.putPwr { s.pwr with on := on, ready := on }
      |>.putHol { s.hol with pendFull := none, pendFrag := none, drainLeft := 0, draining := false, expired := false, storing := none }
      |>.putDev { s.dev with stateReq := none }

/-- Enter STANDBY or OFF: every domain but PD00 off, both tiers lost, PCIe link down (R275, Table 0.5). `bmc` marks a BMC
power-off, which starts no boot (R381). -/
def powerDown (s : State) (dst : Nat) (bmc : Bool) : State :=
  let s1 := loseDomains (enterState s dst) inPd00 (if dst = stOff then 0 else 1) Mem.empty
  s1
      |>.putDev { s1.dev with
        bmcOff := bmc
        linkUp := false
        linkSpeed := 0
        linkWidth := 0
        fwRunning := false
        badCores := 0
        badVaults := 0
        badPorts := 0 }
      |>.putFns FnCfg.resetAll
      |>.putMsix []
      |>.putHol { s1.hol with window := [], cur := noLayout, verified := false }
      |>.putSec { s1.sec with udsLocked := false, op := none, aliasSeeds := [], conns := [SpdmConn.none, SpdmConn.none] }

/-- Enter FAULT with a cause logged at severity 3; the log is written to flash, and only PD00 to PD02 stay on (R425,
Table 0.5). The memory keeps its contents (R275; log entry 83). -/
def enterFault (s : State) (source code : Nat) : State :=
  let s1 := snapshotLog (logError s { source := source, sev := 3, code := code })
  loseDomains (enterState s1 stFault) (fun off => inPd00 off || inPd01 off) 7
    { s1.mem with clearing := [], waiting := [], leaves := [] }

/-- Causes logged with FAULT (R378, R392, R404). -/
abbrev causeInputOv : Nat := 1
@[inherit_doc causeInputOv] abbrev causeThermalTrip : Nat := 2
@[inherit_doc causeInputOv] abbrev causeBootTimeout : Nat := 3
@[inherit_doc causeInputOv] abbrev causeNoFirmware : Nat := 4

end Sys2Proof.Machine
end

