-- ==== Sys2Proof/Machine/Complete.lean ====
section
/-!
DEFINITION. What the end of a command does: its record on the return ring of its context, or none where the ring cannot hold it; the
states of rings and contexts that wait for it; and how a memory error ends a command (R22, R24, R80, R82, R103, R104, R293, R360, R450).
-/
namespace Sys2Proof.Machine

/-- The scheduling class in force for a context: 0 LC, 1 BE (Table 14.14). -/
def State.ctxClass (s : State) (n : Nat) : Nat := s.effF (Reg.CTX_CFG n) 61 61

/-! ### Ring descriptors (Table 3.2) -/

/-- inflight_limit as applied. -/
def Ring.limit (g : Ring) : Nat := min 256 (fld g.w1 58 50)

/-- What the failure of an access that the part makes on its own account for context n does: unavailable memory leaves the state `s0`
before it (R450); a translation fault or an error tears the context down with a cause, from the state `s1` after it (R22, R373). -/
def ownFails (s0 s1 : State) (n cause : Nat) : MErr → State
  | .unavail | .wait => s0
  | .host => unpredictable s1 (.ctx n)
  | .trans _ => teardown s1 n 1
  | .data .. => teardown s1 n cause

/-- A write of context n that the part makes on its own account, outside any command (R289, R450). -/
def ownWrite (s : State) (n va : Nat) (bs : List Byte) : State :=
  afterClears s fun s => match vwrite s n va bs with
    | (s1, none) => s1
    | (s1, some x) => ownFails s s1 n 2 x

/-- Write back descriptor words 4 and 5 (R80). -/
def writeBack (s : State) (r : Nat) : State :=
  match s.ctxOfRing r with
  | none => s
  | some n =>
    let g := s.ring r
    let w5 := g.state * 2 ^ 61 + (s.ringFlight r).length % 2 ^ 9 * 2 ^ 52
    ownWrite s n (g.descVa + 32) (leBytes 8 (g.head % 2 ^ 32 * 2 ^ 32 + g.tail) ++ leBytes 8 w5)

/-- The state a ring that fetches is in: PARKED while its stream is parked (R38). -/
def Ring.base (g : Ring) : Nat := if g.parked then 4 else 2

/-- Change a ring's state and write its descriptor back. -/
def setRingState (s : State) (r st : Nat) : State :=
  if (s.ring r).state = st then s else writeBack (s.setRing r { s.ring r with state := st }) r

/-- The rings of a RING_CTL write. -/
def ringRange (first count : Nat) : List Nat := (List.range count).map (first + ·)

/-- Entries of return ring n (R18). -/
def State.retCap (s : State) (n : Nat) : Nat := 16 * 2 ^ s.fldR (Reg.RING_RET_CFG n) 62 59

/-- A context becomes FREE; the core time it was charged in this interval, and a deferral, are kept for the edge (Table 1.9). With the
last close RUN becomes READY (Table 0.6). -/
def freeCtx (s : State) (n : Nat) : State :=
  let c := s.ctx n
  let s1 := s.putTick { s.tick with gone := (n, c.used, c.deferred) :: s.tick.gone.filter fun x => decide (x.1 ≠ n) }
  let s2 := s1.setCtx n { Ctx.free with part := c.part, fn := c.fn }
  if s2.devState = stRun ∧ s2.openCtxs = [] then enterState s2 stReady else s2

/-- With the first open context READY becomes RUN (Table 0.6). -/
def runOnOpen (s : State) : State := if s.devState = stReady ∧ s.openCtxs ≠ [] then enterState s stRun else s

/-- The command ring a record names (Table 3.12). -/
def Record.ring (r : Record) : Nat := fld (r.words.getD 2 0) 17 0

/-- A CLOSING ring with no command in flight and no record waiting, one kept by a save included, reads CLOSED, and the
discard of its live stream is due at the next edge (R82, R369). -/
def settleRing (s : State) (r : Nat) : State :=
  if (s.ring r).state = 5 ∧ s.ringFlight r = [] ∧ (s.ctx (s.ring r).owner).recs.all (fun x => decide (x.ring ≠ r)) = true then
    let s1 := (setRingState s r 0).setRing r Ring.closed
    match (s.ring r).stream with
    | some x =>
      if (s.ring r).discardDue ∧ s1.ctxState (s.ring r).owner ≠ 5 then
        s1.putTick { s1.tick with discards := s1.tick.discards ++ [((s.ring r).owner, x.sh, x.kh)] }
      else s1
    | none => s1
  else s

/-- The context becomes FREE when it is closing and its last ring reads CLOSED (R360). -/
def settleCtx (s : State) (n : Nat) : State :=
  let c := s.ctx n
  if c.closing ∧ (ringRange c.first c.count).all (fun r => decide ((s.ring r).state = 0)) ∧ s.ctxFlight n = [] ∧ c.recs = []
  then freeCtx s n else s

/-- After a record is written its entry is freed, its ring may read CLOSED, its context may be torn down or freed
(R82, R98, R107, R360). -/
def afterRecord (s : State) (n : Nat) (r : Record) : State :=
  let s1 := s.dropEntry r.entry
  match r.tear with
  | some cause => teardown s1 n cause
  | none => settleCtx (settleRing s1 r.ring) n

/-- The record is larger than the whole return ring of its context (R104). -/
def State.oversized (s : State) (n : Nat) (r : Record) : Bool := decide (s.retCap n < packetEntries r.payload.length)

/-- The command of a record larger than its return ring: no record, its entry freed at once, and an unpredictable outcome within its
context (R20, R104). -/
def dropRecord (s : State) (n : Nat) (r : Record) : State := afterRecord (unpredictable s (.ctx n)) n r

/-- The waiting records of a context that its return ring, as it now is, could never hold are dropped (R104). -/
def purgeRecords (s : State) (n : Nat) : State :=
  let c := s.ctx n
  let big := c.recs.filter (s.oversized n)
  if big = [] then s
  else big.foldl (fun s r => dropRecord s n r) (s.setCtx n { c with recs := c.recs.filter fun r => !s.oversized n r })

/-- The moment of a completion of e, for BUSY_END and for the edge that waits for it: the time its row gives, or one not given (Tables
1.2 and 1.6; log entry 66). -/
def noteEnd (s : State) (e : Entry) (time : Option Nat) : State :=
  let k := s.tick
  let own := decide (e.admitTick = s.tickNum) && !edgeBound e.pkt.op
  let upTo (b : Bool) (v : Nat) : Nat := if b then max v (time.getD 0) else v
  let open_ (b was : Bool) : Bool := if b then time.isNone else was
  s.putTick { k with
    busyEnd := upTo e.lc k.busyEnd, busyOpen := open_ e.lc k.busyOpen
    lcEnd := upTo (own && e.lc) k.lcEnd, lcOpen := open_ (own && e.lc) k.lcOpen
    allEnd := upTo own k.allEnd, allOpen := open_ own k.allOpen }

/-- Complete a command: its status is fixed now and its record waits for the return ring (R103, R104); a COLLECTIVE is
counted (Table 13.8). -/
def complete (s : State) (id : Nat) (c : Completion) : State :=
  match s.entry id with
  | none => s
  | some e =>
    if e.done then s
    else
      let r := recordOf s e c
      let s1 := if e.pkt.op = opcCollective then s.addF Reg.CLX_COLL_STAT 63 32 1 else s
      let s2 := s1.updEntry id fun e => { e with done := true, held := none, space := [] }
      let s3 := noteEnd (if s.lateOf e then tally s2 (telPart e.part telLate) 1 else s2) e c.time
      if s.oversized e.ctx r then dropRecord s3 e.ctx r
      else s3.setCtx e.ctx { s3.ctx e.ctx with recs := (s3.ctx e.ctx).recs ++ [r] }

/-- A host error of a command whose outcome is unpredictable within a scope that holds its context: its one record carries a free
status (R20, R24). -/
def unpredCommandIn (s : State) (id : Nat) (sc : Scope) : State :=
  complete (unpredictable s sc) id { status := Config.unpredStatus s.free % 256 }

/-- A command whose content is a host error: unpredictable within its context (R19, R20). -/
def unpredCommand (s : State) (id : Nat) : State :=
  match s.entry id with
  | none => s
  | some e => unpredCommandIn s id (.ctx e.ctx)

/-- The accounting of an access of context c that failed, when what came before it does not stand: its walk, and the error it met
(R292, R293). -/
def noteErr (s : State) (c : Nat) : MErr → State
  | .trans va => walked s c va
  | .data _ va => vtouch s c va 1
  | _ => s

/-- A command meets a memory error: translation faults tear the context down after the record (R22, R107), data errors
fail the stage (R293), unavailable memory holds the command (R450), a frame being cleared makes it wait, so that its row is not due
(R289), and a host error is unpredictable within the context (R20). -/
def failEntry (s : State) (id : Nat) (stage : Option Nat) (m : MErr) : State := match m with
  | .trans va => complete s id { status := 2, stage := stage, addr := va, tear := some 1 }
  | .data st va => complete s id { status := st, stage := stage, addr := va }
  | .unavail => holdEntry s id
  | .wait => s
  | .host => unpredCommand s id

end Sys2Proof.Machine
end

