-- ==== Sys2Proof/Machine/Kv.lean ====
section
/-!
DEFINITION. The KV unit (08_attention_and_kv.md R208 to R223): lists, planes, page tables, pools, the eyelet buffer,
appends, flushes with copy-on-write, forks and the freeing of lists.
-/
namespace Sys2Proof.Machine

/-- A state and the memory error that stops what is being done. -/
abbrev M := State × Option MErr

/-- Go on unless an error has occurred. -/
def M.next (m : M) (f : State → M) : M := if m.2.isSome then m else f m.1

/-- A fold that stops at the first error. -/
def foldM {α : Type} (f : State → α → M) (s : State) (l : List α) : M := l.foldl (fun m a => m.next fun s => f s a) (s, none)

/-- Write bytes of context c. -/
def wrB (s : State) (c va : Nat) (bs : List Byte) : M := vwrite s c va bs

/-- Write an 8-byte word of context c. -/
def wr64 (s : State) (c va v : Nat) : M := vwrite s c va (leBytes 8 v)

/-- Read words of context c. -/
def vwords (s : State) (c va n : Nat) : Except MErr (List Nat) :=
  (vread s c va (8 * n)).map fun bs => (List.range n).map fun i => wnat bs i

/-- What a read of context c that fails leaves: its error is accounted (R292, R293). -/
def failing (s : State) (c : Nat) (x : MErr) : M := (noteErr s c x, some x)

/-- Go on with what has been read, accounted by its user, or with the error it met. -/
def got {α : Type} (s : State) (c : Nat) (r : Except MErr α) (f : α → M) : M := match r with
  | .error x => failing s c x
  | .ok a => f a

/-- Go on with what was read from n bytes at va; the read is accounted (R286, R292). -/
def reading {α : Type} (s : State) (c va n : Nat) (r : Except MErr α) (f : State → α → M) : M := match r with
  | .error e => failing s c e
  | .ok a => f (vtouch s c va n) a

/-- Map with errors: the results in order, or the reason that stands of those that fail (R106). -/
def mapE {α β : Type} (f : α → Except MErr β) : List α → Except MErr (List β)
  | [] => .ok []
  | a :: l => (both (f a) (mapE f l)).map fun x => x.1 :: x.2

/-- A piece of the range lies outside class C (R212, R264). -/
def State.notClassC (s : State) (c va n : Nat) : Bool :=
  (pieces va n).any fun pc => match translate s c pc.1 false with
    | .ok l => decide (s.classOf l.pa ≠ 0)
    | .error _ => false

/-! ### Records (Tables 8.1 to 8.4) -/

/-- Address of the list record of a handle. -/
def State.listVa (s : State) (c h : Nat) : Nat := s.fldR (Reg.KV_CTX_LIST c) 51 5 * 32 + 32 * h

/-- Page size Z of a context in bytes (R209). -/
def State.pageSize (s : State) (c : Nat) : Nat := s.fldR (Reg.KV_CTX_CFG c) 63 55 * 1024

/-- Address of pool record i. -/
def State.poolVa (s : State) (c i : Nat) : Nat := s.fldR (Reg.KV_CTX_POOL c) 51 4 * 16 + 16 * i

/-- A plane record (Table 8.2) with its address and list. -/
structure Plane where
  list : Nat
  plane : Nat
  va : Nat
  length : Nat
  forkLen : Nat
  fmt : Nat
  hkv : Nat
  dh : Nat
  table : Nat
  cap : Nat
  first : Nat
  valid : Bool
  slot : Nat
  parent : Nat
  deriving DecidableEq, Repr

/-- Read plane p of list h. -/
def readPlane (s : State) (c h p : Nat) : Except MErr Plane :=
  match vwords s c (s.listVa c h) 4 with
  | .error e => .error e
  | .ok l =>
    let va := bits (l.getD 0 0) 51 0 + 32 * p
    (vwords s c va 4).map fun w =>
      let w0 := w.getD 0 0
      let w1 := w.getD 1 0
      let w3 := w.getD 3 0
      ⟨h, p, va, bits w0 63 39, bits w0 38 14, bits w0 13 10, bits w1 63 55, bits w1 54 46, bits (w.getD 2 0) 51 0,
        bits w3 63 40, bits w3 39 16, w3.testBit 15, bits w3 11 0, bits (l.getD 1 0) 63 32⟩

/-- Go on with plane p of list h; the reads of its records are accounted. -/
def readingPlane (s : State) (c h p : Nat) (f : State → Plane → M) : M := match readPlane s c h p with
  | .error e => (s, some e)
  | .ok pl => f (vtouch (vtouch s c (s.listVa c h) 32) c pl.va 32) pl

/-- Planes of a list. -/
def State.planeCount (s : State) (c h : Nat) : Except MErr Nat :=
  (vwords s c (s.listVa c h) 1).map fun l => bits (l.getD 0 0) 63 56

/-- Write a plane's part-written fields: length, fork_len, format, geometry, first_page, slot. -/
def writePlane (s : State) (c : Nat) (p : Plane) : M :=
  (wr64 s c p.va (p.length * 2 ^ 39 + p.forkLen * 2 ^ 14 + p.fmt * 2 ^ 10)).next fun s =>
  (wr64 s c (p.va + 8) (p.hkv * 2 ^ 55 + p.dh * 2 ^ 46)).next fun s =>
    wr64 s c (p.va + 24) (p.cap * 2 ^ 40 + p.first * 2 ^ 16 + b2n p.valid * 2 ^ 15 + p.slot)

/-- Row bytes r, positions per page P, positions per slot S (R209, R215). -/
def Plane.r (p : Plane) : Nat := p.dh * inBits p.fmt / 8
@[inherit_doc Plane.r] def Plane.perPage (p : Plane) (z : Nat) : Nat := if p.hkv * p.r = 0 then 0 else z / 2 / (p.hkv * p.r)
@[inherit_doc Plane.r] def Plane.perSlot (p : Plane) : Nat := if p.hkv * p.r = 0 then 0 else 2048 / (p.hkv * p.r)

/-- A page-table entry's code of a stamp and back (Table 8.3). -/
def stampCode (e : Int) : Nat := toTwos 9 e

/-- A page-table entry. -/
structure Pte where
  kExp : Int
  vExp : Int
  page : Nat
  deriving DecidableEq, Repr

/-- Address of the entry for page index i. -/
def Plane.pteVa (p : Plane) (i : Nat) : Nat := p.table + 8 * (i - p.first)

/-- Read the entry for page index i. -/
def readPte (s : State) (c : Nat) (p : Plane) (i : Nat) : Except MErr Pte :=
  (vread64 s c (p.pteVa i)).map fun w => ⟨sext 9 (bits w 63 55), sext 9 (bits w 54 46), bits w 31 0⟩

/-- Write it. -/
def writePte (s : State) (c : Nat) (p : Plane) (i : Nat) (e : Pte) : M :=
  wr64 s c (p.pteVa i) (stampCode e.kExp * 2 ^ 55 + stampCode e.vExp * 2 ^ 46 + e.page % 2 ^ 32)

/-! ### The pool (R211, R219) -/

/-- Pool size and free pages of a context. -/
def State.pool (s : State) (c : Nat) : Nat × List Nat :=
  ((s.kv.pools.find? fun p => decide (p.1 = c)).map (·.2)).getD (0, [])

/-- Set them. -/
def State.setPool (s : State) (c : Nat) (p : Nat × List Nat) : State :=
  s.putKv { s.kv with pools := s.kv.pools.filter (fun q => decide (q.1 ≠ c)) ++ [(c, p)] }

/-- refs of page i, and a change of it. -/
def readRefs (s : State) (c i : Nat) : Except MErr Nat := (vread64 s c (s.poolVa c i + 8)).map fun w => bits w 63 32
@[inherit_doc readRefs] def writeRefs (s : State) (c i n : Nat) : M := wr64 s c (s.poolVa c i + 8) (n * 2 ^ 32)

/-- Return a page to the head of the free list: refs 0, next the former head (R211; log entry 12). -/
def freePage (s : State) (c i : Nat) : M :=
  let p := s.pool c
  (wr64 s c (s.poolVa c i + 8) (p.2.headD (2 ^ 32 - 1))).next fun s => (s.setPool c (p.1, i :: p.2), none)

/-- Lower refs of a page by one, freeing it at zero (R221). -/
def lowerPage (s : State) (c i : Nat) : M := reading s c (s.poolVa c i + 8) 8 (readRefs s c i) fun s n =>
  if n ≤ 1 then freePage s c i else writeRefs s c i (n - 1)

/-! ### Rows and stamps -/

/-- Row bytes of one element count: the values of a row. -/
def rowVals (fmt n : Nat) (bs : List Byte) : List Ex := (readRow fmt n bs []).1

/-- Smallest e with 2^e ≥ every magnitude, −256 for none nonzero (Table 8.3). -/
def stampOf (vs : List Ex) : Int :=
  let m := vs.foldl (fun m v => m.max v.abs) Ex.zero
  if m.num = 0 then -256 else m.clog2

/-- Key and value halves of a staged row: h_kv key rows then h_kv value rows. -/
def Plane.stamps (p : Plane) (row : List Byte) : Int × Int :=
  let n := p.hkv * p.r
  (stampOf (rowVals p.fmt (p.hkv * p.dh) (row.take n)), stampOf (rowVals p.fmt (p.hkv * p.dh) (row.drop n)))

/-- The larger of two stamps, key and value. -/
def joinStamps (a b : Int × Int) : Int × Int := (Max.max a.1 b.1, Max.max a.2 b.2)

/-- The stamps of rows, −256 of none. -/
def Plane.stampsOf (p : Plane) (rows : List (List Byte)) : Int × Int := rows.foldl (fun m r => joinStamps m (p.stamps r)) (-256, -256)

/-- The page's virtual address. -/
def pageVa (s : State) (c i : Nat) : Except MErr Nat := (vread64 s c (s.poolVa c i)).map fun w => bits w 51 0

/-- The halves (0 keys, 1 values) and heads of a page, head by head. -/
def Plane.runs (p : Plane) : List (Nat × Nat) := (List.range p.hkv).flatMap fun h => [(0, h), (1, h)]

/-- Where the rows of a run (half, head) lie from offset o on, in the page at va (R209). -/
def Plane.runVa (p : Plane) (z va : Nat) (x : Nat × Nat) (o : Nat) : Nat := va + x.1 * (z / 2) + (x.2 * p.perPage z + o) * p.r

/-- A run's part of one position's row bytes. -/
def Plane.ofRun (p : Plane) (x : Nat × Nat) (row : List Byte) : List Byte := (row.drop ((x.1 * p.hkv + x.2) * p.r)).take p.r

/-- Write the rows of positions from offset o on into a page: each head's rows as one run per half (R218). A page outside class C is a
host error (R212). -/
def putRows (s : State) (c : Nat) (p : Plane) (page o : Nat) (rows : List (List Byte)) : M :=
  reading s c (s.poolVa c page) 8 (pageVa s c page) fun s va =>
    foldM (fun s x =>
      let a := p.runVa (s.pageSize c) va x o
      let bs := rows.flatMap (p.ofRun x)
      if s.notClassC c a bs.length then (s, some .host) else wrB s c a bs) s p.runs

/-- Read one row of a page: a failing read names the row, and a page outside class C is a host error (R212). -/
def readRow1 (s : State) (c va n : Nat) : Except MErr (List Byte) := match vread s c va n with
  | .error (.data st _) => .error (.data st va)
  | .error x => .error x
  | .ok bs => if s.notClassC c va n then .error .host else .ok bs

/-- Read one position's rows from a page: its key rows, then its value rows. -/
def getRow (s : State) (c : Nat) (p : Plane) (page o : Nat) : Except MErr (List Byte) :=
  match pageVa s c page with
  | .error e => .error e
  | .ok va =>
    let half (x : Nat) := (mapE (fun h => readRow1 s c (p.runVa (s.pageSize c) va (x, h) o) p.r) (List.range p.hkv)).map List.flatten
    (both (half 0) (half 1)).map fun x => x.1 ++ x.2

/-- The accounting of reading n positions of a page from offset o on. -/
def touchRows (s : State) (c : Nat) (p : Plane) (page o n : Nat) : State :=
  let s1 := vtouch s c (s.poolVa c page) 8
  match pageVa s c page with
  | .error _ => s1
  | .ok va => p.runs.foldl (fun s x => vtouch s c (p.runVa (s.pageSize c) va x o) (n * p.r)) s1

/-- The eyelet slot of a plane. -/
def State.eyeSlot (s : State) (c h p : Nat) : Option EyeSlot :=
  s.kv.slots.find? fun k => decide (k.ctx = c ∧ k.list = h ∧ k.plane = p)

/-- Position q of plane p of list h: from its slot, its pages, or its parent, and the stamps of its page (R213); at most
64 parents. -/
def readKv (s : State) (c : Nat) : Nat → Nat → Nat → Nat → Except MErr (List Byte × Int × Int)
  | 0, _, _, _ => .error (.trans 0)
  | fuel + 1, h, pn, q => match readPlane s c h pn with
    | .error e => .error e
    | .ok p =>
      let pp := p.perPage (s.pageSize c)
      let i := if pp = 0 then 0 else q / pp
      if q < p.forkLen ∧ i < p.first then readKv s c fuel p.parent pn q
      else
        let staged := match s.eyeSlot c h pn with
          | some k => if p.valid ∧ k.pos ≤ q ∧ q < k.pos + k.rows.length then some k else none
          | none => none
        -- stamps cover the rows the list holds at the index, staged ones included (R223, R229)
        let stagedIn : List (Int × Int) := match s.eyeSlot c h pn with
          | some k => (k.rows.zipIdx.filter fun r => decide ((k.pos + r.2) / pp = i)).map fun r => p.stamps r.1
          | none => []
        let written := match s.eyeSlot c h pn with
          | some k => k.pos
          | none => p.length
        let base := if i * pp < written then readPte s c p i else .ok ⟨-256, -256, 2 ^ 32 - 1⟩
        match base with
        | .error e => .error e
        | .ok e =>
          let ke := stagedIn.foldl (fun m x => Max.max m x.1) e.kExp
          let ve := stagedIn.foldl (fun m x => Max.max m x.2) e.vExp
          match staged with
          | some k => if k.bad then .error (.data 4 p.va) else .ok (k.rows.getD (q - k.pos) [], ke, ve)
          | none => (getRow s c p e.page (q % pp)).map fun r => (r, ke, ve)

/-! ### Flushes and copy-on-write (R216, R222, R223) -/

/-- A flush in progress: its outcome so far and the pages it may take. -/
structure Flush where
  m : M
  res : List Nat

/-- Take a reserved page, with refs 1. -/
def Flush.take (f : Flush) (c : Nat) : Flush × Option Nat := match f.res with
  | [] => (f, none)
  | i :: is => (⟨f.m.next fun s => writeRefs s c i 1, is⟩, some i)

/-- Copy the rows the list holds in page `old`, n of them, into a new page (R222), and go on with them. -/
def copyRows (s : State) (c : Nat) (p : Plane) (old new n : Nat) (f : State → List (List Byte) → M) : M :=
  match mapE (getRow s c p old) (List.range n) with
  | .error e => (s, some e)
  | .ok rows => (putRows (touchRows s c p old 0 n) c p new 0 rows).next fun s => f s rows

/-- The rows at positions from q0 on, by the page they lie in: page index, offset of the first, rows. -/
def byPage (pp q0 : Nat) (rows : List (List Byte)) : List (Nat × Nat × List (List Byte)) :=
  (List.range (ceilDiv (q0 % pp + rows.length) pp)).map fun k =>
    let skip := k * pp - (if k = 0 then 0 else q0 % pp)
    if k = 0 then (q0 / pp, q0 % pp, rows.take (pp - q0 % pp)) else (q0 / pp + k, 0, (rows.drop skip).take pp)

/-- Write rows into one page index of the plane (R222, R223): into a new page where it has none, in place where no other list shares
its page, else into a copy of it. -/
def flushPage (c : Nat) (p : Plane) (f : Flush) (x : Nat × Nat × List (List Byte)) : Flush :=
  if f.m.2.isSome then f
  else
    let s := f.m.1
    let (i, o, rows) := x
    let st := p.stampsOf rows
    let onNew (act : State → Nat → M) : Flush := match f.take c with
      | (f1, none) => { f1 with m := (f1.m.1, some .unavail) }
      | (f1, some g) => { f1 with m := f1.m.next fun s => act s g }
    if o = 0 then onNew fun s g => (putRows s c p g 0 rows).next fun s => writePte s c p i ⟨st.1, st.2, g⟩
    else match readPte s c p i with
      | .error e => { f with m := (s, some e) }
      | .ok e => match readRefs s c e.page with
        | .error y => { f with m := (s, some y) }
        | .ok n =>
          let s1 := vtouch (vtouch s c (p.pteVa i) 8) c (s.poolVa c e.page + 8) 8
          if n ≤ 1 then
            let t := joinStamps (e.kExp, e.vExp) st
            { f with m := (putRows s1 c p e.page o rows).next fun s => writePte s c p i ⟨t.1, t.2, e.page⟩ }
          else onNew fun s g => copyRows s c p e.page g o fun s old =>
            let t := joinStamps (p.stampsOf old) st
            (putRows s c p g o rows).next fun s =>
            (writePte s c p i ⟨t.1, t.2, g⟩).next fun s =>
            (writeRefs s c e.page (n - 1)).next fun s =>
              (tally (s.addF Reg.KV_COPY 63 32 1) (telPart (s.ctxPart c) telCopies) 1, none)

/-- Flush rows at positions from q0 on. A plane whose page holds no position is a host error (R209). -/
def flushRows (s : State) (c : Nat) (p : Plane) (res : List Nat) (q0 : Nat) (rows : List (List Byte)) : Flush :=
  let pp := p.perPage (s.pageSize c)
  if pp = 0 then ⟨(s, some .host), res⟩ else (byPage pp q0 rows).foldl (flushPage c p) ⟨(s, none), res⟩

/-- Free an eyelet slot, its reserved page back to the pool. -/
def dropSlot (s : State) (k : EyeSlot) (pages : List Nat) : M :=
  foldM (fun s i => freePage s k.ctx i)
    (s.putKv { s.kv with slots := s.kv.slots.filter fun x => decide (x.num ≠ k.num) }) pages

/-- Flush one slot and free it, counting in field [hi:lo] of KV_FLUSH (Table 8.5). A bad slot cannot be read (R219). -/
def flushSlot (s : State) (k : EyeSlot) (hi lo : Nat) : M :=
  readingPlane s k.ctx k.list k.plane fun s p =>
    if k.bad then (s, some (.data 4 p.va)) else
    let f := flushRows s k.ctx p k.page.toList k.pos k.rows
    f.m.next fun s => (dropSlot s k f.res).next fun s =>
      (writePlane s k.ctx { p with valid := false, slot := 0 }).next fun s => (s.addF Reg.KV_FLUSH hi lo 1, none)

/-- Flush every slot of a set. -/
def flushAll (s : State) (ks : List EyeSlot) (hi lo : Nat) : M := foldM (fun s k => flushSlot s k hi lo) s ks

/-- Slots of a list, of a context, of a partition. -/
def State.listSlots (s : State) (c h : Nat) : List EyeSlot := s.kv.slots.filter fun k => decide (k.ctx = c ∧ k.list = h)
@[inherit_doc State.listSlots] def State.ctxSlots (s : State) (c : Nat) : List EyeSlot :=
  s.kv.slots.filter fun k => decide (k.ctx = c)
@[inherit_doc State.listSlots] def State.partSlots (s : State) (p : Nat) : List EyeSlot :=
  s.kv.slots.filter fun k => decide (k.part = p)

/-- The quota in force of a partition (R235). -/
def State.quota (s : State) (p : Nat) : Nat := s.effF (Reg.KV_PART_QUOTA p) 12 0

/-- The lowest slot number not in use, if the partition holds fewer slots than its quota (R235). -/
def State.freeEye (s : State) (part : Nat) : Option Nat :=
  if s.quota part ≤ (s.partSlots part).length then none
  else (List.range 4096).find? fun n => !(s.kv.slots.any fun k => decide (k.num = n))

/-- Make room under the quota: the least recently appended slots of the partition that can be read are flushed (Table 8.5,
R235). -/
def makeRoom (s : State) (part : Nat) : M :=
  let l := s.partSlots part
  let out := (l.filter fun k => !k.bad).take (l.length + 1 - s.quota part)
  flushAll (tally s (telPart part telForced) out.length) out 47 32

/-- The page index of position q of a plane has no page of its own or one that others share, so that a flush into it needs a
page (R219). -/
def needsPage (s : State) (c : Nat) (p : Plane) (q : Nat) : Bool :=
  let pp := p.perPage (s.pageSize c)
  if q % max 1 pp = 0 then true
  else match readPte s c p (q / max 1 pp) with
    | .ok e => (match readRefs s c e.page with
      | .ok n => decide (1 < n)
      | .error _ => true)
    | .error _ => true

/-- Rows of a plane flushed with its slot, if it has one, which is freed (R215, R216). A bad slot cannot be read (R219). -/
def flushWith (s : State) (c : Nat) (p p' : Plane) (k : Option EyeSlot) (start : Nat) (all : List (List Byte)) (res : List Nat) :
    M × List Nat :=
  if k.any (·.bad) then ((s, some (.data 4 p.va)), res)
  else
    let f := flushRows s c p ((k.bind (·.page)).toList ++ res) start all
    let m1 := f.m.next fun s => match k with
      | some k => dropSlot s k []
      | none => (s, none)
    (m1.next fun s => (writePlane s c { p' with valid := false, slot := 0 }).next fun s => (s.addF Reg.KV_FLUSH 63 48 1, none), f.res)

/-- Append rows to a plane at its length (R215): they join the plane's slot, or are flushed with it; length rises by L.
The pages come from the command's reservation; unused ones are returned by the caller. A slot is taken under the quota, flushing the
least recently appended one of the partition first; where none can be taken the rows are flushed at once (R235; log entry 74). -/
def appendRows (s : State) (c h pn : Nat) (rows : List (List Byte)) (res : List Nat) : M × List Nat :=
  match readPlane s c h pn with
  | .error e => ((s, some e), res)
  | .ok p =>
    let s := vtouch (vtouch s c (s.listVa c h) 32) c p.va 32
    let pp := p.perPage (s.pageSize c)
    let cap := p.perSlot
    let k := s.eyeSlot c h pn
    let start := (k.map (·.pos)).getD p.length
    let all := (k.map (·.rows)).getD [] ++ rows
    let onePage := decide (pp ≠ 0 ∧ start / pp = (start + all.length - 1) / pp)
    let part := s.ctxPart c
    let p' := { p with length := p.length + rows.length }
    if rows = [] then ((s, none), res)
    else if cap ≠ 0 ∧ s.quota part ≠ 0 ∧ all.length ≤ cap ∧ onePage then
      let m0 : M := if k.isNone ∧ s.quota part ≤ (s.partSlots part).length then makeRoom s part else (s, none)
      if m0.2.isSome then (m0, res)
      else
        let s1 := m0.1
        match (k.map (·.num)).or (s1.freeEye part) with
        | none => flushWith s1 c p p' k start all res
        | some num =>
          let have_ := (k.bind (·.page)).toList ++ res
          let need := needsPage s1 c p start
          let keep := if need then have_.head? else none
          let rest := if need then have_.drop 1 else have_
          let slot : EyeSlot := ⟨num, c, part, h, pn, start, all, keep, (k.map (·.bad)).getD false⟩
          let s2 := s1.putKv { s1.kv with slots := s1.kv.slots.filter (fun x => decide (x.num ≠ num)) ++ [slot] }
          let m1 := writePlane s2 c { p' with valid := true, slot := num }
          if m1.2.isSome then (m1, rest)
          else if all.length = cap ∨ (start + all.length) % pp = 0 then (flushSlot m1.1 slot 63 48, rest)
          else (m1, rest)
    else flushWith s c p p' k start all res

/-! ### Forks and freeing (R220, R221) -/

/-- One plane of a fork: the child's record, and a reference on a partly filled last page. A plane whose page holds no position is a
host error (R209). -/
def forkPlane (s : State) (c h ch pn : Nat) : M :=
  readingPlane s c h pn fun s p => readingPlane s c ch pn fun s q =>
    let pp := p.perPage (s.pageSize c)
    let l := p.length
    if pp = 0 then (s, some .host)
    else
      let i := l / pp
      let q' := { q with length := l, forkLen := l, fmt := p.fmt, hkv := p.hkv, dh := p.dh, first := i, valid := false, slot := 0 }
      (writePlane s c q').next fun s =>
        if l % pp = 0 then (s, none)
        else reading s c (p.pteVa i) 8 (readPte s c p i) fun s e =>
          reading s c (s.poolVa c e.page + 8) 8 (readRefs s c e.page) fun s n =>
            (writePte s c q' i e).next fun s => writeRefs s c e.page (n + 1)

/-- Fork list h into a child's list (R220): planes, parent, status, and the parent's children. -/
def forkList (s : State) (c h ch : Nat) : M :=
  match s.planeCount c h, vread64 s c (s.listVa c h + 8) with
  | .ok n, .ok w =>
    (foldM (fun s p => forkPlane s c h ch p) (vtouch s c (s.listVa c h) 16) (List.range n)).next fun s =>
    (wr64 s c (s.listVa c ch + 8) (h * 2 ^ 32)).next fun s =>
    (wr64 s c (s.listVa c ch + 16) (1 * 2 ^ 62)).next fun s =>
      wr64 s c (s.listVa c h + 8) (bits w 63 32 * 2 ^ 32 + bits (w + 1) 31 0)
  | .error e, _ => (s, some e)
  | _, .error e => (s, some e)

/-- The parent of a list, zero for none (Table 8.1). -/
def State.listParent (s : State) (c h : Nat) : Nat := match vread64 s c (s.listVa c h + 8) with
  | .ok w => bits w 63 32
  | .error _ => 0

/-- A list and those it was forked from, 64 at most (R213). -/
def State.listChain (s : State) (c : Nat) : Nat → Nat → List Nat
  | 0, _ => []
  | fuel + 1, h => if h = 0 then [] else h :: s.listChain c fuel (s.listParent c h)

/-- The lists forked from list h and not yet freed: those of live streams, and the ones these were forked from (R221). -/
def State.listKids (s : State) (c h : Nat) : List Nat :=
  let live := ((s.rings.filter fun r => decide (r.2.owner = c)).filterMap fun r => r.2.stream.map (·.kh)) ++
    (s.tick.discards.filter fun x => decide (x.1 = c)).map (·.2.2)
  dedup ((live.flatMap (s.listChain c 65)).filter fun k => decide (k ≠ h ∧ s.listParent c k = h))

/-- Page indices of plane pn below this one are read by a list forked from h (R221). -/
def State.keptPages (s : State) (c h pn : Nat) : Nat := (s.listKids c h).foldl (fun m k => match readPlane s c k pn with
  | .ok q => max m q.first
  | .error _ => m) 0

/-- The entry of a page index that has no page (Table 8.3). -/
def noPage : Pte := ⟨-256, -256, 2 ^ 32 - 1⟩

/-- The pages that a plane's own table names at indices from k on are lowered, and their entries left naming no page, so that each is
lowered once (R221; log entry 75). -/
def dropPages (s : State) (c h pn k : Nat) : M :=
  readingPlane s c h pn fun s p =>
    let pp := p.perPage (s.pageSize c)
    let n := if pp = 0 then 0 else ceilDiv p.length pp - p.first
    foldM (fun s i => reading s c (p.pteVa i) 8 (readPte s c p i) fun s e =>
      if e.page = noPage.page then (s, none)
      else (lowerPage s c e.page).next fun s => writePte s c p i noPage) s (((List.range n).map (p.first + ·)).filter fun i => decide (k ≤ i))

/-- Free list h (R221): its pages are lowered. With children those its children read stay, and it is retained; else its parent loses a
child, which can free the parent in turn. A list's slots are freed unflushed before. -/
def freeList (s : State) (c : Nat) : Nat → Nat → M
  | 0, _ => (s, none)
  | fuel + 1, h => match vread64 s c (s.listVa c h + 8), s.planeCount c h with
    | .error e, _ => (s, some e)
    | _, .error e => (s, some e)
    | .ok w, .ok n =>
      let kept := decide (bits w 31 0 ≠ 0)
      let m := (foldM (fun s p => dropPages s c h p (if kept then s.keptPages c h p else 0)) (vtouch s c (s.listVa c h) 24)
        (List.range n)).next fun s => wr64 s c (s.listVa c h + 16) (if kept then 2 * 2 ^ 62 else 0)
      let par := bits w 63 32
      if kept ∨ m.2.isSome ∨ par = 0 then m
      else match vread64 m.1 c (m.1.listVa c par + 8), vread64 m.1 c (m.1.listVa c par + 16) with
        | .ok x, .ok st =>
          let kids := bits x 31 0 - 1
          let m1 := wr64 (vtouch m.1 c (m.1.listVa c par) 24) c (m.1.listVa c par + 8) (bits x 63 32 * 2 ^ 32 + kids)
          if m1.2.isSome ∨ kids ≠ 0 ∨ bits st 63 62 ≠ 2 then m1 else freeList m1.1 c fuel par
        | .error e, _ => (m.1, some e)
        | _, .error e => (m.1, some e)

/-- A discarded stream's list: its slots, whose positions were never written, are freed first, with the plane's length
cut to what its pages hold (R216, R221). -/
def discardList (s : State) (c h : Nat) : M :=
  if h = 0 then (s, none)
  else
    (foldM (fun s k => readingPlane s c k.list k.plane fun s p => (dropSlot s k k.page.toList).next fun s =>
      writePlane s c { p with length := k.pos, valid := false, slot := 0 }) s (s.listSlots c h)).next fun s =>
      freeList s c 66 h

end Sys2Proof.Machine
end

