-- ==== Sys2Proof/Machine/Spill.lean ====
section
/-!
DEFINITION. The space that data of a stage holds: the core buffer's regions and the context's spill area (R156, R159, R163, R167, R200,
R202, R231).
-/
namespace Sys2Proof.Machine

/-- The spill region of a core, its halo area, one half of its activation area, and the score space of ATTN, in bytes (Table 6.1,
R231). -/
abbrev spillRegion : Nat := 2097152
@[inherit_doc spillRegion] abbrev haloArea : Nat := 131072
@[inherit_doc spillRegion] abbrev activationHalf : Nat := 393216
@[inherit_doc spillRegion] abbrev scoreSpace : Nat := 1048576

/-- Bytes of a set of spaces. -/
def spaceBytes (l : List Space) : Nat := l.foldl (fun n x => n + x.bytes) 0

/-- Bytes held in a place of a core, by all commands. -/
def State.heldIn (s : State) (core : Nat) (pl : Place) : Nat :=
  s.flight.foldl (fun n e => n + spaceBytes (e.space.filter fun x => decide (x.core = core ∧ x.place = pl))) 0

/-- An ATTN stage runs on the core (R159, R231). -/
def State.attnOn (s : State) (core : Nat) : Bool :=
  s.flight.any fun e => e.run.started && !e.done && decide (bits (wnat (e.pkt.payload.drop (64 * e.stage)) 0) 63 56 = opcAttn) &&
    e.run.arrays.any fun a => (arrayCores (s.part e.part).frag.gang a).contains core

/-- Free bytes of a core's spill region (R159). -/
def State.regionFree (s : State) (core : Nat) : Nat :=
  spillRegion - (if s.attnOn core then scoreSpace else 0) - s.heldIn core .region

/-- Base and size of a context's spill area, and the bytes of it held (Table 14.12, R154, R159). -/
def State.spillBase (s : State) (c : Nat) : Nat := s.fldR (Reg.CTX_SPILL c) 63 24 * 4096
@[inherit_doc State.spillBase] def State.spillSize (s : State) (c : Nat) : Nat := s.fldR (Reg.CTX_SPILL c) 23 0 * 4096
@[inherit_doc State.spillBase] def State.areaHeld (s : State) (c : Nat) : Nat :=
  (s.ctxFlight c).foldl (fun n e => n + spaceBytes (e.space.filter fun x => decide (x.place = .area))) 0

/-- The fault of a spill that would pass the end of the area (R22, R159). -/
def spillFault (s : State) (c : Nat) : M := (s, some (.trans (s.spillBase c + s.spillSize c)))

/-- Hold space. -/
def addSpace (s : State) (id : Nat) (x : Space) : State := s.updEntry id fun e => { e with space := x :: e.space }

/-- Data of context c's command id is placed along the spill path: the core's spill region, else the spill area (R159). The bytes that
the spill area holds are the part's own and are not modelled (log entry 86). -/
def takeSpace (s : State) (id c core : Nat) (kind : Held) (key n : Nat) : M :=
  if n = 0 then (s, none)
  else if n ≤ s.regionFree core then (addSpace s id ⟨core, .region, kind, key, n⟩, none)
  else if s.areaHeld c + n ≤ s.spillSize c then (addSpace s id ⟨core, .area, kind, key, n⟩, none)
  else spillFault s c

/-- The same over several cores, a share each. -/
def takeShares (s : State) (id c : Nat) (cores : List Nat) (kind : Held) (key n : Nat) : M :=
  foldM (fun s core => takeSpace s id c core kind key (ceilDiv n (max 1 cores.length))) s cores

/-- Data first goes where it belongs, up to that place's size on the core, and along the spill path beyond (R163, R167). -/
def takePlace (s : State) (id c core : Nat) (pl : Place) (size : Nat) (kind : Held) (key n : Nat) : M :=
  if s.heldIn core pl + n ≤ size then (addSpace s id ⟨core, pl, kind, key, n⟩, none) else takeSpace s id c core kind key n

/-- Release what is held for a kind and key. -/
def dropSpace (s : State) (id : Nat) (kind : Held) (key : Nat) : State :=
  s.updEntry id fun e => { e with space := e.space.filter fun x => !decide (x.kind = kind ∧ x.key = key) }

end Sys2Proof.Machine
end

