-- ==== Sys2Proof/Machine/Rings.lean ====
section
/-!
DEFINITION. Command rings and return rings (03_command_rings.md): RING_CTL, doorbells, fetching, WAIT, records. Admission
is in Admit.lean.
-/
namespace Sys2Proof.Machine

/-! ### Cores of a context (R362, R363) -/

/-- The context's core set: logical arrays of its partition that lie whole in its CORE_MASK (zero: every core). -/
def State.ctxArrays (s : State) (n : Nat) : List Nat :=
  let p := s.part (s.ctxPart n)
  let m := (s.effReg (Reg.CTX_CORES n)).toNat
  p.arrays.filter fun a => decide (m = 0) || (arrayCores p.frag.gang a).all m.testBit

/-- The arrays of the core set granted to a class and available (R363). -/
def State.grantedArrays (s : State) (n cls : Nat) : List Nat :=
  let p := s.ctxPart n
  let g := if cls = 0 then s.tick.lcCores else s.tick.beCores
  (s.ctxArrays n).filter fun a => (arrayCores (s.part p).frag.gang a).all g.testBit && s.arrayOk p a

/-! ### RING_CTL (R79 to R82) -/

/-- Ring r lies in the range of an OPEN context the function may act on (R81). -/
def State.ringUsable (s : State) (fn r : Nat) : Bool := match s.ctxOfRing r with
  | some n => decide (s.ctxState n = 1) && s.mayAct fn n
  | none => false

/-- Where ring r's descriptor lies (R79). -/
def State.descVa (s : State) (n r : Nat) : Nat :=
  s.fldR (Reg.RING_CTX_TABLE n) 51 6 * 64 + 64 * (r - (s.ctx n).first)

/-- The descriptor of ring r cannot be read because its memory is unavailable (R450). -/
def State.descUnavail (s : State) (r : Nat) : Bool := match s.ctxOfRing r with
  | some n => isUnavail (vread s n (s.descVa n r) 32)
  | none => false

/-- Open one ring of a context that is OPEN: read its descriptor and set it FETCHING or HELD with head and tail zero (R81). A context
that the reading of an earlier descriptor of the range tore down opens none. -/
def openRing (s : State) (r : Nat) : State :=
  match s.ctxOfRing r with
  | none => s
  | some n =>
    if s.ctxState n ≠ 1 then s
    else
      let va := s.descVa n r
      match vload s n va 32 with
      | (s1, .ok bs) =>
        let g : Ring := { Ring.closed with owner := n, w0 := wordAt bs 0, w1 := wordAt bs 1, w2 := wordAt bs 2, descVa := va }
        writeBack (s1.setRing r { g with state := if fld g.w1 59 59 = 1 then 1 else 2 }) r
      | (s1, .error x) => ownFails s s1 n 2 x

/-- A RING_CTL write is refused whole (R81). -/
def rejectRing (s : State) : State := s.setF Reg.RING_CTL_STATUS 0 0 1

/-- RING_CTL OPEN is refused (R81). -/
def State.openRefused (s : State) (fn first count : Nat) : Bool :=
  decide (s.fldR Reg.RING_CTL_STATUS 1 1 = 1) ||
  (ringRange first count).any fun r => !s.ringUsable fn r || decide ((s.ring r).state ≠ 0) || s.descUnavail r

/-- RING_OPEN (R79 to R81, R18, R450). -/
def execRingOpen (fn first count : Nat) (s : State) : Out State :=
  .next (
    if !s.live ∨ count = 0 then s
    else afterClears s fun s =>
      if s.openRefused fn first count then rejectRing s else (ringRange first count).foldl openRing s)

/-- Close one ring: fetching stops at once; a live stream's discard is due at the next edge (R82). A packet fetched and not yet admitted
is dropped without a record, like the entries not fetched (log entry 70). -/
def closeRing (s : State) (r : Nat) : State :=
  let g := s.ring r
  if g.state = 0 ∨ g.state = 5 then s
  else settleRing (writeBack (s.setRing r { g with state := 5, fetched := none, discardDue := g.stream.isSome }) r) r

/-- RING_CLOSE (R81, R82). -/
def execRingClose (fn first count : Nat) (s : State) : Out State :=
  .next (
    if !s.live ∨ count = 0 then s
    else if s.fldR Reg.RING_CTL_STATUS 1 1 = 1 ∨ (ringRange first count).any (fun r => !s.ringUsable fn r) then rejectRing s
    else (ringRange first count).foldl closeRing s)

/-! ### Doorbells (R83 to R85) -/

/-- CMD_DOORBELL: the tail is recorded unless the ring is CLOSED or CLOSING, or the writer neither owns the ring nor is
the physical function; a tail beyond the ring's capacity is a host error (R84). -/
def execCmdDoorbell (fn ring : Nat) (value : Word) (s : State) : Out State :=
  let g := s.ring ring
  .next (
    match s.ctxOfRing ring with
    | none => s
    | some n =>
      if !s.live ∨ !s.mayAct fn n ∨ g.state = 0 ∨ g.state = 5 then s
      else
        let g' := { g with tail := fld value 31 0, stall := if g.stall = 2 then 0 else g.stall }
        let s1 := s.setRing ring g'
        if g'.avail > g'.cap then unpredictable s1 (.ctx n) else s1)

/-- RETURN_HEAD_DOORBELL: the host's head is recorded (R83, R104). -/
def execReturnHeadDoorbell (fn ring : Nat) (value : Word) (s : State) : Out State :=
  .next (
    if !s.live ∨ 4096 ≤ ring ∨ !s.mayAct fn ring then s
    else s.setF (Reg.RING_RET_STATUS ring) 31 0 (fld value 31 0))

/-! ### Fetching (R86, R99, R364) -/

/-- A ring leaves a compute command unfetched: its stream is parked (R38), or a PARK of it that keeps the stream has been admitted and
waits for its edge (log entry 69). -/
def State.barsCompute (s : State) (r : Nat) : Bool :=
  (s.ring r).parked || (s.ringFlight r).any fun e => decide (e.pkt.op = opcPark ∧ fld (e.pkt.w 4) 0 0 = 0) && !e.done

/-- The packet at the head of ring r could be fetched, as far as the fetcher has found (R38, R84, R86). -/
def State.headFree (s : State) (r : Nat) : Bool :=
  let g := s.ring r
  decide (g.stall = 0) || (decide (g.stall = 1) && !s.barsCompute r)

/-- The ring could be fetched now: FETCHING or PARKED, entries waiting, its packet not one that stays unfetched, room under
inflight_limit, nothing fetched, its context OPEN, not saving, its partition's function enabled (R59), and holding an array of its
class (R99, R364). -/
def State.fetchable (s : State) (r : Nat) : Bool :=
  let g := s.ring r
  match s.ctxOfRing r with
  | none => false
  | some n =>
    (decide (g.state = 2) || decide (g.state = 4)) && s.headFree r && g.fetched.isNone && decide (g.avail ≠ 0) &&
    decide ((s.ringFlight r).length < g.limit) && decide (s.ctxState n = 1) && s.partOn (s.ctxPart n) && (s.ctx n).saving.isNone &&
    decide (s.grantedArrays n (s.ctxClass n) ≠ [])

/-- Bytes of k ring entries from the head: from host memory as supplied, or from device memory (R86, R87). -/
def ringBytes (s : State) (n : Nat) (g : Ring) (host : List Byte) (k : Nat) : Except MErr (List Byte) :=
  if fld g.w0 0 0 = 0 then .ok ((host.take (64 * k)) ++ zeros (64 * k - host.length))
  else (List.range k).foldl (fun acc i =>
    (both acc (vread s n (g.entryVa i) 64)).map fun x => x.1 ++ x.2) (.ok [])

/-- The accounting of reading k entries from the head of a ring in device memory. -/
def touchEntries (s : State) (n : Nat) (g : Ring) (k : Nat) : State :=
  if fld g.w0 0 0 = 0 then s
  else (List.range k).foldl (fun s i => vtouch s n (g.entryVa i) 64) s

/-- The 8 header words of a packet's first 64 bytes. -/
def headerOf (bs : List Byte) : List Word := (List.range 8).map (wordAt bs)

/-- The head index written back after a fetch (Table 3.2, head_wb; R450). -/
def headWriteBack (s : State) (n r : Nat) : State :=
  let g := s.ring r
  let addr := fld g.w2 63 6 * 64
  if addr = 0 then s
  else if fld g.w2 0 0 = 0 then hostWrite s addr (leBytes 8 g.head)
  else ownWrite s n addr (leBytes 8 g.head)

/-- What the fetcher finds at the head of ring r of context n: the packet there with the entries it takes; the reason that it stays
unfetched, by `stall` (R38, R84, R86); or an access that fails, with the entries read. A packet longer than its ring is fetched, and is
a host error at admission (R86). -/
inductive Found where
  | packet (p : Packet) (entries : Nat)
  | stays (stall : Nat)
  | fails (x : MErr) (entries : Nat)

@[inherit_doc Found] def State.headPacket (s : State) (n r : Nat) (host : List Byte) : Found :=
  let g := s.ring r
  match ringBytes s n g host 1 with
  | .error x => .fails x 1
  | .ok hb =>
    let p : Packet := ⟨headerOf hb, [], g.head⟩
    let len := fld (p.w 0) 18 0
    let k := packetEntries len
    if s.barsCompute r ∧ isCompute p.op then .stays 1
    else if g.avail < k ∧ k ≤ g.cap then .stays 2
    else match ringBytes s n g host k with
      | .error x => .fails x k
      | .ok bs => .packet { p with payload := (bs.drop 64).take len } k

/-- The ring's turn is served: a packet leaves it (R99). -/
def serveTurn (s : State) (n r : Nat) : State :=
  s.putTick { s.tick with turns := spSet 0 s.tick.turns (2 * s.ctxPart n + s.ctxClass n) (r + 1) }

/-- Fetch the packet at the head of ring r of context n. -/
def fetchPacket (s : State) (n r : Nat) (host : List Byte) : State :=
  let g := s.ring r
  match s.headPacket n r host with
  | .stays k => s.setRing r { g with stall := k }
  | .fails x k => ownFails s (touchEntries s n g k) n 2 x
  | .packet p k =>
    let s1 := touchEntries (serveTurn s n r) n g k
    headWriteBack (s1.setRing r { g with fetched := some p, stall := 0, head := (g.head + k) % 2 ^ 32 }) n r

/-- A ring in device memory whose packet lies in memory that is unavailable, or in a frame being cleared, cannot be fetched now: others
are served meanwhile (R289, R450; log entry 71). -/
def State.headWaits (s : State) (n r : Nat) : Bool := match s.headPacket n r [] with
  | .fails .unavail _ | .fails .wait _ => true
  | _ => false

/-- Rings of one class and partition that could be fetched now, ascending. -/
def State.fetchRings (s : State) (p cls : Nat) : List Nat :=
  (s.rings.map (·.1)).filter fun r => s.fetchable r && match s.ctxOfRing r with
    | some n => decide (s.ctxPart n = p ∧ s.ctxClass n = cls) && (decide (fld (s.ring r).w0 0 0 = 0) || !s.headWaits n r)
    | none => false

/-- The ring of a class whose turn it is: the first after the last served, round-robin (R99). -/
def State.turnIn (s : State) (p cls : Nat) : Option Nat :=
  let l := s.fetchRings p cls
  match l.find? fun r => decide (spGet 0 s.tick.turns (2 * p + cls) ≤ r) with
  | some r => some r
  | none => l.head?

/-- The ring of partition p whose turn it is: LC before BE (R99). -/
def State.turnOf (s : State) (p : Nat) : Option Nat := (s.turnIn p 0).or (s.turnIn p 1)

/-- PACKET_FETCH (R38, R86, R87, R99, R364). -/
def execPacketFetch (ring : Nat) (host : List Byte) (s : State) : Out State :=
  .next (
    match s.ctxOfRing ring with
    | none => s
    | some n =>
      if !s.live ∨ s.fldR Reg.PWR_STAT 58 58 = 1 ∨ s.turnOf (s.ctxPart n) ≠ some ring then s
      else fetchPacket s n ring host)

/-! ### Records (R102 to R104) -/

/-- Free entries of return ring n. -/
def State.retFree (s : State) (n : Nat) : Nat :=
  s.retCap n - (s.fldR (Reg.RING_RET_STATUS n) 63 32 + 2 ^ 32 - s.fldR (Reg.RING_RET_STATUS n) 31 0) % 2 ^ 32

/-- Write bytes into return ring n at entry index i: to host memory, or to device memory of the context. -/
def retWrite (s : State) (n i : Nat) (bs : List Byte) : State × Option MErr :=
  let base := s.fldR (Reg.RING_RET_BASE n) 63 6 * 64
  let cap := s.retCap n
  (List.range (ceilDiv bs.length 64)).foldl (fun (acc : State × Option MErr) k =>
    if acc.2.isSome then acc
    else
      let a := base + 64 * ((i + k) % cap)
      let c := (bs.drop (64 * k)).take 64
      if s.fldR (Reg.RING_RET_BASE n) 0 0 = 0 then (hostWrite acc.1 a c, none) else vwrite acc.1 n a c) (s, none)

/-- Signal the return ring's vector and start counting anew (R102). -/
def signalRet (s : State) (n : Nat) : State :=
  signalMsi (s.setCtx n { s.ctx n with unsignalled := 0 }) (s.ctxFn n) (s.fldR (Reg.RING_RET_CFG n) 42 32)

/-- A record stands in the return ring: TAIL, the tallies of telemetry, and the signal due (R102, R103). -/
def recordWritten (s : State) (n : Nat) (r : Record) : State :=
  let tail := s.fldR (Reg.RING_RET_STATUS n) 63 32
  let s1 := s.setF (Reg.RING_RET_STATUS n) 63 32 (tail + packetEntries r.payload.length)
  let c := s1.ctx n
  let s2 := s1.setCtx n { c with recs := c.recs.drop 1, unsignalled := c.unsignalled + 1 }
  let st := fld (r.words.getD 0 0) 55 48
  let k := telPart (s2.ctxPart n)
  let s3 := tally (tally s2 (k telCompletions) 1) (k telFailures) (b2n (decide (st ≠ 0 ∧ st ≠ 5)))
  let th := s3.fldR (Reg.RING_RET_CFG n) 31 16
  if r.irq ∨ (th ≠ 0 ∧ th ≤ c.unsignalled + 1) then signalRet s3 n else s3

/-- Write the oldest waiting record of context n (R103): payload, header as one write, TAIL, then the signal due. -/
def writeRecord (s : State) (n : Nat) (r : Record) : State :=
  let tail := s.fldR (Reg.RING_RET_STATUS n) 63 32
  let phase := 1 - tail / s.retCap n % 2
  let hdr := wordsBytes (r.words ++ [BitVec.ofNat 64 (phase * 2 ^ 63)])
  match retWrite s n (tail + 1) r.payload with
  | (s1, some x) => ownFails s s1 n 2 x
  | (s1, none) => match retWrite s1 n tail hdr with
    | (s2, some x) => ownFails s s2 n 2 x
    | (s2, none) => afterRecord (recordWritten s2 n r) n r

/-- RECORD_WRITE (R103, R104, R435): waits while ENABLE is clear or the ring lacks room; records larger than the whole ring are
dropped. -/
def execRecordWrite (ctx : Nat) (s : State) : Out State :=
  .next (
    if !s.live ∨ (s.ctxState ctx ≠ 1 ∧ s.ctxState ctx ≠ 2) then s
    else
      let s := purgeRecords s ctx
      match (s.ctx ctx).recs with
      | [] => s
      | r :: _ =>
        if s.fldR (Reg.RING_RET_CFG ctx) 63 63 = 0 ∨ s.retFree ctx < packetEntries r.payload.length then s else writeRecord s ctx r)

/-- RETURN_IRQ_TIMEOUT: TIMEOUT µs after the oldest unsignalled record the vector is signalled (R102). -/
def execReturnIrqTimeout (ctx : Nat) (s : State) : Out State :=
  .next (
    if !s.live ∨ (s.ctx ctx).unsignalled = 0 ∨ s.fldR (Reg.RING_RET_CFG ctx) 15 0 = 0 then s
    else signalRet s ctx)

end Sys2Proof.Machine
end

