-- ==== Sys2Proof/Machine/Streams.lean ====
section
/-!
DEFINITION. Streams and where their state lives: state table entries, resident slots, snapshots, parked images, key table
draws, discards, FORK, and what PARK and RESUME do at their edge (R25 to R40, R198 to R201, R254 to R258).
-/
namespace Sys2Proof.Machine

/-! ### State table entries (Table 7.5) -/

/-- A state table entry. -/
structure SEnt where
  anchor : Int
  dim : Nat
  since : Nat
  wh : Nat
  core : Nat
  slot : Nat
  image : Nat
  pos : Nat
  deriving DecidableEq, Repr

/-- Values of `where`. -/
abbrev whNone : Nat := 0
@[inherit_doc whNone] abbrev whResident : Nat := 1
@[inherit_doc whNone] abbrev whParked : Nat := 2
@[inherit_doc whNone] abbrev whSnapshot : Nat := 3

/-- Address of the entry of handle h (R198). -/
def State.stateVa (s : State) (c h : Nat) : Nat := s.fldR (Reg.CTX_STATE_TBL c) 51 5 * 32 + 32 * h

/-- Read an entry. -/
def readSEnt (s : State) (c h : Nat) : Except MErr SEnt :=
  (vwords s c (s.stateVa c h) 4).map fun w =>
    ⟨sext 16 (bits (w.getD 0 0) 63 48), bits (w.getD 0 0) 47 24, bits (w.getD 0 0) 23 0, bits (w.getD 1 0) 63 62,
      bits (w.getD 1 0) 61 56, bits (w.getD 1 0) 55 38, bits (w.getD 2 0) 51 0, w.getD 3 0⟩

/-- Go on with an entry; its read is accounted. -/
def readingSEnt (s : State) (c h : Nat) (f : State → SEnt → M) : M := reading s c (s.stateVa c h) 32 (readSEnt s c h) f

/-- Write the fields the part writes; image_addr stays as the host wrote it. -/
def writeSEnt (s : State) (c h : Nat) (e : SEnt) : M :=
  (wr64 s c (s.stateVa c h) (toTwos 16 e.anchor * 2 ^ 48 + e.dim * 2 ^ 24 + e.since % 2 ^ 24)).next fun s =>
  (wr64 s c (s.stateVa c h + 8) (e.wh * 2 ^ 62 + e.core * 2 ^ 56 + e.slot * 2 ^ 38)).next fun s =>
    wr64 s c (s.stateVa c h + 24) (e.pos % 2 ^ 64)

/-! ### Key table (R254, R257) -/

/-- Address of key table entry h. -/
def State.keyVa (s : State) (c h : Nat) : Nat := s.fldR (Reg.CTX_KEY_TBL c) 51 4 * 16 + 16 * h

/-- Seed and step0. -/
def readSeed (s : State) (c : Nat) : Except MErr (Nat × Nat) :=
  (vwords s c (s.keyVa c 0) 2).map fun w => (w.getD 0 0, w.getD 1 0)

/-- The key of a stage of a command: the draw of its handle, or step0 (R255). -/
def keyOf (s : State) (e : Entry) : Except MErr Key :=
  if e.pkt.sh = 0 then .ok ⟨e.seed, 0, e.step0, e.stage⟩
  else (vread64 s e.ctx (s.keyVa e.ctx e.pkt.sh)).map fun d => ⟨e.seed, e.pkt.sh, d, e.stage⟩

/-- Add 1 to the draw of each handle. -/
def advanceDraws (s : State) (c : Nat) (hs : List Nat) : M :=
  foldM (fun s h => reading s c (s.keyVa c h) 8 (vread64 s c (s.keyVa c h)) fun s d =>
    wr64 s c (s.keyVa c h) ((d + 1) % 2 ^ 64)) s hs

/-- A command that is not a compute command completes OK: with it the draw of the handle it names advances, but for FORK, PARK and
RESUME (R257, R258). `s0` is the state before its act, which stands alone where the draw cannot be advanced (R450). -/
def finishControl (s0 s1 : State) (id : Nat) (c : Completion) : State := match s1.entry id with
  | none => s1
  | some e =>
    if e.pkt.sh = 0 ∨ [opcFork, opcPark, opcResume].contains e.pkt.op = true then complete s1 id c
    else match advanceDraws s1 e.ctx [e.pkt.sh] with
      | (s2, none) => complete s2 id c
      | (_, some x) => failEntry (noteErr s0 e.ctx x) id none x

/-! ### Slots (R35, R62, R199) -/

/-- Units of 256 A64 values of each core of partition p. -/
def State.coreUnits (s : State) (p : Nat) : Nat := (s.part p).frag.accTiles * 256

/-- Units a state of dimension d takes. -/
def unitsFor (d : Nat) : Nat := ceilDiv d 256

/-- Available cores of a partition, ascending. -/
def State.slotCores (s : State) (p : Nat) : List Nat := (s.part p).cores.filter s.coreOk

/-- The lowest run of n free units on core c with u units in all. -/
def freeRun (l : List Slot) (c u n : Nat) : Option Nat :=
  (List.range (u + 1 - n)).find? fun k =>
    (l.filter fun x => decide (x.core = c)).all fun x => !(overlaps x.unit x.units k n)

/-- The first free place of n units: the lowest core that has a run (R199). -/
def State.findSlot (s : State) (p n : Nat) : Option (Nat × Nat) :=
  (s.slotCores p).findSome? fun c => (freeRun s.slots c (s.coreUnits p) n).map fun u => (c, u)

/-- Place a slot of dimension d for a handle, if one is free. A state of dimension zero takes none (R196). -/
def placeSlot (s : State) (c h kind d : Nat) (vals : List Int) (refs : List Nat) : Option (State × Nat × Nat) :=
  if d = 0 then some (s, 0, 0)
  else (s.findSlot (s.ctxPart c) (unitsFor d)).map fun x =>
    ((s.putSlots (s.slots ++ [⟨c, h, x.1, x.2, unitsFor d, kind, d, vals, refs⟩])), x.1, x.2)

/-- The slot at a core and unit that a handle's entry names, of a kind. -/
def State.slotAt (s : State) (c core unit kind : Nat) : Option Slot :=
  s.slots.find? fun x => decide (x.ctx = c ∧ x.core = core ∧ x.unit = unit ∧ x.kind = kind)

/-- The slot FORK reserved for a handle. -/
def State.reservedSlot (s : State) (c h : Nat) : Option Slot :=
  s.slots.find? fun x => decide (x.ctx = c ∧ x.handle = h ∧ x.kind = 2)

/-- Remove the slot at a core and unit. -/
def dropSlotAt (s : State) (c core unit : Nat) : State :=
  s.putSlots (s.slots.filter fun x => !decide (x.ctx = c ∧ x.core = core ∧ x.unit = unit))

/-- Release handle h's reference on the snapshot at a core and unit; the last one frees it (R29). -/
def derefSnapshot (s : State) (c core unit h : Nat) : State :=
  let l := s.slots.map fun x =>
    if x.ctx = c ∧ x.core = core ∧ x.unit = unit ∧ x.kind = 1 then { x with refs := x.refs.filter fun r => decide (r ≠ h) } else x
  s.putSlots (l.filter fun x => !(decide (x.kind = 1) && decide (x.refs = [])))

/-- Remove a handle's reserved slot. -/
def dropReserved (s : State) (c h : Nat) : State :=
  s.putSlots (s.slots.filter fun x => !decide (x.ctx = c ∧ x.handle = h ∧ x.kind = 2))

/-- Remove a handle's reference to a parked image. -/
def dropImage (s : State) (c h : Nat) : State :=
  s.putImages (s.images.filter fun x => !decide (x.1 = c ∧ x.2.1 = h))

/-- The handle whose image holds h's parked state (R30). -/
def State.imageOwner (s : State) (c h : Nat) : Nat :=
  ((s.images.find? fun x => decide (x.1 = c ∧ x.2.1 = h)).map (·.2.2)).getD h

/-- The values of a stream's state: its slot, or the snapshot it references. -/
def State.stateVals (s : State) (c : Nat) (e : SEnt) : List Int :=
  if e.dim = 0 then []
  else ((s.slotAt c e.core e.slot (if e.wh = whSnapshot then 1 else 0)).map (·.vals)).getD (List.replicate e.dim 0)

/-! ### Parked images (R36) -/

/-- The image bytes of A64 values: 8 bytes each, zero to the next 2 KiB. -/
def imageBytes (vs : List Int) : List Byte :=
  let bs := vs.flatMap fun v => leBytes 8 (toTwos 64 v)
  bs ++ zeros (roundUp bs.length 2048 - bs.length)

/-- d A64 values from bytes. -/
def imageVals (d : Nat) (bs : List Byte) : List Int := (List.range d).map fun i => sext 64 (wnat bs i)

/-! ### Discard (R26) -/

/-- Discard stream (sh, kh) of a context: slot or image released, snapshot reference lowered, list freed, entry reset. A stream of
dimension zero has no slot to release (R196). -/
def discardStream (s : State) (c sh kh : Nat) : M :=
  let m : M :=
    if sh = 0 then (s, none)
    else readingSEnt s c sh fun s e =>
        let s1 := if e.dim = 0 then (if e.wh = whParked then dropImage s c sh else s)
          else if e.wh = whResident then dropSlotAt s c e.core e.slot
          else if e.wh = whSnapshot then dropReserved (derefSnapshot s c e.core e.slot sh) c sh
          else if e.wh = whParked then dropImage s c sh else s
        writeSEnt s1 c sh ⟨0, 0, 0, 0, 0, 0, e.image, 0⟩
  m.next fun s => discardList s c kh

/-! ### FORK (R27 to R33) -/

/-- A child entry (Table 3.7). -/
structure Child where
  sh : Nat
  ring : Nat
  kh : Nat
  deriving DecidableEq, Repr

/-- The children of a FORK payload. -/
def childrenOf (p : Packet) : List Child :=
  (List.range p.count).map fun i =>
    let w0 := wnat p.payload (2 * i)
    ⟨bits w0 63 32, bits w0 17 0, bits (wnat p.payload (2 * i + 1)) 63 32⟩

/-- Live streams of a chain (R25). -/
def State.chainWidth (s : State) (chain : Nat) : Nat :=
  (s.rings.filter fun r => match r.2.stream with
    | some x => decide (x.chain = chain)
    | none => false).length

/-- The draw FORK gives its children (R258). -/
def forkDraw (s : State) (e : Entry) : Except MErr Nat :=
  if e.pkt.sh = 0 then .ok e.step0 else vread64 s e.ctx (s.keyVa e.ctx e.pkt.sh)

/-- Create one child: its reserved slot, state table entry, key entry, list, ring and stream. `pe` is the parent's entry
after the snapshot was frozen, absent for a parent without state. -/
def forkChild (e : Entry) (pe : Option SEnt) (draw chain depth : Nat) (s : State) (ch : Child) : M :=
  let c := e.ctx
  let parked := decide ((pe.map (·.wh)) = some whParked)
  let m1 : M := match pe with
    | none => (s, none)
    | some p =>
      if ch.sh = 0 then (s, none)
      else readingSEnt s c ch.sh fun s old =>
          if parked then
            writeSEnt (s.putImages ((c, ch.sh, s.imageOwner c e.pkt.sh) :: (dropImage s c ch.sh).images)) c ch.sh
              { p with core := 0, slot := 0, image := old.image }
          else match placeSlot s c ch.sh 2 p.dim [] [] with
            | none => (s, some .unavail)
            | some (s1, _, _) => writeSEnt s1 c ch.sh { p with image := old.image }
  m1.next fun s =>
  let m2 : M := if ch.sh = 0 then (s, none) else wr64 s c (s.keyVa c ch.sh) draw
  m2.next fun s =>
  let m3 : M := if e.pkt.kh = 0 ∨ ch.kh = 0 then (s, none) else forkList s c e.pkt.kh ch.kh
  m3.next fun s =>
    let g : Ring := { s.ring ch.ring with stream := some ⟨ch.sh, ch.kh, chain, depth⟩, parked := parked }
    (setRingState (s.setRing ch.ring g) ch.ring g.base, none)

/-- Freeze the parent's resident state as a snapshot its children and itself reference (R29); a parent still on a
snapshot adds its children to it. -/
def freezeParent (s : State) (c sh : Nat) (p : SEnt) (kids : List Nat) : State :=
  s.putSlots (s.slots.map fun x =>
      if x.ctx = c ∧ x.core = p.core ∧ x.unit = p.slot then
        (if x.kind = 0 then { x with kind := 1, refs := sh :: kids } else if x.kind = 1 then { x with refs := x.refs ++ kids } else x)
      else x)

/-- The fork itself once its checks have passed: flush of the parent's slots, snapshot, children. -/
def forkAll (s : State) (e : Entry) (kids : List Child) (chain depth : Nat) : M :=
  let c := e.ctx
  let sh := e.pkt.sh
  let fl : M := if e.pkt.kh = 0 then (s, none) else flushAll s (s.listSlots c e.pkt.kh) 31 16
  fl.next fun s => reading s c (s.keyVa c sh) (if sh = 0 then 0 else 8) (forkDraw s e) fun s dr =>
    if sh = 0 then foldM (forkChild e none dr chain (depth + 1)) s kids
    else readingSEnt s c sh fun s p =>
      let m : State × Option SEnt :=
        if p.wh = whNone then (s, none)
        else if p.wh = whParked ∨ p.dim = 0 then (s, some p)
        else (freezeParent s c sh p ((kids.map (·.sh)).filter fun h => decide (h ≠ 0)), some { p with wh := whSnapshot })
      let wp : M := match m.2 with
        | some p => writeSEnt m.1 c sh p
        | none => (m.1, none)
      wp.next fun s => foldM (forkChild e m.2 dr chain (depth + 1)) s kids

/-- The slots of a fork cannot all be placed (R30). -/
def forkNoRoom (s : State) (e : Entry) (kids : List Child) : Bool :=
  match readSEnt s e.ctx e.pkt.sh with
  | .ok p =>
    decide (e.pkt.sh ≠ 0 ∧ (p.wh = whResident ∨ p.wh = whSnapshot)) &&
    (kids.foldl (fun (a : Option State) k => a.bind fun s => (placeSlot s e.ctx k.sh 2 p.dim [] []).map (·.1)) (some s)).isNone
  | .error _ => false

/-- FORK with its seed and step0 read (R27 to R33, R90, R220, R258). -/
def forkNow (s : State) (e : Entry) : State :=
  let id := e.id
  let kids := childrenOf e.pkt
  let g := s.ring e.ring
  let chain := (g.stream.map (·.chain)).getD id
  let depth := (g.stream.map (·.depth)).getD 0
  if 16384 < kids.length ∨ e.pkt.payload.length < 16 * kids.length ∨
      kids.any (fun k => decide ((s.ring k.ring).state ≠ 1) || decide (s.ctxOfRing k.ring ≠ some e.ctx)) then
    unpredCommand s id
  else if depth = 64 ∨ 262144 < max 1 (s.chainWidth chain) + kids.length then complete s id { status := 8 }
  else if !s.domReady 24 then holdEntry s id
  else if forkNoRoom s e kids then complete s id { status := 8 }
  else
    let s0 := if g.stream.isSome then s
      else s.setRing e.ring { g with stream := some ⟨e.pkt.sh, e.pkt.kh, chain, 0⟩ }
    match forkAll s0 e kids chain depth with
    | (s1, none) => complete (s1.updEntry id fun x => { x with detail := kids.length }) id { status := 0 }
    | (_, some m) => failEntry (noteErr s e.ctx m) id none m

/-! ### PARK and RESUME (R37 to R40) -/

/-- PARK: reached in its ring's order, it waits for the first edge (R37). -/
def execPark (id : Nat) (s : State) : Out State :=
  .next (match s.entry id with
    | none => s
    | some e => if e.pkt.op ≠ opcPark ∨ e.done then s else s.updEntry id fun x => { x with begun := true })

/-- RESUME: as PARK (R37). -/
def execResume (id : Nat) (s : State) : Out State :=
  .next (match s.entry id with
    | none => s
    | some e => if e.pkt.op ≠ opcResume ∨ e.done then s else s.updEntry id fun x => { x with begun := true })

/-- Mark a ring's transfer under way (R40). -/
def setTransfer (s : State) (r : Nat) (b : Bool) : State := s.setRing r { s.ring r with transfer := b }

/-- A ring's stream is parked, or is not: the state its ring reads (R38). -/
def setParked (s : State) (r : Nat) (b : Bool) : State :=
  let g : Ring := { s.ring r with parked := b }
  setRingState (s.setRing r g) r g.base

/-- A PARK at its edge (R26, R36 to R38, Table 8.5): discard, no-op, or the state written to its image and the ring parked. A state of
dimension zero has no slot and is not parked (log entry 73). The image lies where the entry's image_addr stands now, whatever
streams still reference an earlier image there (log entry 72). -/
def parkAtEdge (s : State) (e : Entry) : State :=
  let c := e.ctx
  let sh := e.pkt.sh
  let kh := e.pkt.kh
  if fld (e.pkt.w 4) 0 0 = 1 then
    match discardStream s c sh kh with
    | (s1, none) =>
      let s2 := s1.setRing e.ring { s1.ring e.ring with stream := none }
      complete (setParked s2 e.ring false) e.id { status := 0 }
    | (_, some m) => failEntry (noteErr s c m) e.id none m
  else if sh = 0 then complete s e.id { status := 0 }
  else match vload s c (s.stateVa c sh) 32, readSEnt s c sh with
    | (s0, _), .error m => failEntry s0 e.id none m
    | (s0, _), .ok p =>
      if p.wh = whNone ∨ p.wh = whParked ∨ p.dim = 0 then complete s0 e.id { status := 0 }
      else
        let s1 := dropImage (if p.wh = whResident then dropSlotAt s0 c p.core p.slot
          else dropReserved (derefSnapshot s0 c p.core p.slot sh) c sh) c sh
        let m := (flushAll s1 (s1.listSlots c kh) 15 0).next fun s2 =>
          (wrB s2 c p.image (imageBytes (s.stateVals c p))).next fun s3 =>
            writeSEnt s3 c sh { p with wh := whParked, core := 0, slot := 0 }
        match m with
        | (s2, none) => setTransfer (setParked s2 e.ring true) e.ring true
        | (_, some x) => failEntry (noteErr s0 c x) e.id none x

/-- A RESUME at its edge, after every PARK (R39): a free slot takes the image, or the command is ABORTED. -/
def resumeAtEdge (s : State) (e : Entry) : State :=
  let c := e.ctx
  let sh := e.pkt.sh
  let fail (m : MErr) : State := failEntry (noteErr s c m) e.id none m
  if sh = 0 then complete s e.id { status := 0 }
  else match readSEnt s c sh with
    | .error m => fail m
    | .ok p =>
      let s0 := vtouch s c (s.stateVa c sh) 32
      if p.wh ≠ whParked then complete s0 e.id { status := 0 }
      else match readSEnt s c (s.imageOwner c sh) with
        | .error m => fail m
        | .ok o => match vread s c o.image (8 * p.dim) with
          | .error m => fail m
          | .ok bs => match placeSlot s0 c sh 0 p.dim (imageVals p.dim bs) [] with
            | none => complete s0 e.id { status := 8 }
            | some (s1, core, unit) =>
              match writeSEnt (dropImage (vtouch s1 c o.image (8 * p.dim)) c sh) c sh { p with wh := whResident, core := core, slot := unit } with
              | (s2, none) => setTransfer (setParked s2 e.ring false) e.ring true
              | (_, some m) => fail m

/-- STATE_TRANSFER_COMPLETE: the transfer of a ring's PARK or RESUME ends and the command completes (R37, R40). -/
def execStateTransferComplete (ring : Nat) (s : State) : Out State :=
  .next (
    if !(s.ring ring).transfer then s
    else
      let s1 := setTransfer s ring false
      match (s1.ringFlight ring).find? fun e => (decide (e.pkt.op = opcPark) || decide (e.pkt.op = opcResume)) && !e.done with
      | some e => complete s1 e.id { status := 0 }
      | none => s1)

/-! ### Discards of closed streams (R82) -/

/-- One discard due, at an edge: one that meets unavailable memory waits for a later edge, one that faults tears its context
down (R82, R373, R450). -/
def discardDueAt (s : State) (x : Nat × Nat × Nat) : State :=
  match discardStream s x.1 x.2.1 x.2.2 with
  | (s1, none) => s1
  | (_, some m) =>
    ownFails (s.putTick { s.tick with discards := s.tick.discards ++ [x] }) (noteErr s x.1 m) x.1 6 m

/-- Apply the discards due of the contexts that satisfy a test. -/
def applyDiscards (s : State) (p : Nat → Bool) : State :=
  let due := s.tick.discards.filter fun x => p x.1
  afterClears (s.putTick { s.tick with discards := s.tick.discards.filter fun x => !p x.1 }) fun s => due.foldl discardDueAt s

/-! ### Host writes to what the part writes (R198, R208, R257) -/

/-- Physical ranges that a write of n bytes at va of context c reaches. -/
def State.reaches (s : State) (c va n : Nat) : List (Nat × Nat) :=
  (pieces va n).filterMap fun pc => match translate s c pc.1 false with
    | .ok l => some (l.pa, pc.2)
    | .error _ => none

/-- State handles of context c that name a live stream: of its rings, its slots, its snapshots and its images (R26). -/
def State.liveHandles (s : State) (c : Nat) : List Nat :=
  (s.rings.filterMap (fun r => if r.2.owner = c then r.2.stream.map (·.sh) else none) ++
    (s.slots.filter (fun x => decide (x.ctx = c))).flatMap (fun x => x.handle :: x.refs) ++
    (s.images.filter (fun x => decide (x.1 = c))).flatMap fun x => [x.2.1, x.2.2]).eraseDups.filter fun h => decide (h ≠ 0)

/-- A list with the lists it was forked from, `n` of them at most. -/
def State.withParents (s : State) (c : Nat) : Nat → Nat → List Nat
  | 0, _ => []
  | n + 1, h =>
    if h = 0 then []
    else h :: match vread64 s c (s.listVa c h + 8) with
      | .ok w => s.withParents c n (bits w 63 32)
      | .error _ => []

/-- Handles of the live and retained lists of context c: of its rings and eyelet slots, and the lists they were forked from (R208). -/
def State.liveLists (s : State) (c : Nat) : List Nat :=
  ((s.rings.filterMap fun r => if r.2.owner = c then r.2.stream.map (·.kh) else none) ++
    (s.kv.slots.filter fun x => decide (x.ctx = c)).map (·.list)).eraseDups.flatMap (s.withParents c 65) |>.eraseDups

/-- Addresses and lengths of the part-written fields of a list and of its planes (Tables 8.1 and 8.2). -/
def State.listFields (s : State) (c h : Nat) : List (Nat × Nat) :=
  let va := s.listVa c h
  let planes := match vread64 s c va with
    | .ok w => (List.range (bits w 63 56)).flatMap fun p => let a := bits w 51 0 + 32 * p; [(a + 1, 7), (a + 24, 5)]
    | .error _ => []
  (va + 8, 8) :: (va + 23, 1) :: planes

/-- Addresses and lengths of context c that the host must not write now: the fields of its live streams' entries that the part writes,
those of its live and retained lists, and seed and step0 while a command other than `id` is admitted that nothing orders after the
write (R198, R208, R257). -/
def State.guarded (s : State) (c : Nat) (id : Option Nat) : List (Nat × Nat) :=
  (s.liveHandles c).flatMap (fun h => [(s.stateVa c h, 16), (s.stateVa c h + 24, 8)]) ++
  (s.liveLists c).flatMap (s.listFields c) ++
  (if (s.ctxFlight c).any fun e => !e.done && decide (some e.id ≠ id) then [(s.keyVa c 0, 16)] else [])

/-- A host write to the ranges `w` touches what context c guards. -/
def State.hostHits (s : State) (w : List (Nat × Nat)) (id : Option Nat) (c : Nat) : Bool :=
  (s.guarded c id).any fun g => (s.reaches c g.1 g.2).any fun x => w.any fun y => overlaps x.1 x.2 y.1 y.2

/-- What a host write made in state s0 to the ranges `w` leaves: an unpredictable outcome within each context whose guarded fields it
touched. -/
def hostWrote (s0 s1 : State) (w : List (Nat × Nat)) (id : Option Nat) : State :=
  (s0.openCtxs.filter (s0.hostHits w id)).foldl (fun s c => unpredictable s (.ctx c)) s1

end Sys2Proof.Machine
end

