-- ==== Sys2Proof/Machine/Operands.lean ====
section
/-!
DEFINITION. Operand forms of the compute commands: stage descriptors, inputs and outputs in memory, hand-over or payload
(R87, R95, Table 3.8), auxiliary arrays, loupe streams and their canonical coding (R178 to R184), and the cutting of a
product into tiles, slices and items (R140 to R150), with its anchors (R124) and sums (R120).
-/
namespace Sys2Proof.Machine

/-! ### Stage descriptors -/

/-- The 8 words of stage i's descriptor (Table 3.8). -/
structure Desc where
  w : List Nat
  deriving DecidableEq, Repr

/-- The descriptor of stage i of a command. -/
def Entry.descAt (e : Entry) (i : Nat) : Desc :=
  ⟨(List.range 8).map fun k => wnat (e.pkt.payload.drop (64 * i)) k⟩

/-- The descriptor of the current stage. -/
def Entry.desc (e : Entry) : Desc := e.descAt e.stage

/-- Field [hi:lo] of word k. -/
def Desc.f (d : Desc) (k hi lo : Nat) : Nat := bits (d.w.getD k 0) hi lo

/-- One bit of word k. -/
def Desc.b (d : Desc) (k i : Nat) : Bool := (d.w.getD k 0).testBit i

/-- Fields of words 0 to 2. -/
def Desc.op (d : Desc) : Nat := d.f 0 63 56
@[inherit_doc Desc.op] def Desc.fold (d : Desc) : Nat := d.f 0 55 48
@[inherit_doc Desc.op] def Desc.inSrc (d : Desc) : Nat := d.f 0 47 46
@[inherit_doc Desc.op] def Desc.outDst (d : Desc) : Nat := d.f 0 45 44
@[inherit_doc Desc.op] def Desc.dataOff (d : Desc) : Nat := d.f 0 18 0
@[inherit_doc Desc.op] def Desc.inAddr (d : Desc) : Nat := d.f 1 63 0
@[inherit_doc Desc.op] def Desc.outAddr (d : Desc) : Nat := d.f 2 63 0

/-! ### Inputs and outputs (R95) -/

/-- n bytes at offset off of the stage's input; `base` is the address used when in_src is memory. -/
def readSrc (s : State) (e : Entry) (d : Desc) (base off n : Nat) : Except MErr (List Byte) :=
  if d.inSrc = 0 then vread s e.ctx (base + off) n
  else
    let buf := if d.inSrc = 1 then e.handover else e.pkt.payload.drop d.dataOff
    if off + n ≤ buf.length then .ok ((buf.drop off).take n) else .error .host

/-- Replace bytes at an offset. -/
def patch (buf : List Byte) (off : Nat) (bs : List Byte) : List Byte :=
  buf.take off ++ bs ++ buf.drop (off + bs.length)

/-- Write output bytes at offset off: to memory at `base + off`, or into the hand-over or return data. -/
def writeOut (s : State) (e : Entry) (d : Desc) (base off : Nat) (bs : List Byte) : M :=
  if d.outDst = 0 then wrB s e.ctx (base + off) bs
  else (s.updEntry e.id fun x => { x with run := { x.run with outBuf := patch x.run.outBuf off bs } }, none)

/-- A word of an auxiliary block read at the start of the stage (R137), zero where there is none. -/
def Entry.aux (e : Entry) (i : Nat) : Nat := (e.run.aux.getD i 0).toNat

/-- Entry i of an FP32 array at an address, 1.0 when the address is zero; an infinite or NaN scale is a host error (R130). -/
def scaleAt (s : State) (c va i : Nat) : Except MErr Ex :=
  if va = 0 then .ok Ex.one
  else match vread s c (va + 4 * i) 4 with
    | .error e => .error e
    | .ok bs => if f32Bad (leNat bs) then .error .host else .ok (f32 (leNat bs))

/-- Entry i of a signed 16-bit, or 32-bit, array. -/
def s16At (s : State) (c va i : Nat) : Except MErr Int := (vread s c (va + 2 * i) 2).map fun bs => sext 16 (leNat bs)
@[inherit_doc s16At] def s32At (s : State) (c va i : Nat) : Except MErr Int :=
  (vread s c (va + 4 * i) 4).map fun bs => sext 32 (leNat bs)

/-! ### Loupe streams (R178 to R184) -/

/-- Rows of a block K_b (Table 6.4); zero for a format without loupe coding. -/
def loupeRows (fmt : Nat) : Nat :=
  if fmt = 6 ∨ fmt = 7 ∨ 12 ≤ fmt then 0 else if inBits fmt = 4 then 32 else if inBits fmt = 16 then 8 else 16

/-- Exponent bits E (Table 6.4). -/
def loupeExp (fmt : Nat) : Nat := match inFp fmt with
  | some f => f.e
  | none => 0

/-- n fields of w bits from byte offset p, least significant first. -/
def fieldsAt (bs : List Byte) (p w n : Nat) : List Nat :=
  let v := leNat (bs.drop p)
  (List.range n).map fun i => v / 2 ^ (w * i) % 2 ^ w

/-- Exponent fields from codes: the all-ones code takes the next escape (R180). -/
def unescape (base w : Nat) : List Nat → List Nat → List Nat
  | [], _ => []
  | c :: cs, esc =>
    if w ≠ 0 ∧ c = 2 ^ w - 1 then esc.headD 0 :: unescape base w cs (esc.drop 1) else (base + c) :: unescape base w cs esc

/-- Decode one sub-stream of N = 16 K_b elements, none when it is not valid (R180, R184): an escape list shorter than its
escape codes counts as such (log entry 59). -/
def decodeSub (fmt word : Nat) (bs : List Byte) : Option (List Nat) :=
  let b := inBits fmt
  let n := 16 * loupeRows fmt
  let ex := loupeExp fmt
  let mode := bits word 31 30
  let w := bits word 29 26
  let base := bits word 25 18
  let esc := bits word 17 10
  let len := 16 * bits word 9 4
  if mode = 0 then (if len < 256 then none else some (fieldsAt bs 0 b n))
  else if mode = 1 then some (List.replicate n 0)
  else if mode = 3 then none
  else if ex = 0 then
    if w = 0 ∨ b ≤ w ∨ len * 8 < n * w then none
    else some ((fieldsAt bs 0 w n).map fun v => toTwos b (sext w v))
  else
    let p1 := n * (b - ex) / 8
    let p2 := p1 + ceilDiv (n * w) 8
    if ex ≤ w ∨ len < p2 + ceilDiv (esc * ex) 8 then none
    else
      let rest := fieldsAt bs 0 (b - ex) n
      let codes := fieldsAt bs p1 w n
      let exps := unescape base w codes (fieldsAt bs p2 ex esc)
      if w ≠ 0 ∧ esc < (codes.filter fun c => decide (c = 2 ^ w - 1)).length then none
      else some ((rest.zip exps).map fun re =>
        let sgn := re.1 / 2 ^ (b - ex - 1)
        sgn * 2 ^ (b - 1) + (re.2 % 2 ^ ex) * 2 ^ (b - 1 - ex) + re.1 % 2 ^ (b - ex - 1))

/-- A stream descriptor (Table 6.3): layout, k, n, header base, payload base, index base. -/
structure Loupe where
  layout : Nat
  k : Nat
  n : Nat
  header : Nat
  payload : Nat
  index : Nat
  deriving DecidableEq, Repr

/-- Read the descriptor a w_addr names (R178). -/
def readLoupe (s : State) (c va : Nat) : Except MErr Loupe :=
  (vwords s c va 4).map fun w =>
    ⟨bits (w.getD 0 0) 63 62, bits (w.getD 0 0) 56 32, bits (w.getD 0 0) 24 0, w.getD 1 0, w.getD 2 0, w.getD 3 0⟩

/-- Header words and payload address of block b. -/
def loupeBlock (s : State) (c : Nat) (l : Loupe) (b : Nat) : Except MErr (List Nat × Nat) :=
  match vread s c (l.header + 64 * b) 64 with
  | .error e => .error e
  | .ok h =>
    let ws := (List.range 16).map fun g => leNat ((h.drop (4 * g)).take 4)
    if l.layout = 1 then
      if 4096 < ws.foldl (fun n w => n + 16 * bits w 9 4) 0 then .error .host else .ok (ws, l.payload + 4096 * b)
    else if l.layout = 0 then (vread s c (l.index + 4 * b) 4).map fun i => (ws, l.payload + 16 * leNat i)
    else .error .host

/-- The element codes of sub-stream g of block b. -/
def loupeSub (s : State) (c fmt : Nat) (l : Loupe) (b g : Nat) : Except MErr (List Nat) :=
  match loupeBlock s c l b with
  | .error e => .error e
  | .ok (ws, va) =>
    let off := (ws.take g).foldl (fun n w => n + 16 * bits w 9 4) 0
    let w := ws.getD g 0
    match vread s c (va + off) (16 * bits w 9 4) with
    | .error e => .error e
    | .ok bs => match decodeSub fmt w bs with
      | some cs => .ok cs
      | none => .error .host

/-- The blocks along k that rows [k0, k0 + n) of a stream lie in. -/
def loupeSpan (fmt k0 n : Nat) : List Nat :=
  let kb := max 1 (loupeRows fmt)
  (List.range (ceilDiv (k0 + n) kb - k0 / kb)).map (k0 / kb + ·)

/-- The codes of column j at rows [k0, k0 + n) (R179). -/
def loupeCol (s : State) (c fmt : Nat) (l : Loupe) (j k0 n : Nat) : Except MErr (List Nat) :=
  let kb := max 1 (loupeRows fmt)
  (mapE (fun i => (loupeSub s c fmt l (j / 256 * ceilDiv l.k kb + i) (j % 256 / 16)).map fun cs =>
    (List.range kb).map fun r => cs.getD (16 * r + j % 16) 0) (loupeSpan fmt k0 n)).map fun x => (x.flatten.drop (k0 % kb)).take n

/-- The blocks that hold rows [k0, k0 + n) of some columns. -/
def loupeBlocks (fmt : Nat) (l : Loupe) (cols : List Nat) (k0 n : Nat) : List Nat :=
  (dedup (cols.map (· / 256))).flatMap fun g => (loupeSpan fmt k0 n).map (g * ceilDiv l.k (max 1 (loupeRows fmt)) + ·)

/-- Address and bytes of the payload a fetch of block b reads (R182). -/
def loupeBytes (s : State) (c : Nat) (l : Loupe) (b : Nat) : Nat × Nat := match loupeBlock s c l b with
  | .ok x => (x.2, x.1.foldl (fun m v => m + 16 * bits v 9 4) 0)
  | .error _ => (l.header + 64 * b, 0)

/-- Pack fields of w bits least significant first, padded to a byte. -/
def packFields (w : Nat) (l : List Nat) : List Byte :=
  leBytes (ceilDiv (w * l.length) 8) ((l.zipIdx).foldl (fun v x => v + x.1 % 2 ^ w * 2 ^ (w * x.2)) 0)

/-- The plane coding of a floating sub-stream at width w: bytes and escapes (R180, R183). -/
def planeCode (b ex base w : Nat) (cs : List Nat) : List Byte × Nat :=
  let rest := cs.map fun c => c / 2 ^ (b - 1) % 2 * 2 ^ (b - ex - 1) + c % 2 ^ (b - ex - 1)
  let exps := cs.map fun c => c / 2 ^ (b - 1 - ex) % 2 ^ ex
  let isEsc (x : Nat) : Bool := decide (w ≠ 0) && !decide (base ≤ x ∧ x - base < 2 ^ w - 1)
  let esc := exps.filter isEsc
  (packFields (b - ex) rest ++ packFields w (exps.map fun x => if isEsc x then 2 ^ w - 1 else x - base) ++ packFields ex esc,
    esc.length)

/-- The canonical coding of a sub-stream: its word and its payload (R183). -/
def encodeSub (fmt : Nat) (cs : List Nat) : Nat × List Byte :=
  let b := inBits fmt
  let ex := loupeExp fmt
  let pad (bs : List Byte) : List Byte := bs ++ zeros (roundUp bs.length 16 - bs.length)
  let raw := packFields b cs
  if cs.all (fun c => decide (c = 0)) then (1 * 2 ^ 30, [])
  else if ex = 0 then
    match (List.range b).find? fun w => decide (0 < w) && cs.all (fun c => decide (toTwos b (sext w c) = c)) with
    | some w => let p := pad (packFields w (cs.map fun c => c % 2 ^ w)); (2 * 2 ^ 30 + w * 2 ^ 26 + p.length / 16 * 2 ^ 4, p)
    | none => (16 * 2 ^ 4, raw)
  else
    let exps := (cs.map fun c => c / 2 ^ (b - 1 - ex) % 2 ^ ex).filter fun x => decide (x ≠ 0)
    let base := exps.foldl min (exps.headD 0)
    let size (w : Nat) : Nat := ceilDiv (planeCode b ex base w cs).1.length 16
    let ok (w : Nat) : Bool := decide (w ≠ 0) || cs.all fun c => decide (c / 2 ^ (b - 1 - ex) % 2 ^ ex = base)
    let ws := (List.range ex).filter ok
    let best := ws.foldl (fun m w => if size w < size m then w else m) (ws.headD 1)
    if 16 ≤ size best then (16 * 2 ^ 4, raw)
    else
      let p := planeCode b ex base best cs
      let q := pad p.1
      (2 * 2 ^ 30 + best * 2 ^ 26 + base * 2 ^ 18 + p.2 * 2 ^ 10 + q.length / 16 * 2 ^ 4, q)

/-- Decoder cycles beyond 16 of a sub-stream: of a PLANE one, beyond 8 escapes (R181). -/
def escCycles (fmt word : Nat) : Nat := if bits word 31 30 = 2 ∧ loupeExp fmt ≠ 0 then bits word 17 10 - 8 else 0

/-! ### Products: tiles, slices and items (R140 to R150) -/

/-- One entry of a product, or one group of a grouped CONV: entry number, rows L, first output column. -/
structure PEnt where
  e : Nat
  rows : Nat
  col : Nat
  deriving DecidableEq, Repr

/-- Ranges (address, bytes), those that follow one another joined. -/
def joinRanges : List (Nat × Nat) → List (Nat × Nat)
  | [] => []
  | r :: rs => match joinRanges rs with
    | [] => if r.2 = 0 then [] else [r]
    | q :: qs => if r.2 = 0 then q :: qs else if r.1 + r.2 = q.1 then (r.1, r.2 + q.2) :: qs else r :: q :: qs

/-- Account the reads of ranges of context c (R286, R292, R301). -/
def touchAll (s : State) (c : Nat) (rs : List (Nat × Nat)) : State := rs.foldl (fun s r => vtouch s c r.1 r.2) s

/-- Elements [k0, k0 + n) of a run of b-bit elements at an address: their address and bytes. -/
def cutRange (va b k0 n : Nat) : Nat × Nat := (va + k0 * b / 8, ceilDiv (n * b) 8)

/-- A product as the sequencer sees it: shapes, controls, formats, how elements [k0, k0 + n) of a row of x and of a column of w and the
MX scales of an entry are read, and the bytes that a fetch of rows or columns reads: of x, of w's headers, index and scales, of w
itself, and of the scale planes. -/
structure Prod where
  ents : List PEnt
  n : Nat
  k : Nat
  ctl : Nat
  fold : Word
  gang : Nat
  xf : Nat
  wf : Nat
  policy : Nat
  margin : Nat
  stoch : Bool
  anchor : Int
  x : State → PEnt → (row k0 n : Nat) → Except MErr (List Ex × VFlags)
  w : State → PEnt → (col k0 n : Nat) → Except MErr (List Ex × VFlags)
  xs : State → PEnt → Except MErr (List Byte)
  ws : State → PEnt → Except MErr (List Byte)
  packed : PEnt → Bool
  xAt : State → PEnt → (rows : List Nat) → (k0 n : Nat) → List (Nat × Nat)
  wAux : State → PEnt → (cols : List Nat) → (k0 n : Nat) → List (Nat × Nat)
  wAt : State → PEnt → (cols : List Nat) → (k0 n : Nat) → List (Nat × Nat)
  planesAt : PEnt → List (Nat × Nat)

/-- Fields of seq_ctl (Table 5.1). -/
def Prod.order (p : Prod) : Nat := bits p.ctl 13 12
@[inherit_doc Prod.order] def Prod.kOuter (p : Prod) : Bool := p.ctl.testBit 11
@[inherit_doc Prod.order] def Prod.kSplit (p : Prod) : Nat := bits p.ctl 10 7
@[inherit_doc Prod.order] def Prod.gc (p : Prod) : Nat := min 64 (bits p.ctl 6 0)

/-- LR and LC. -/
def Prod.lr (p : Prod) : Nat := foldRows p.fold
@[inherit_doc Prod.lr] def Prod.lc (p : Prod) : Nat := foldCols p.fold

/-- Slice length K_s and the slices that are items (R141). -/
def Prod.sliceLen (p : Prod) : Nat := 32 * ceilDiv p.k (32 * p.kSplit)
@[inherit_doc Prod.sliceLen] def Prod.slices (p : Prod) : Nat :=
  if p.kSplit = 0 then 0 else if p.k = 0 then 1 else ceilDiv p.k p.sliceLen

/-- A tile: index into `ents`, tile row, tile column. -/
structure Tile where
  ent : Nat
  tr : Nat
  tc : Nat
  deriving DecidableEq, Repr

/-- Entry i of the product. -/
def Prod.ent (p : Prod) (i : Nat) : PEnt := p.ents.getD i ⟨0, 0, 0⟩

/-- Tile rows of an entry, and tile columns. -/
def Prod.trs (p : Prod) (i : Nat) : Nat := ceilDiv (p.ent i).rows p.lr
@[inherit_doc Prod.trs] def Prod.tcs (p : Prod) : Nat := ceilDiv p.n p.lc

/-- gc′ and gr of the grid (R144). -/
def Prod.gcp (p : Prod) (np : Nat) : Nat := min p.gc np
@[inherit_doc Prod.gcp] def Prod.gr (p : Prod) (np : Nat) : Nat := if p.gcp np = 0 then 0 else np / p.gcp np

/-- The cell of a tile (R144). -/
def Prod.cellOf (p : Prod) (np : Nat) (t : Tile) : Nat := t.tr % max 1 (p.gr np) * p.gcp np + t.tc % max 1 (p.gcp np)

/-- Tiles in row-major order: e, tr, tc. -/
def Prod.rowMajor (p : Prod) : List Tile :=
  (List.range p.ents.length).flatMap fun i => (List.range (p.trs i)).flatMap fun r => (List.range p.tcs).map fun c => ⟨i, r, c⟩

/-- Tiles in the stage's order (Table 5.2). In grid order a cell's tiles follow each other by e, tr, tc; across cells the
numbers run in that order too, whatever P is (DEDUCED, log entry 13). -/
def Prod.tiles (p : Prod) : List Tile :=
  let nr := (List.range p.ents.length).foldl (fun m i => max m (p.trs i)) 0
  if p.lr = 0 ∨ p.lc = 0 ∨ p.kSplit = 0 then []
  else if p.order = 0 then p.rowMajor
  else if p.order = 1 then
    (List.range p.ents.length).flatMap fun i => (List.range p.tcs).flatMap fun c => (List.range (p.trs i)).map fun r => ⟨i, r, c⟩
  else if p.order = 2 then
    (List.range nr).flatMap fun r => (List.range p.tcs).flatMap fun c =>
      ((List.range p.ents.length).filter fun i => decide (r < p.trs i)).map fun i => ⟨i, r, c⟩
  else if p.gc = 0 then []
  else p.rowMajor

/-- W, the number of items (R142). -/
def Prod.count (p : Prod) : Nat := p.tiles.length * p.slices

/-- The tile and slice of an item (R143). -/
def Prod.itemTile (p : Prod) (i : Nat) : Nat := i / max 1 p.slices
@[inherit_doc Prod.itemTile] def Prod.itemSlice (p : Prod) (i : Nat) : Nat := i % max 1 p.slices

/-- Output rows and columns of a tile (R140). -/
def Prod.rowsOf (p : Prod) (t : Tile) : List Nat :=
  (List.range (min ((p.ent t.ent).rows - t.tr * p.lr) p.lr)).map (t.tr * p.lr + ·)
@[inherit_doc Prod.rowsOf] def Prod.colsOf (p : Prod) (t : Tile) : List Nat :=
  (List.range (min (p.n - t.tc * p.lc) p.lc)).map (t.tc * p.lc + ·)

/-- A pass with an active row and column (R149, R150): its number in the fold, where it lies in the tile, its output rows and columns. -/
structure Pass where
  no : Nat
  r0 : Nat
  c0 : Nat
  rows : List Nat
  cols : List Nat
  deriving DecidableEq, Repr

/-- Passes of the fold, and blocks of a tile (R154). -/
def Prod.passCount (p : Prod) : Nat := foldPassRows p.fold * foldPassCols p.fold

/-- The passes of the fold in its order: row by row, column by column, or rows in alternate directions (Table 2.9). -/
def Prod.passOrder (p : Prod) : List (Nat × Nat) :=
  let fr := foldPassRows p.fold
  let fc := foldPassCols p.fold
  if foldOrder p.fold = 1 then (List.range fc).flatMap fun c => (List.range fr).map fun r => (r, c)
  else (List.range fr).flatMap fun r => (List.range fc).map fun c => (r, if foldOrder p.fold = 2 ∧ r % 2 = 1 then fc - 1 - c else c)

/-- The active passes of a tile in the fold's order. -/
def Prod.passes (p : Prod) (t : Tile) : List Pass :=
  let gr := gangRows p.gang
  let gc := gangCols p.gang
  (p.passOrder.map fun x => ⟨x.1 * foldPassCols p.fold + x.2, x.1 * gr, x.2 * gc, ((p.rowsOf t).drop (x.1 * gr)).take gr,
    ((p.colsOf t).drop (x.2 * gc)).take gc⟩).filter fun q => decide (q.rows ≠ [] ∧ q.cols ≠ [])

/-- The commit bit of a block (R154), and the bits of the passes that are skipped. -/
def Prod.blockNo (p : Prod) (ti : Nat) (q : Pass) : Nat := ti * p.passCount + q.no
@[inherit_doc Prod.blockNo] def Prod.skipped (p : Prod) : List Nat :=
  p.tiles.zipIdx.flatMap fun t =>
    let on := (p.passes t.1).map (·.no)
    ((List.range p.passCount).filter fun k => !on.contains k).map (t.2 * p.passCount + ·)

/-- The cores, from an array's lowest, with a cell of n rows and m columns; the core of a cell's row and of its column (R114, R168). -/
def cellCores (n m : Nat) : List Nat :=
  (List.range (ceilDiv n 256)).flatMap fun r => (List.range (ceilDiv m 256)).map fun c => 8 * r + c
@[inherit_doc cellCores] def Prod.rowCore (p : Prod) (r : Nat) : Nat := r % gangRows p.gang / 256 * 8
@[inherit_doc cellCores] def Prod.colCore (p : Prod) (c : Nat) : Nat := c % gangCols p.gang / 256

/-- The array index (0 to P − 1) that is a tile's home (R145). -/
def Prod.home (p : Prod) (np ti : Nat) : Nat :=
  if p.order = 3 then p.cellOf np (p.tiles.getD ti ⟨0, 0, 0⟩) else ti % max 1 np

/-- Elements of k of slice sl, its first and their number (R141). -/
def Prod.slice (p : Prod) (sl : Nat) : Nat × Nat := (sl * p.sliceLen, min (p.k - sl * p.sliceLen) p.sliceLen)

/-- Blocks that take turns in the last product tile of one item's k-outer walk, and how often each is written out (R158). -/
def Prod.spills (p : Prod) (tp : Nat) (t : Tile) (sl : Nat) : List Pass × Nat :=
  let b := max (inBits p.xf) (inBits p.wf)
  let kc := max 256 (2 ^ 23 / (max 1 ((p.lr + p.lc) * b)) / 256 * 256)
  let bl := p.passes t
  if !p.kOuter ∨ bl.length ≤ tp then ([], 0) else (bl.drop (tp - 1), ceilDiv (p.slice sl).2 kc - 1)

/-! ### Anchors (R124 to R127) -/

/-- The largest E8M0 scale that is not NaN. -/
def maxScale (bs : List Byte) : Option Nat :=
  bs.foldl (fun m b => if b.toNat = 255 then m else some (max (m.getD 0) b.toNat)) none

/-- The largest magnitude of rows of values. -/
def maxMag (rs : List (List Ex × VFlags)) : Ex := rs.foldl (fun m r => r.1.foldl (fun m v => m.max v.abs) m) Ex.zero

/-- E under Block of an operand of format `fmt` with the entry's scales. -/
def blockE (fmt : Nat) (sc : List Byte) : Option Int :=
  if isMx fmt then (maxScale sc).map fun m => (m : Int) - 127 + eMax fmt else some (eMax fmt)

/-- E under Auto: none where no value is nonzero. -/
def autoE (m : Ex) : Option Int := if m.num = 0 then none else some m.clog2

/-- Sum of the two exponents with the margin and g; zero where an operand has nothing (R126). -/
def Prod.sumAnchor (p : Prod) : Option Int → Option Int → Int
  | some a, some b => a + b + p.margin + headroom p.k p.margin
  | _, _ => 0

/-- The parts of entry number e. -/
def Prod.partsOf (p : Prod) (e : Nat) : List PEnt := p.ents.filter fun t => decide (t.e = e)

/-- All rows of x, and all columns of w, of an entry. -/
def Prod.rowsAll (p : Prod) (s : State) (e : Nat) : Except MErr (List (List Ex × VFlags)) :=
  (mapE (fun t : PEnt => mapE (fun i => p.x s t i 0 p.k) (List.range t.rows)) (p.partsOf e)).map List.flatten
@[inherit_doc Prod.rowsAll] def Prod.colsAll (p : Prod) (s : State) (e : Nat) : Except MErr (List (List Ex × VFlags)) :=
  (mapE (fun t : PEnt => mapE (fun j => p.w s t j 0 p.k) (List.range p.n)) (p.partsOf e)).map List.flatten

/-- No value of x or w is considered for an entry (R126). -/
def Prod.hollow (p : Prod) (e : Nat) : Bool := decide (p.k = 0) || (p.partsOf e).all fun t => decide (t.rows = 0)

/-- The anchor of entry e (R124, R126): under Descriptor the descriptor's own, whatever k and L_e are (log entry 84). -/
def Prod.anchorOf (p : Prod) (s : State) (e : Nat) : Except MErr Int :=
  if p.policy = 0 then .ok p.anchor
  else if p.hollow e then .ok 0
  else if p.policy = 1 then
    (both (mapE (p.xs s) (p.partsOf e)) (mapE (p.ws s) (p.partsOf e))).map fun x =>
      p.sumAnchor (blockE p.xf x.1.flatten) (blockE p.wf x.2.flatten)
  else if p.n = 0 then .ok 0
  else (both (p.rowsAll s e) (p.colsAll s e)).map fun x => p.sumAnchor (autoE (maxMag x.1)) (autoE (maxMag x.2))

/-- What fixing entry e's anchor reads (Table 4.4). -/
def Prod.anchorReads (p : Prod) (s : State) (e : Nat) : List (Nat × Nat) :=
  if p.policy = 0 ∨ p.hollow e then []
  else if p.policy = 1 then (p.partsOf e).flatMap p.planesAt
  else if p.n = 0 then []
  else (p.partsOf e).flatMap fun t =>
    p.xAt s t (List.range t.rows) 0 p.k ++ p.wAux s t (List.range p.n) 0 p.k ++ p.wAt s t (List.range p.n) 0 p.k

/-! ### Sums (R120) -/

/-- ARR_STAT bits (Table 4.11). -/
abbrev flSatProd : Nat := 0x01
@[inherit_doc flSatProd] abbrev flSatOut : Nat := 0x02
@[inherit_doc flSatProd] abbrev flUnderProd : Nat := 0x04
@[inherit_doc flSatProd] abbrev flUnderOut : Nat := 0x08
@[inherit_doc flSatProd] abbrev flInf : Nat := 0x10
@[inherit_doc flSatProd] abbrev flNan : Nat := 0x20
@[inherit_doc flSatProd] abbrev flHeadroom : Nat := 0x40

/-- Input flags as ARR_STAT bits. -/
def VFlags.inBits (v : VFlags) : Nat := b2n v.nan * flNan + b2n v.inf * flInf

/-- Output flags as ARR_STAT bits. -/
def VFlags.outBits (v : VFlags) : Nat := b2n v.sat * flSatOut + b2n v.under * flUnderOut

/-- What an item forms: its partial, the flags it raises by core of the array, and the maxima of the operands it read, FP32 codes. -/
structure ItemSums where
  pt : Partial
  flags : List (Nat × Nat)
  maxX : Nat
  maxW : Nat

/-- The sums of slice sl of a tile, row-major (R120, R141). Product flags rise on the core of the cell, input flags on the core whose
edge takes the row or column (R134, R168; log entry 46). -/
def Prod.sums (p : Prod) (s : State) (key : Key) (a : Int) (t : Tile) (sl num : Nat) : Except MErr ItemSums :=
  let en := p.ent t.ent
  let k := p.slice sl
  (both (mapE (fun i => p.x s en i k.1 k.2) (p.rowsOf t)) (mapE (fun j => p.w s en j k.1 k.2) (p.colsOf t))).map fun o =>
    let cells := ((p.rowsOf t).zip o.1).zipIdx.flatMap fun ix => ((p.colsOf t).zip o.2).zipIdx.map fun jw =>
      (p.rowCore ix.2 + p.colCore jw.2,
        dotFrom a p.stoch (fun kk => key.prod en.e ix.1.1 (en.col + jw.1.1) kk) k.1 Acc64.zero ix.1.2.1 jw.1.2.1)
    let fl := (o.1.zipIdx.map fun r => (p.rowCore r.2, r.1.2.inBits)) ++ (o.2.zipIdx.map fun r => (p.colCore r.2, r.1.2.inBits)) ++
      cells.map fun x => (x.1, (if x.2.sat = 0 then 0 else flSatProd) ||| (if x.2.under = 0 then 0 else flUnderProd))
    ⟨⟨num, cells.map (·.2.v), cells.foldl (fun n x => n + x.2.sat) 0, cells.foldl (fun n x => n + x.2.under) 0⟩,
      fl.filter fun x => decide (x.2 ≠ 0), fp32Up (maxMag o.1), fp32Up (maxMag o.2)⟩

/-- The sum of partials, element by element modulo 2^64 (R122, R156). -/
def addPartial (a b : Partial) : Partial :=
  ⟨a.key, List.zipWith (fun x y => wrap64 (x + y)) a.vals b.vals, a.sat + b.sat, a.under + b.under⟩

end Sys2Proof.Machine
end

