-- ==== Sys2Proof/Machine/Flags.lean ====
section
/-!
DEFINITION. The flags a compute command raises (R134, Table 4.7): the record's saturation and underflow, and ARR_STAT,
GATE_STAT, SCN_STAT and AWL_STAT; and the statistics of an entry (R135).
-/
namespace Sys2Proof.Machine

/-- Set bits of a status register (W1C flags are only set by the part). -/
def State.orReg (s : State) (off bitsNat : Nat) : State := s.setReg off (s.reg off ||| BitVec.ofNat 64 bitsNat)

/-- ARR_STAT causes of the record's saturation flag, and of its underflow flag (Table 4.7). -/
def satCauses : Nat := flSatProd ||| flSatOut ||| flNan ||| flInf
@[inherit_doc satCauses] def underCauses : Nat := flUnderProd ||| flUnderOut

/-- Raise the record's flags of a command. -/
def raiseRecord (s : State) (id : Nat) (sat under : Bool) : State :=
  s.updEntry id fun e => { e with sat := e.sat || sat, under := e.under || under }

/-- Raise ARR_STAT bits on a core, with the record's flags (R134). -/
def raiseArr (s : State) (id core fl : Nat) : State :=
  if fl = 0 then s
  else raiseRecord (s.orReg (Reg.ARR_STAT core) fl) id (decide (fl &&& satCauses ≠ 0)) (decide (fl &&& underCauses ≠ 0))

/-- Raise flags on cores counted from an array's lowest. -/
def raiseCores (s : State) (id a : Nat) (fl : List (Nat × Nat)) : State := fl.foldl (fun s x => raiseArr s id (a + x.1) x.2) s

/-- The same causes on the awl engines: AWL_STAT, not ARR_STAT (Table 9.6). -/
def raiseAwl (s : State) (id fl : Nat) : State :=
  let sat := decide (fl &&& satCauses ≠ 0)
  let und := decide (fl &&& underCauses ≠ 0)
  if fl = 0 then s else raiseRecord (s.orReg Reg.AWL_STAT (b2n sat * 2 ^ 10 + b2n und * 2 ^ 11)) id sat und

/-- Blocks of four words that a core's generator has produced (R255, Table 10.9). -/
def drewBlocks (s : State) (core n : Nat) : State := if n = 0 then s else s.addF (Reg.RNG_BLOCKS core) 63 0 n

/-- Blocks that the coordinates of some words lie in. -/
def quads (l : List Nat) : Nat := ((l.map (· / 4)).eraseDups).length

/-- The blocks of stochastic output rounding of one row of a pass: row and first column in the pass, output columns (Table 10.2). -/
def drewRow (s : State) (p : Prod) (a r c0 : Nat) (cols : List Nat) : State :=
  let at_ := cols.zipIdx.map fun c => (p.colCore (c0 + c.2), c.1)
  (dedup (at_.map (·.1))).foldl (fun s k =>
    drewBlocks s (a + p.rowCore r + k) (quads ((at_.filter fun c => decide (c.1 = k)).map (·.2)))) s

/-- The blocks of stochastic product rounding of a pass over n elements of k: row words on the cores that feed its rows, column words on
those that feed its columns (R255, R256; log entry 45). -/
def drewPass (s : State) (p : Prod) (a : Nat) (q : Pass) (n : Nat) : State :=
  let rows (k : Nat) : Nat := (q.rows.zipIdx.filter fun r => decide (p.rowCore (q.r0 + r.2) = k)).length
  let cols (k : Nat) : Nat := (q.cols.zipIdx.filter fun c => decide (p.colCore (q.c0 + c.2) = k)).length
  if !p.stoch then s
  else (cellCores q.rows.length q.cols.length).foldl (fun s k =>
    drewBlocks s (a + k) (((if k % 8 = 0 then rows k else 0) + if k < 8 then cols k else 0) * ceilDiv n 4)) s

/-- Nothing counted. -/
def StatAcc.zero : StatAcc := ⟨0, 0, 0, 0, 0, 0, 0⟩

/-- Add a tile's counts to entry i's statistics (R135). -/
def addStats (s : State) (id i : Nat) (y satP underP satO underO : Nat) : State :=
  s.updEntry id fun e => { e with run := { e.run with
    stats := updAt e.run.stats i fun a =>
      { a with maxY := max a.maxY y, satP := a.satP + satP, underP := a.underP + underP, satO := a.satO + satO,
               underO := a.underO + underO } } }

/-- Raise the maxima of entry i's operands (R135). -/
def raiseMax (s : State) (id i x w : Nat) : State :=
  s.updEntry id fun e => { e with run := { e.run with
    stats := updAt e.run.stats i fun a => { a with maxX := max a.maxX x, maxW := max a.maxW w } } }

/-- A statistics record (Table 4.8). -/
def statBytes (a : StatAcc) (anchor : Int) : List Byte :=
  let c (n : Nat) : Nat := min n (2 ^ 32 - 1)
  leBytes 8 (a.maxX * 2 ^ 32 + a.maxW) ++ leBytes 8 (a.maxY * 2 ^ 32 + toTwos 16 anchor * 2 ^ 16) ++
    leBytes 8 (c a.satP * 2 ^ 32 + c a.underP) ++ leBytes 8 (c a.satO * 2 ^ 32 + c a.underO)

/-- Write the statistics records of every entry at an address (R132, R135). -/
def writeStats (s : State) (e : Entry) (addr : Nat) : M :=
  foldM (fun s x => wrB s e.ctx (addr + 32 * x.2) (statBytes x.1 (e.run.anchors.getD x.2 0))) s e.run.stats.zipIdx

end Sys2Proof.Machine
end

