-- ==== Sys2Proof/Machine/MatMul.lean ====
section
/-!
DEFINITION. MATMUL (04_matrix_array.md, 05_tiling_and_sequencer.md): its product, and the conversion and write of a tile
(R129 to R133, R146 to R148). Starting the stage and its items are in Stage.lean.
-/
namespace Sys2Proof.Machine

/-- The fold entry a stage names; an index at or above fold_count is a host error (R63). -/
def foldOf (s : State) (e : Entry) (i : Nat) : Except MErr Word :=
  let fs := (s.part e.part).frag.folds
  match fs[i]? with
  | some w => .ok (if foldEmpty w then 0 else w)
  | none => .error .host

/-- The gang of the command's partition. -/
def gangOf (s : State) (e : Entry) : Nat := (s.part e.part).frag.gang

/-- Bytes of k elements of b bits. -/
def rowBytes (k b : Nat) : Nat := ceilDiv (k * b) 8

/-- Elements [k0, k0 + m) of a column of w of k rows and n columns: uncoded at `w + j × ⌈k b / 8⌉`, or from the loupe stream when bit 63
of the address is 1 (R117, R178, R184). -/
def readCol (s : State) (c fmt k n w j k0 m : Nat) (scales : List Byte) : Except MErr (List Ex × VFlags) :=
  if w.testBit 63 then
    if loupeRows fmt = 0 ∨ bits w 62 52 ≠ 0 then .error .host
    else match readLoupe s c (bits w 51 0) with
      | .error x => .error x
      | .ok l =>
        if l.k ≠ k ∨ l.n ≠ n ∨ 2 ≤ l.layout then .error .host
        else (loupeCol s c fmt l j k0 m).map fun cs => readRow fmt m (packFields (inBits fmt) cs) scales
  else
    let r := cutRange (w + j * rowBytes k (inBits fmt)) (inBits fmt) k0 m
    (vread s c r.1 r.2).map fun bs => readRow fmt m bs scales

/-- The scales of elements [k0, k0 + m) of row or column `idx` of an MX operand of k elements: their address and bytes (R148). -/
def scaleRange (k base idx k0 m : Nat) : Nat × Nat := (base + idx * ceilDiv k 32 + k0 / 32, ceilDiv m 32)

/-- Those scales; none for other formats. An MX format without a plane is a host error (R136). -/
def readScales (s : State) (c fmt k base idx k0 m : Nat) : Except MErr (List Byte) :=
  if !isMx fmt then .ok []
  else if base = 0 then .error .host
  else vread s c (scaleRange k base idx k0 m).1 (scaleRange k base idx k0 m).2

/-- The scale plane of `num` rows or columns from `idx` on, whole. -/
def readPlane1 (s : State) (c fmt k base idx num : Nat) : Except MErr (List Byte) :=
  (mapE (fun i => readScales s c fmt k base (idx + i) 0 k) (List.range num)).map List.flatten

/-- The bytes of those scales. -/
def scaleRanges (fmt k base : Nat) (idx : List Nat) (k0 m : Nat) : List (Nat × Nat) :=
  if !isMx fmt ∨ base = 0 then [] else joinRanges (idx.map fun i => scaleRange k base i k0 m)

/-- The bytes of w that a fetch of columns reads: payloads of a loupe stream, or the columns' parts (R182). -/
def wRanges (s : State) (c fmt k w : Nat) (cols : List Nat) (k0 m : Nat) : List (Nat × Nat) :=
  if w.testBit 63 then
    match readLoupe s c (bits w 51 0) with
    | .ok l => joinRanges ((loupeBlocks fmt l cols k0 m).map (loupeBytes s c l))
    | .error _ => []
  else joinRanges (cols.map fun j => cutRange (w + j * rowBytes k (inBits fmt)) (inBits fmt) k0 m)

/-- What such a fetch reads beside them: the stream's descriptor, headers and index entries (R181). -/
def loupeRanges (s : State) (c fmt w : Nat) (cols : List Nat) (k0 m : Nat) : List (Nat × Nat) :=
  if !w.testBit 63 then []
  else match readLoupe s c (bits w 51 0) with
    | .ok l =>
      let bs := loupeBlocks fmt l cols k0 m
      (bits w 51 0, 64) :: joinRanges (bs.map fun b => (l.header + 64 * b, 64)) ++
        if l.layout = 0 then joinRanges (bs.map fun b => (l.index + 4 * b, 4)) else []
    | .error _ => []

/-! ### The stage's fields (Table 4.9) -/

/-- m, n and k. -/
def Desc.mmM (d : Desc) : Nat := d.f 3 63 39
@[inherit_doc Desc.mmM] def Desc.mmN (d : Desc) : Nat := d.f 3 38 14
@[inherit_doc Desc.mmM] def Desc.mmK (d : Desc) : Nat := d.f 4 63 39

/-- Formats and controls. -/
def Desc.mmX (d : Desc) : Nat := d.f 4 38 35
@[inherit_doc Desc.mmX] def Desc.mmW (d : Desc) : Nat := d.f 4 34 31
@[inherit_doc Desc.mmX] def Desc.mmOut (d : Desc) : Nat := d.f 4 30 27
@[inherit_doc Desc.mmX] def Desc.mmStats (d : Desc) : Bool := d.b 4 17
@[inherit_doc Desc.mmX] def Desc.mmAccum (d : Desc) : Bool := d.b 4 16
@[inherit_doc Desc.mmX] def Desc.mmAux (d : Desc) : Nat := d.f 5 63 0
@[inherit_doc Desc.mmX] def Desc.mmList (d : Desc) : Nat := d.f 7 63 0

/-- Row strides X and Y (R146). -/
def Desc.mmXs (d : Desc) : Nat := rowBytes d.mmK (inBits d.mmX)
@[inherit_doc Desc.mmXs] def Desc.mmYs (d : Desc) : Nat := d.mmN * outBytes d.mmOut

/-- A descriptor the part does not define (R88, R136). -/
def mmBad (d : Desc) : Bool :=
  decide (16777216 < d.mmM ∨ 16777216 < d.mmN ∨ 16777216 < d.mmK ∨ 12 ≤ d.mmX ∨ 12 ≤ d.mmW ∨ 7 ≤ d.mmOut ∨
    d.f 4 26 25 = 3 ∨ d.inSrc = 3 ∨ d.outDst = 3)

/-- L_e (R140). -/
def mmRows (e : Entry) (d : Desc) (i : Nat) : Nat :=
  let p := e.run.ptrs.getD i ⟨0, 0, 0, 0, false⟩
  min d.mmM (if d.mmList ≠ 0 ∧ p.lenEn then p.len else e.pkt.len)

/-- Address of x, of w and of y of entry i (R146, R147). -/
def mmAddr (e : Entry) (d : Desc) (i : Nat) : PtrEntry :=
  if d.mmList = 0 then ⟨d.inAddr, d.f 6 63 0, d.outAddr, 0, false⟩ else e.run.ptrs.getD i ⟨0, 0, 0, 0, false⟩

/-- Offset of entry i's rows of stride `st`: none when a pointer list gives its address. -/
def mmOff (d : Desc) (src i st : Nat) : Nat := if d.mmList ≠ 0 ∧ src = 0 then 0 else i * d.mmM * st

/-- Index of column j of entry i in the column arrays and the w scale plane (R148). -/
def mmCol (d : Desc) (i j : Nat) : Nat := if d.mmList = 0 then j else i * d.mmN + j

/-- The product of a MATMUL stage. -/
def mmProd (s : State) (e : Entry) (d : Desc) (fold : Word) : Prod where
  ents := (List.range e.pkt.count).map fun i => ⟨i, mmRows e d i, 0⟩
  n := d.mmN
  k := d.mmK
  ctl := d.f 3 13 0
  fold := fold
  gang := gangOf s e
  xf := d.mmX
  wf := d.mmW
  policy := d.f 4 26 25
  margin := d.f 4 24 21
  stoch := d.b 4 20
  anchor := sext 16 (d.f 4 15 0)
  x := fun s t i k0 m =>
    let r := cutRange (mmOff d d.inSrc t.e d.mmXs + i * d.mmXs) (inBits d.mmX) k0 m
    (both (readScales s e.ctx d.mmX d.mmK (e.aux 4) (t.e * d.mmM + i) k0 m) (readSrc s e d (mmAddr e d t.e).x r.1 r.2)).map
      fun o => readRow d.mmX m o.2 o.1
  w := fun s t j k0 m => match readScales s e.ctx d.mmW d.mmK (e.aux 5) (mmCol d t.e j) k0 m with
    | .error x => .error x
    | .ok sc => readCol s e.ctx d.mmW d.mmK d.mmN (mmAddr e d t.e).w j k0 m sc
  xs := fun s t => readPlane1 s e.ctx d.mmX d.mmK (e.aux 4) (t.e * d.mmM) t.rows
  ws := fun s t => readPlane1 s e.ctx d.mmW d.mmK (e.aux 5) (mmCol d t.e 0) d.mmN
  packed := fun t => (mmAddr e d t.e).w.testBit 63
  xAt := fun _ t rows k0 m => scaleRanges d.mmX d.mmK (e.aux 4) (rows.map (t.e * d.mmM + ·)) k0 m ++
    if d.inSrc ≠ 0 then []
    else joinRanges (rows.map fun i =>
      cutRange ((mmAddr e d t.e).x + mmOff d d.inSrc t.e d.mmXs + i * d.mmXs) (inBits d.mmX) k0 m)
  wAux := fun s t cols k0 m => scaleRanges d.mmW d.mmK (e.aux 5) (cols.map (mmCol d t.e)) k0 m ++
    loupeRanges s e.ctx d.mmW (mmAddr e d t.e).w cols k0 m
  wAt := fun s t cols k0 m => wRanges s e.ctx d.mmW d.mmK (mmAddr e d t.e).w cols k0 m
  planesAt := fun t => scaleRanges d.mmX d.mmK (e.aux 4) ((List.range t.rows).map (t.e * d.mmM + ·)) 0 d.mmK ++
    scaleRanges d.mmW d.mmK (e.aux 5) ((List.range d.mmN).map (mmCol d t.e)) 0 d.mmK

/-! ### Conversion (R129 to R133) -/

/-- Zero points apply (R130). -/
def zpOn (e : Entry) (en : Bool) (xf wf : Nat) : Bool :=
  en && decide (e.aux 2 ≠ 0 ∧ e.aux 3 ≠ 0 ∧ xf ≤ 1 ∧ wf ≤ 1)

/-- A column sum that does not match w over all its k is a host error (R130). -/
def sumMatches (s : State) (p : Prod) (en : PEnt) (j : Nat) (c : Int) : Except MErr Unit := match p.w s en j 0 p.k with
  | .error x => .error x
  | .ok w => if (w.1.foldl Ex.add Ex.zero).eqv (Ex.ofInt c) then .ok () else .error .host

/-- Entries of an array of b-byte elements at an address, none where it is zero: the bytes they take. -/
def arrayRanges (va b : Nat) (idx : List Nat) : List (Nat × Nat) :=
  if va = 0 then [] else joinRanges (idx.map fun i => (va + b * i, b))

/-- The bytes of the de-quantisation arrays that rows and columns use (R137, R148). -/
def dqRanges (e : Entry) (zp : Bool) (rows cols : List Nat) : List (Nat × Nat) :=
  arrayRanges (e.aux 0) 4 rows ++ arrayRanges (e.aux 1) 4 cols ++
    if zp then arrayRanges (e.aux 2) 2 rows ++ arrayRanges (e.aux 3) 4 cols else []

/-- One converted output: its code, magnitude of t as FP32, flags, and counts of limited and zeroed outputs. -/
structure Conv1 where
  code : Nat
  mag : Nat
  fl : Nat
  satO : Nat
  underO : Nat

/-- Convert one exact t (R131). -/
def convert1 (t : Ex) (fmt : Nat) (rnd : Bool) (word : Unit → Nat) (fl : Nat) : Conv1 :=
  let r := roundOut t fmt rnd word
  ⟨r.1, fp32Up t.abs, fl ||| r.2.outBits, b2n r.2.sat, b2n r.2.under⟩

/-- Convert a tile of MATMUL sums, with its scales, zero points and old values, row by row; the rows' codes and the flags
(R129, R132). -/
def mmConvert (s : State) (e : Entry) (d : Desc) (key : Key) (a : Int) (i : Nat) (cols : List Nat) (row : Nat)
    (vs : List Int) : Except MErr (List Conv1) :=
  let fmt := d.mmOut
  let by1 := outBytes fmt
  let ri := i * d.mmM + row
  let ci (j : Nat) := mmCol d i j
  let y := (mmAddr e d i).y + mmOff d d.outDst i d.mmYs + row * d.mmYs
  let acc := d.mmAccum && decide (d.outDst = 0)
  let zp := zpOn e (d.b 4 18) d.mmX d.mmW
  let old (j : Nat) : Except MErr Nat := if acc then (vread s e.ctx (y + j * by1) by1).map leNat else .ok 0
  let one (jv : Nat × Int) : Except MErr Conv1 := match old jv.1 with
    | .error x => .error x
    | .ok o =>
      let hd := if 2 ^ 62 ≤ jv.2.natAbs then flHeadroom else 0
      if fmt = 6 then
        .ok ⟨toTwos 64 (jv.2 + if acc then sext 64 o else 0), fp32Up (a64Val jv.2 a).abs, hd, 0, 0⟩
      else match scaleAt s e.ctx (e.aux 0) ri, scaleAt s e.ctx (e.aux 1) (ci jv.1),
          (if zp then s16At s e.ctx (e.aux 2) ri else .ok 0), (if zp then s32At s e.ctx (e.aux 3) (ci jv.1) else .ok 0) with
        | .ok sx, .ok sw, .ok z, .ok c =>
          let t0 := (sx.mul sw).mul ((a64Val jv.2 a).sub (Ex.ofInt (z * c)))
          let ov := if acc then readOut fmt o else (Ex.zero, {})
          .ok (convert1 (t0.add ov.1) fmt (d.b 4 19) (fun _ => key.out i row jv.1) (hd ||| ov.2.inBits))
        | .error x, _, _, _ => .error x
        | _, .error x, _, _ => .error x
        | _, _, .error x, _ => .error x
        | _, _, _, .error x => .error x
  mapE one (cols.zip vs)

/-- Entry i's output at column j of a row: its address where outputs lie in memory (R146). -/
def mmOutVa (e : Entry) (d : Desc) (i row j : Nat) : Nat :=
  (mmAddr e d i).y + mmOff d d.outDst i d.mmYs + row * d.mmYs + j * outBytes d.mmOut

/-- What the conversion of a pass reads: scales, zero points, column sums and, accumulating, the old outputs. -/
def mmReads (e : Entry) (d : Desc) (i : Nat) (q : Pass) : List (Nat × Nat) :=
  (if d.mmOut = 6 then []
    else dqRanges e (zpOn e (d.b 4 18) d.mmX d.mmW) (q.rows.map (i * d.mmM + ·)) (q.cols.map (mmCol d i))) ++
  if d.mmAccum ∧ d.outDst = 0 then q.rows.map fun r => (mmOutVa e d i r (q.cols.headD 0), q.cols.length * outBytes d.mmOut) else []

/-- The column sums a pass uses match w (R130). -/
def mmSums (s : State) (e : Entry) (d : Desc) (p : Prod) (en : PEnt) (q : Pass) : Except MErr (List Unit) :=
  if d.mmOut = 6 ∨ !zpOn e (d.b 4 18) d.mmX d.mmW then .ok []
  else mapE (fun j => match s32At s e.ctx (e.aux 3) (mmCol d en.e j) with
    | .error x => .error x
    | .ok c => sumMatches s p en j c) q.cols

/-- Commit a block: convert, write, count, raise each flag on the core that converts the output (R114, R134, R155). `a` is the lowest
core of the array. -/
def mmCommit (s : State) (e : Entry) (d : Desc) (key : Key) (p : Prod) (t : Tile) (pt : Partial) (a : Nat) (q : Pass) : M :=
  let en := p.ent t.ent
  let i := en.e
  let nc := (p.colsOf t).length
  got s e.ctx (mmSums s e d p en q) fun _ =>
    foldM (fun s rn => got s e.ctx
      (mmConvert s e d key (e.run.anchors.getD i 0) i q.cols rn.1 ((pt.vals.drop ((q.r0 + rn.2) * nc + q.c0)).take q.cols.length))
      fun cs =>
        let s1 := raiseCores s e.id a (cs.zipIdx.map fun c => (p.rowCore (q.r0 + rn.2) + p.colCore (q.c0 + c.2), c.1.fl))
        let s2 := addStats s1 e.id i (cs.foldl (fun m c => max m c.mag) 0) 0 0 (cs.foldl (fun n c => n + c.satO) 0)
          (cs.foldl (fun n c => n + c.underO) 0)
        writeOut (if d.b 4 19 ∧ d.mmOut ≠ 6 then drewRow s2 p a (q.r0 + rn.2) q.c0 q.cols else s2) e d (mmAddr e d i).y (mmOff d d.outDst i d.mmYs + rn.1 * d.mmYs + q.cols.headD 0 * outBytes d.mmOut)
          (cs.flatMap fun c => leBytes (outBytes d.mmOut) c.code))
      (touchAll s e.ctx (mmReads e d i q)) q.rows.zipIdx

/-- Extent in bytes of the stage's output where it is handed over or returned (R95, R146). -/
def mmExtent (e : Entry) (d : Desc) : Nat := e.pkt.count * d.mmM * d.mmYs

end Sys2Proof.Machine
end

