-- ==== Sys2Proof/Machine/Attn.lean ====
section
/-!
DEFINITION. ATTN (08_attention_and_kv.md R209 to R233): its fields, its groups and items, visibility, the exact softmax of
a query row, the rows it appends, and the blocks of ring attention.
-/
namespace Sys2Proof.Machine

/-! ### The stage's fields (Table 8.7) -/

/-- Fields of words 3 to 6. -/
def Desc.atPlane (d : Desc) : Nat := d.f 3 63 56
@[inherit_doc Desc.atPlane] def Desc.atHq (d : Desc) : Nat := d.f 3 55 47
@[inherit_doc Desc.atPlane] def Desc.atBase (d : Desc) : Nat := d.f 3 46 38
@[inherit_doc Desc.atPlane] def Desc.atHn (d : Desc) : Nat := d.f 3 37 29
@[inherit_doc Desc.atPlane] def Desc.atMask (d : Desc) : Nat := d.f 3 28 27
@[inherit_doc Desc.atPlane] def Desc.atAppend (d : Desc) : Bool := d.b 3 26
@[inherit_doc Desc.atPlane] def Desc.atRing (d : Desc) : Nat := d.f 3 25 21
@[inherit_doc Desc.atPlane] def Desc.atWindow (d : Desc) : Nat := d.f 4 63 39
@[inherit_doc Desc.atPlane] def Desc.atQBase (d : Desc) : Nat := d.f 4 38 14
@[inherit_doc Desc.atPlane] def Desc.atQ (d : Desc) : Nat := d.f 4 13 10
@[inherit_doc Desc.atPlane] def Desc.atP (d : Desc) : Nat := d.f 4 9 6
@[inherit_doc Desc.atPlane] def Desc.atOut (d : Desc) : Nat := d.f 4 5 2
@[inherit_doc Desc.atPlane] def Desc.atScale (d : Desc) : Nat := d.f 5 63 32
@[inherit_doc Desc.atPlane] def Desc.atMargin (d : Desc) : Nat := d.f 5 31 28
@[inherit_doc Desc.atPlane] def Desc.atPosBase (d : Desc) : Nat := d.f 5 27 3
@[inherit_doc Desc.atPlane] def Desc.atSeq (d : Desc) : Nat := d.f 6 63 32
/-- The pointer list: word 7 as in Table 4.9, where Table 8.7 shows a reserved word (DEDUCED, log entry 15). -/
def Desc.atList (d : Desc) : Nat := d.f 7 63 0

/-! ### Entries (R224) -/

/-- Entries, query heads, KV handle and length of an entry. -/
def atEntries (e : Entry) (d : Desc) : Nat := if d.atList = 0 then 1 else e.pkt.count
@[inherit_doc atEntries] def atHeads (e : Entry) (d : Desc) : Nat := if d.atList = 0 then e.pkt.count else d.atHn
@[inherit_doc atEntries] def atKh (e : Entry) (d : Desc) (i : Nat) : Nat :=
  if d.atList = 0 then e.pkt.kh else (e.run.ptrs.getD i ⟨0, 0, 0, 0, false⟩).w / 2 ^ 32
@[inherit_doc atEntries] def atLen (e : Entry) (d : Desc) (i : Nat) : Nat :=
  let p := e.run.ptrs.getD i ⟨0, 0, 0, 0, false⟩
  if d.atList ≠ 0 ∧ p.lenEn then p.len else e.pkt.len

/-- The entries that do anything: those with a query row (R227). -/
def atLive (e : Entry) (d : Desc) : List Nat := (List.range (atEntries e d)).filter fun i => decide (atLen e d i ≠ 0)

/-- The plane an entry reads. -/
def atPl (s : State) (e : Entry) (d : Desc) (i : Nat) : Except MErr Plane := readPlane s e.ctx (atKh e d i) d.atPlane

/-- g = h_q / h_kv, and the plane's head that query head qh uses (R225). -/
def atG (d : Desc) (p : Plane) : Nat := if p.hkv = 0 then 0 else d.atHq / p.hkv
@[inherit_doc atG] def atKvHead (d : Desc) (p : Plane) (qh : Nat) : Nat := qh / max 1 (atG d p) - d.atBase / max 1 (atG d p)

/-- Query heads of an entry that use plane head hk. -/
def atGroup (e : Entry) (d : Desc) (p : Plane) (hk : Nat) : List Nat :=
  ((List.range (atHeads e d)).map (d.atBase + ·)).filter fun q => decide (atKvHead d p q = hk)

/-- Host errors of the descriptor itself (R225, R130). -/
def atBad (e : Entry) (d : Desc) : Bool :=
  decide (d.atMask = 3 ∨ ¬(d.atQ = 2 ∨ d.atQ = 3 ∨ d.atQ = 10 ∨ d.atQ = 11) ∨ ¬(d.atP = 2 ∨ d.atP = 10 ∨ d.atP = 11) ∨
    4 < d.atOut ∨ 16 < d.atRing ∨ (d.atAppend ∧ d.atRing ≠ 0 ∧ d.atPosBase ≠ 0) ∨ d.inSrc = 3 ∨ d.outDst = 3 ∨
    d.atHq = 0 ∨ 256 < d.atHq) || f32Bad d.atScale ||
  (atLive e d).any fun i => decide (atKh e d i = 0)

/-- Host errors of an entry's plane (R209, R210, R212, R225). -/
def atBadPlane (s : State) (e : Entry) (d : Desc) (i : Nat) (p : Plane) : Bool :=
  let z := s.pageSize e.ctx
  let pp := p.perPage z
  let g := atG d p
  let l := atLen e d i
  let last := (p.length + l - 1) / max 1 pp
  decide (¬(p.fmt = 2 ∨ p.fmt = 3 ∨ p.fmt = 10 ∨ p.fmt = 11) ∨ pp = 0 ∨ g = 0 ∨ d.atHq % p.hkv ≠ 0 ∨ d.atBase % g ≠ 0 ∨
    (atHeads e d ≠ 0 ∧ p.hkv ≤ atKvHead d p (d.atBase + atHeads e d - 1)) ∨
    (d.atAppend ∧ l ≠ 0 ∧ (p.cap ≤ last - p.first ∨ 16777216 < p.length + l))) ||
  (List.range (ceilDiv p.length (max 1 pp) - p.first)).any fun k => match readPte s e.ctx p (p.first + k) with
    | .ok t => match pageVa s e.ctx t.page with
      | .ok va => s.notClassC e.ctx va z
      | .error _ => false
    | .error _ => false

/-! ### Rows (R226) -/

/-- Bytes of a query vector, and of an input and an output row. -/
def atQBytes (d : Desc) (p : Plane) : Nat := p.dh * inBits d.atQ / 8
@[inherit_doc atQBytes] def atInRow (e : Entry) (d : Desc) (p : Plane) : Nat :=
  atHeads e d * atQBytes d p + if d.atAppend then 2 * p.hkv * p.r else 0
@[inherit_doc atQBytes] def atOutRow (e : Entry) (d : Desc) (p : Plane) : Nat := atHeads e d * p.dh * outBytes d.atOut

/-- Row number of position t of entry i in an operand: from the entry's own address with a pointer list. -/
def atRowNo (e : Entry) (d : Desc) (src i t : Nat) : Nat := if d.atList ≠ 0 ∧ src = 0 then t else i * e.pkt.len + t

/-- Input and output addresses of entry i. -/
def atAddr (e : Entry) (d : Desc) (i : Nat) : Nat × Nat :=
  let p := e.run.ptrs.getD i ⟨0, 0, 0, 0, false⟩
  if d.atList = 0 then (d.inAddr, d.outAddr) else (p.x, p.y)

/-- n bytes at offset o of the input row of position t. -/
def atIn (s : State) (e : Entry) (d : Desc) (i : Nat) (p : Plane) (t o n : Nat) : Except MErr (List Byte) :=
  readSrc s e d (atAddr e d i).1 (atRowNo e d d.inSrc i t * atInRow e d p + o) n

/-- The rows appended by entry i: h_kv key rows then h_kv value rows of each position. -/
def atNewRow (s : State) (e : Entry) (d : Desc) (i : Nat) (p : Plane) (t : Nat) : Except MErr (List Byte) :=
  atIn s e d i p t (atHeads e d * atQBytes d p) (2 * p.hkv * p.r)
@[inherit_doc atNewRow] def atNewRows (s : State) (e : Entry) (d : Desc) (i : Nat) (p : Plane) : Except MErr (List (List Byte)) :=
  if !d.atAppend then .ok [] else mapE (atNewRow s e d i p) (List.range (atLen e d i))

/-! ### Keys and values -/

/-- One key position as a query row sees it: κ, stamps of its page, key and value rows of one head. -/
structure KvRow where
  pos : Nat
  kExp : Int
  vExp : Int
  key : List Byte
  val : List Byte
  deriving DecidableEq, Repr

/-- Positions an entry holds, its appended rows included, and those of a page index. -/
def atTotal (e : Entry) (d : Desc) (i : Nat) (p : Plane) : Nat := p.length + if d.atAppend then atLen e d i else 0
@[inherit_doc atTotal] def atPositions (s : State) (e : Entry) (d : Desc) (i : Nat) (p : Plane) (page : Nat) : List Nat :=
  let pp := p.perPage (s.pageSize e.ctx)
  (List.range (min pp (atTotal e d i p - page * pp))).map (page * pp + ·)

/-- The rows of a page index with its stamps, which cover the stage's own appended rows there (R223; DEDUCED, log entry 16). -/
def atPage (s : State) (e : Entry) (d : Desc) (i : Nat) (p : Plane) (page : Nat) : Except MErr (List (List Byte × Int × Int)) :=
  let qs := atPositions s e d i p page
  (both (mapE (readKv s e.ctx 65 (atKh e d i) d.atPlane) (qs.filter fun q => decide (q < p.length)))
    (mapE (fun q => atNewRow s e d i p (q - p.length)) (qs.filter fun q => decide (p.length ≤ q)))).map fun o =>
      let st := joinStamps ((o.1.head?.map (·.2)).getD (-256, -256)) (p.stampsOf o.2)
      (o.1.map (·.1) ++ o.2).map fun r => (r, st)

/-- Pages of an entry's own shard. -/
def atPages (s : State) (e : Entry) (d : Desc) (i : Nat) (p : Plane) : Nat :=
  ceilDiv (atTotal e d i p) (max 1 (p.perPage (s.pageSize e.ctx)))

/-- Every position the member itself holds, the appended ones included: row bytes and stamps. -/
def atShard (s : State) (e : Entry) (d : Desc) (i : Nat) (p : Plane) : Except MErr (List (List Byte × Int × Int)) :=
  (mapE (atPage s e d i p) (List.range (atPages s e d i p))).map List.flatten

/-- Rows of one head of a block's data: `half` 0 the keys, 1 the values of a block that carries both. -/
def blockRow (p : Plane) (rows half hk o : Nat) (data : List Byte) : List Byte :=
  (data.drop ((half * p.hkv * rows + hk * rows + o) * p.r)).take p.r

/-- Ring blocks of an exchange from an origin, of the kinds that carry keys, or values. -/
def State.ringBlocks (s : State) (seq : Nat) : List FabMsg := s.kv.blocks.filter fun m => decide (m.tag = seq)

/-- The blocks of an exchange that carry values (or keys and values), and those of lap 1, of one origin and page, in the order of their
arrival. -/
def valueBlocks (ms : List FabMsg) (origin page : Nat) : List (List Byte × Nat) := ms.filterMap fun n => match n.body with
  | .ringBlock kind o _ _ pg _ _ _ dt =>
    if o = origin ∧ pg = page then (if kind = 2 then some (dt, 0) else if kind = 3 then some (dt, 1) else none) else none
  | _ => none
@[inherit_doc valueBlocks] def keyBlocks (ms : List FabMsg) (origin page : Nat) : List FabMsg := ms.filter fun n => match n.body with
  | .ringBlock kind o _ _ pg _ _ _ _ => decide (kind = 1 ∧ o = origin ∧ pg = page)
  | _ => false

/-- The rows other members sent for plane head hk: the key block that lap 1 brought of each page, with the value block that lap 2 brings
of it; keys that come again in lap 2 are the same keys (R229, R232). Blocks name no entry (log entry 17). -/
def ringRows (s : State) (d : Desc) (p : Plane) (pp hk : Nat) : List KvRow :=
  let ms := s.ringBlocks d.atSeq
  ms.zipIdx.flatMap fun m => match m.1.body with
    | .ringBlock 1 origin _ posBase page k v rows data =>
      let nth := (keyBlocks (ms.take m.2) origin page).length
      let val := (valueBlocks ms origin page)[nth]?
      (List.range rows).map fun o =>
        ⟨posBase + page * pp + o, sext 9 k, sext 9 v, blockRow p rows 0 hk o data, match val with
          | some w => blockRow p rows w.2 hk o w.1
          | none => []⟩
    | _ => []

/-- The keys of one page of entry i at plane head hk. -/
def atPageKeys (s : State) (e : Entry) (d : Desc) (i : Nat) (p : Plane) (hk page : Nat) : Except MErr (List KvRow) :=
  (atPage s e d i p page).map fun rows => ((atPositions s e d i p page).zip rows).map fun x =>
    ⟨d.atPosBase + x.1, x.2.2.1, x.2.2.2, p.ofRun (0, hk) x.2.1, p.ofRun (1, hk) x.2.1⟩

/-- The keys of other members that the rows see too. -/
def atRemote (s : State) (e : Entry) (d : Desc) (p : Plane) (hk : Nat) : List KvRow :=
  if d.atRing = 0 then [] else ringRows s d p (p.perPage (s.pageSize e.ctx)) hk

/-- A key at κ is visible to a row at τ (R227). -/
def atVisible (d : Desc) (kappa tau : Nat) : Bool :=
  if d.atMask = 0 then true
  else if d.atMask = 1 then decide (kappa ≤ tau)
  else decide (tau < kappa + d.atWindow ∧ kappa ≤ tau)

/-- Position τ of query row t (R227). -/
def atTau (d : Desc) (p : Plane) (t : Nat) : Nat := if d.atAppend then p.length + t else d.atQBase + t

/-! ### Exact softmax (R228) -/

/-- The anchors of a query row's first product, and of its sums (R228). -/
def atAz (d : Desc) (p : Plane) (q : List Ex) (kExp : Int) : Int :=
  let mq := q.foldl (fun m v => m.max v.abs) Ex.zero
  if kExp = -256 then 0 else (if mq.num = 0 then 0 else mq.clog2) + kExp + d.atMargin + headroom p.dh d.atMargin
@[inherit_doc atAz] def atAl (d : Desc) (n : Nat) : Int := d.atMargin + headroom n d.atMargin
@[inherit_doc atAz] def atAo (d : Desc) (n : Nat) (ev : Int) : Int := ev + atAl d n

/-- A score: its FP32 code and ARR_STAT bits. -/
structure Score where
  code : Nat
  fl : Nat
  deriving DecidableEq, Repr

/-- The score of a key for a query row (R228, sweep 1). -/
def scoreOf (d : Desc) (p : Plane) (q : List Ex × VFlags) (k : KvRow) : Score :=
  let az := atAz d p q.1 k.kExp
  let kv := readRow p.fmt p.dh k.key []
  let v := dotFrom az false (fun _ => 0) 0 Acc64.zero q.1 kv.1
  let z := fp32.round ((f32 d.atScale).mul (a64Val v.v az)) false fun _ => 0
  ⟨z.1, q.2.inBits ||| kv.2.inBits ||| (if v.sat = 0 then 0 else flSatProd) ||| (if v.under = 0 then 0 else flUnderProd) |||
    z.2.outBits ||| if 2 ^ 62 ≤ v.v.natAbs then flHeadroom else 0⟩

/-- What the sums of a row depend on beside a key: the largest score, N and the largest value stamp (R228). -/
structure RowTop where
  max : Ex
  n : Nat
  ev : Int

/-- Of the row's keys with their scores. -/
def rowTop (l : List (KvRow × Nat)) : RowTop :=
  ⟨l.foldl (fun m x => m.max (f32 x.2)) (f32 ((l.head?.map (·.2)).getD 0)), l.length, l.foldl (fun a x => Max.max a x.1.vExp) (-256)⟩

/-- The part of l and of each o[c] that some keys give, with the products clamped and the flags of their values (R228, sweep 2). -/
def probSums (d : Desc) (p : Plane) (t : RowTop) (l : List (KvRow × Nat)) : List Int × Nat × Nat :=
  let pf := (inFp d.atP).getD bf16
  let ps := l.map fun x => (pf.read (pf.round (f32 (exp32 (to32 ((f32 x.2).sub t.max)))) false fun _ => 0).1).1
  let vs := l.map fun x => readRow p.fmt p.dh x.1.val []
  let s0 := ps.foldl (fun a x => a.product (atAl d t.n) x false fun _ => 0) Acc64.zero
  let os := (List.range p.dh).map fun c =>
    (ps.zip vs).foldl (fun a x => a.product (atAo d t.n t.ev) (x.1.mul (x.2.1.getD c Ex.zero)) false fun _ => 0) Acc64.zero
  (s0.v :: os.map (·.v), s0.sat + os.foldl (fun n o => n + o.sat) 0, vs.foldl (fun f v => f ||| v.2.inBits) 0)

/-- The outputs of a row from its sums: codes and ARR_STAT bits; +0 in every element where no key is visible (R227, R228). -/
def rowOut (d : Desc) (key : Key) (p : Plane) (i tq qh : Nat) (t : RowTop) (sums : List Int) : List (Nat × VFlags) :=
  if t.n = 0 then List.replicate p.dh (0, {})
  else (List.range p.dh).map fun c =>
    roundOut ((a64Val (sums.getD (c + 1) 0) (atAo d t.n t.ev)).div (a64Val (sums.headD 0) (atAl d t.n))) d.atOut (d.b 4 1)
      fun _ => key.out i tq (qh * p.dh + c)

/-- The query vector of position t and head qh of entry i. -/
def atQuery (s : State) (e : Entry) (d : Desc) (i : Nat) (p : Plane) (t qh : Nat) : Except MErr (List Ex × VFlags) :=
  (atIn s e d i p t ((qh - d.atBase) * atQBytes d p) (atQBytes d p)).map fun bs => readRow d.atQ p.dh bs []

/-- The keys that a query row sees. -/
def atSeen (d : Desc) (p : Plane) (t : Nat) (keys : List KvRow) : List KvRow := keys.filter fun k => atVisible d k.pos (atTau d p t)

/-! ### Groups and items (R230, R231) -/

/-- A group: entry, plane head, pages. -/
structure AtGroup where
  ent : Nat
  hk : Nat
  pages : Nat
  deriving DecidableEq, Repr

/-- The groups of the stage; an entry of length zero has none. -/
def atGroups (s : State) (e : Entry) (d : Desc) : Except MErr (List AtGroup) :=
  (mapE (fun i => (atPl s e d i).map fun p => ((List.range p.hkv).filter fun hk => decide (atGroup e d p hk ≠ [])).map fun hk =>
    ({ ent := i, hk := hk, pages := atPages s e d i p } : AtGroup)) (atLive e d)).map List.flatten

/-- The query rows of a group: position and head. -/
def atRows (e : Entry) (d : Desc) (p : Plane) (g : AtGroup) : List (Nat × Nat) :=
  (List.range (atLen e d g.ent)).flatMap fun t => (atGroup e d p g.hk).map fun qh => (t, qh)

/-- A group's scores exceed the score space (R231). -/
def atBig (s : State) (e : Entry) (d : Desc) (p : Plane) (g : AtGroup) : Bool :=
  decide (scoreSpace < 4 * (atRows e d p g).length * (atTotal e d g.ent p + (atRemote s e d p g.hk).length))

/-- Items of one sweep: group index and page. -/
def atItems (gs : List AtGroup) : List (Nat × Nat) := gs.zipIdx.flatMap fun g => (List.range g.1.pages).map fun k => (g.2, k)

/-- Items of one sweep of a group are all done; `off` is 0 for sweep 1 and the sweep's item count for sweep 2. -/
def atSweepDone (gs : List AtGroup) (done : List Nat) (off gi : Nat) : Bool :=
  (atItems gs).zipIdx.all fun x => decide (x.1.1 ≠ gi) || done.contains (off + x.2)

/-- Where position q of plane pn of list h lies in a page: the plane and the pool index (R213). -/
def kvSpot (s : State) (c : Nat) : Nat → Nat → Nat → Nat → Option (Plane × Nat)
  | 0, _, _, _ => none
  | fuel + 1, h, pn, q => match readPlane s c h pn with
    | .error _ => none
    | .ok p =>
      let i := q / max 1 (p.perPage (s.pageSize c))
      if q < p.forkLen ∧ i < p.first then kvSpot s c fuel p.parent pn q
      else if (s.eyeSlot c h pn).any fun k => p.valid && decide (k.pos ≤ q) then none
      else match readPte s c p i with
        | .ok e => some (p, e.page)
        | .error _ => none

/-- The bytes in memory of the keys (half 0) or values (half 1) of a page index at one head: rows in a page, and rows of the stage's own
input; rows in the eyelet buffer are not there. -/
def atRowsAt (s : State) (e : Entry) (d : Desc) (g : AtGroup) (p : Plane) (page half : Nat) : List (Nat × Nat) :=
  joinRanges ((atPositions s e d g.ent p page).filterMap fun q =>
    if q < p.length then (kvSpot s e.ctx 65 (atKh e d g.ent) d.atPlane q).bind fun x => match pageVa s e.ctx x.2 with
      | .ok va => some (x.1.runVa (s.pageSize e.ctx) va (half, g.hk) (q % max 1 (x.1.perPage (s.pageSize e.ctx))), x.1.r)
      | .error _ => none
    else if d.inSrc ≠ 0 then none
    else some ((atAddr e d g.ent).1 + atRowNo e d 0 g.ent (q - p.length) * atInRow e d p + atHeads e d * atQBytes d p +
      (half * p.hkv + g.hk) * p.r, p.r))

/-- The bytes in memory of a group's query vectors. -/
def atQueriesAt (e : Entry) (d : Desc) (g : AtGroup) (p : Plane) : List (Nat × Nat) :=
  if d.inSrc ≠ 0 then []
  else joinRanges ((atRows e d p g).map fun r =>
    ((atAddr e d g.ent).1 + atRowNo e d 0 g.ent r.1 * atInRow e d p + (r.2 - d.atBase) * atQBytes d p, atQBytes d p))

/-- What resolving the pages of a plane reads at the start of the stage: records, table entries and pool records, through the parents
(R213). -/
def atResolve (s : State) (c : Nat) : Nat → Nat → Nat → Nat → List (Nat × Nat)
  | 0, _, _, _ => []
  | fuel + 1, h, pn, upto => match readPlane s c h pn with
    | .error _ => []
    | .ok p =>
      let pp := max 1 (p.perPage (s.pageSize c))
      let n := ceilDiv upto pp - p.first
      [(s.listVa c h, 32), (p.va, 32), (p.pteVa p.first, 8 * n)] ++
        ((List.range n).filterMap fun k => match readPte s c p (p.first + k) with
          | .ok e => if e.page = 2 ^ 32 - 1 then none else some (s.poolVa c e.page, 16)
          | .error _ => none) ++
        if p.first = 0 ∨ p.parent = 0 then [] else atResolve s c fuel p.parent pn (min upto (p.first * pp))

/-- ATTN at its start: the planes are checked and their pages resolved (R209 to R213, R225). -/
def atOpen (s : State) (e : Entry) (d : Desc) : M :=
  foldM (fun s i => got s e.ctx (atPl s e d i) fun p =>
    let s1 := touchAll s e.ctx (atResolve s e.ctx 65 (atKh e d i) d.atPlane p.length)
    if atBadPlane s e d i p then (s1, some .host) else (s1, none)) s (atLive e d)

/-- The scores of row number rn of group gi over a page: those held, or formed anew (R231). -/
def atScores (s : State) (e : Entry) (d : Desc) (p : Plane) (gi : Nat) (g : AtGroup) (rn : Nat) (r : Nat × Nat) (page : Nat) :
    Except MErr (List (KvRow × Nat)) :=
  match atPageKeys s e d g.ent p g.hk page with
  | .error x => .error x
  | .ok keys =>
    let vis := atSeen d p r.1 keys
    match e.run.scores.find? fun x => decide (x.grp = gi ∧ x.page = page ∧ x.row = rn) with
    | some x => .ok (vis.zip x.vals)
    | none => (atQuery s e d g.ent p r.1 r.2).map fun q => vis.map fun k => (k, (scoreOf d p q k).code)

/-- The same over the keys of other members. -/
def atRemoteScores (s : State) (e : Entry) (d : Desc) (p : Plane) (g : AtGroup) (r : Nat × Nat) : Except MErr (List (KvRow × Score)) :=
  if d.atRing = 0 then .ok []
  else (atQuery s e d g.ent p r.1 r.2).map fun q => (atSeen d p r.1 (atRemote s e d p g.hk)).map fun k => (k, scoreOf d p q k)

/-- Every key a row sees, with its score. -/
def atRowAll (s : State) (e : Entry) (d : Desc) (p : Plane) (gi : Nat) (g : AtGroup) (rn : Nat) (r : Nat × Nat) :
    Except MErr (List (KvRow × Nat)) :=
  (both (mapE (atScores s e d p gi g rn r) (List.range g.pages)) (atRemoteScores s e d p g r)).map fun o =>
    o.1.flatten ++ o.2.map fun x => (x.1, x.2.code)

/-- A sweep 1 item: the scores of the group's rows over a page, one lane-cycle each (R230). They are held unless the group's exceed the
score space (R231). -/
def atScore (s : State) (e : Entry) (d : Desc) (gi : Nat) (g : AtGroup) (page core : Nat) : M :=
  got s e.ctx (atPl s e d g.ent) fun p =>
    let s0 := touchAll (touchAll s e.ctx (atQueriesAt e d g p)) e.ctx (atRowsAt s e d g p page 0)
    got s0 e.ctx (atPageKeys s0 e d g.ent p g.hk page) fun keys =>
      let held := !atBig s e d p g
      foldM (fun s r => got s e.ctx (atQuery s e d g.ent p r.1.1 r.1.2) fun q =>
        let sc := (atSeen d p r.1.1 keys).map (scoreOf d p q)
        let s1 := (raiseArr s e.id core (sc.foldl (fun f x => f ||| x.fl) 0)).addF (Reg.GATE_OPS core) 63 0 sc.length
        (s1.updEntry e.id fun x => { x with run := { x.run with
          scores := if held then ⟨gi, page, r.2, sc.map (·.code)⟩ :: x.run.scores else x.run.scores } }, none)) s0
        (atRows e d p g).zipIdx

/-- A sweep 2 item: the A64 partials of the group's rows over a page, row after row, under key `num` (R230). -/
def atProbs (s : State) (e : Entry) (d : Desc) (gi : Nat) (g : AtGroup) (page num core : Nat) : M :=
  got s e.ctx (atPl s e d g.ent) fun p =>
    let s0 := touchAll s e.ctx (atRowsAt s e d g p page 1)
    let s0 := if atBig s e d p g then touchAll (touchAll s0 e.ctx (atQueriesAt e d g p)) e.ctx (atRowsAt s e d g p page 0) else s0
    got s0 e.ctx (mapE (fun r : (Nat × Nat) × Nat => (both (atRowAll s0 e d p gi g r.2 r.1) (atScores s0 e d p gi g r.2 r.1 page)).map
      fun o => (probSums d p (rowTop o.1) o.2, o.2.length)) (atRows e d p g).zipIdx) fun l =>
        let sat : Nat := l.foldl (fun n x => n + x.1.2.1) 0
        let s1 := raiseArr s0 e.id core (l.foldl (fun f x => f ||| x.1.2.2) (if sat = 0 then 0 else flSatProd))
        ((s1.addF (Reg.GATE_OPS core) 63 0 (l.foldl (fun n x => n + x.2) 0)).updEntry e.id fun x =>
          { x with run := { x.run with parts := x.run.parts ++ [⟨num, l.flatMap (·.1.1), sat, 0⟩] } }, none)

/-- A group's output rows from its sums, converted at its home: written, flags raised, its held scores given up, and a group that was
scored twice counted (R226, R230, R231). -/
def atEmit (s : State) (e : Entry) (d : Desc) (key : Key) (gi : Nat) (g : AtGroup) (sums : List Int) (core : Nat) : M :=
  got s e.ctx (atPl s e d g.ent) fun p =>
    let by1 := outBytes d.atOut
    let m := foldM (fun s r => got s e.ctx (atRowAll s e d p gi g r.2 r.1) fun all =>
      let ys := rowOut d key p g.ent r.1.1 r.1.2 (rowTop all) ((sums.drop (r.2 * (p.dh + 1))).take (p.dh + 1))
      let s1 := raiseArr s e.id core (ys.foldl (fun f y => f ||| y.2.outBits) 0)
      let s2 := if d.b 4 1 ∧ all ≠ [] then drewBlocks s1 core (quads ((List.range p.dh).map (r.1.2 * p.dh + ·))) else s1
      writeOut s2 e d (atAddr e d g.ent).2 (atRowNo e d d.outDst g.ent r.1.1 * atOutRow e d p + (r.1.2 - d.atBase) * p.dh * by1)
        (ys.flatMap fun y => leBytes by1 y.1)) s (atRows e d p g).zipIdx
    m.next fun s =>
      let s1 := s.updEntry e.id fun x => { x with run := { x.run with scores := x.run.scores.filter fun y => decide (y.grp ≠ gi) } }
      (if g.pages ≠ 0 ∧ atBig s e d p g then s1.addF Reg.KV_COPY 31 0 1 else s1, none)

/-- The keys of other members complete a group of a ring stage: their part of its sums (R232). -/
def atRingSums (s : State) (e : Entry) (d : Desc) (gi : Nat) (g : AtGroup) (core : Nat) (f : State → List Int → M) : M :=
  got s e.ctx (atPl s e d g.ent) fun p =>
    got s e.ctx (mapE (fun r : (Nat × Nat) × Nat => (both (atRowAll s e d p gi g r.2 r.1) (atRemoteScores s e d p g r.1)).map
      fun o => (probSums d p (rowTop o.1) (o.2.map fun x => (x.1, x.2.code)), o.2)) (atRows e d p g).zipIdx) fun l =>
        let sat := l.any fun x => decide (x.1.2.1 ≠ 0)
        let fl := l.foldl (fun f x => f ||| x.1.2.2 ||| x.2.foldl (fun f y => f ||| y.2.fl) 0) (b2n sat * flSatProd)
        let s1 := (raiseArr s e.id core fl).addF (Reg.GATE_OPS core) 63 0 (2 * l.foldl (fun n x => n + x.2.length) 0)
        let rem := l.flatMap (·.1.1)
        f s1 (match e.run.red.find? fun x => decide (x.key = gi) with
          | some r => List.zipWith (fun x y => wrap64 (x + y)) r.vals rem
          | none => rem)

/-- Extent of the stage's output (R95, R226). -/
def atExtent (s : State) (e : Entry) (d : Desc) : Nat :=
  (atLive e d).foldl (fun m i => match atPl s e d i with
    | .ok p => max m ((i + 1) * e.pkt.len * atOutRow e d p)
    | .error _ => m) 0

/-! ### Appends (R215, R219) -/

/-- Pages reserved at admission for an appending stage: ⌈L / P⌉ + 1 of each entry with rows to append. -/
def atReserve (s : State) (e : Entry) (d : Desc) : Except MErr Nat :=
  (mapE (fun i => (atPl s e d i).map fun p => ceilDiv (atLen e d i) (max 1 (p.perPage (s.pageSize e.ctx))) + 1) (atLive e d)).map
    fun l => l.foldl (· + ·) 0

/-- Pages reserved for a command and not yet used. -/
def State.reservedPages (s : State) (id : Nat) : List Nat :=
  ((s.kv.reserved.find? fun r => decide (r.1 = id)).map (·.2.2)).getD []

/-- Set them. -/
def State.setReserved (s : State) (id c : Nat) (l : List Nat) : State :=
  let rest := s.kv.reserved.filter fun r => decide (r.1 ≠ id)
  s.putKv { s.kv with reserved := if l = [] then rest else (id, c, l) :: rest }

/-- A list in use becomes live (Table 8.1; DEDUCED, log entry 16). -/
def makeLive (s : State) (c h : Nat) : M :=
  reading s c (s.listVa c h + 16) 8 (vread64 s c (s.listVa c h + 16)) fun s w =>
    if w = 0 then wr64 s c (s.listVa c h + 16) (1 * 2 ^ 62) else (s, none)

/-- Append the rows of every entry at the stage's completion (R215). -/
def atAppendAll (s : State) (e : Entry) (d : Desc) : M :=
  if !d.atAppend then (s, none)
  else foldM (fun s i => got s e.ctx (atPl s e d i) fun p => got s e.ctx (atNewRows s e d i p) fun rows =>
    let r := appendRows s e.ctx (atKh e d i) d.atPlane rows (s.reservedPages e.id)
    r.1.next fun s => makeLive (s.setReserved e.id e.ctx r.2) e.ctx (atKh e d i)) s (atLive e d)

/-- Return all but n pages of a command's reservation to the free list (R219). -/
def keepReserved (s : State) (id n : Nat) : State :=
  match s.kv.reserved.find? fun r => decide (r.1 = id) with
  | none => s
  | some r => (r.2.2.drop n).foldl (fun s g => (freePage s r.2.1 g).1) (s.setReserved id r.2.1 (r.2.2.take n))

/-- Return what is left of it. -/
def releaseReserved (s : State) (id : Nat) : State := keepReserved s id 0

/-! ### Ring attention (R232) -/

/-- SIZE, POS and NEXT of the ring a stage names. -/
def State.kvRing (s : State) (d : Desc) : Nat × Nat × Nat :=
  let r := Reg.KV_RING (d.atRing - 1)
  (s.fldR r 62 56, s.fldR r 55 50, s.fldR r 47 32)

/-- Send one page of the member's shard to NEXT: kind 1 keys, 2 values, 3 both. -/
def sendPage (s : State) (d : Desc) (p : Plane) (rows : List (List Byte × Int × Int)) (kind pp page : Nat) : State :=
  let ring := s.kvRing d
  let mine := (rows.drop (page * pp)).take pp
  let half (h : Nat) : List Byte := (List.range p.hkv).flatMap fun hk => mine.flatMap fun r => p.ofRun (h, hk) r.1
  let st := (mine.head?.map (·.2)).getD (-256, -256)
  let data := if kind = 1 then half 0 else if kind = 2 then half 1 else half 0 ++ half 1
  fabSend s false ring.2.2 d.atSeq
    (.ringBlock kind ring.2.1 1 d.atPosBase page (stampCode st.1) (stampCode st.2) mine.length data)

/-- A lap of the member's own pages (R232); when a group's scores exceed the score space, lap 2 carries keys too. -/
def sendLap (s : State) (e : Entry) (d : Desc) (lap : Nat) : M :=
  foldM (fun s i => got s e.ctx (atPl s e d i) fun p => got s e.ctx (atShard s e d i p) fun rows =>
    let big := (List.range p.hkv).any fun hk => atBig s e d p ⟨i, hk, 0⟩
    let kind := if lap = 1 then 1 else if big then 3 else 2
    ((List.range (atPages s e d i p)).foldl (fun s k => sendPage s d p rows kind (p.perPage (s.pageSize e.ctx)) k) s, none)) s (atLive e d)

/-- Forward a block that has not yet made SIZE − 1 hops. -/
def forwardBlock (s : State) (d : Desc) (m : FabMsg) : State :=
  let ring := s.kvRing d
  match m.body with
  | .ringBlock kind origin hops posBase page k v rows data =>
    if hops + 1 < ring.1 then fabSend s false ring.2.2 m.tag (.ringBlock kind origin (hops + 1) posBase page k v rows data) else s
  | _ => s

/-- The block of an origin and page that carries keys (lap 1), or values (lap 2), has arrived. -/
def State.blockHere (s : State) (seq lap origin page : Nat) : Bool :=
  (s.ringBlocks seq).any fun m => match m.body with
    | .ringBlock kind o _ _ pg _ _ _ _ => decide (o = origin ∧ pg = page ∧ if lap = 1 then kind = 1 else kind = 2 ∨ kind = 3)
    | _ => false

/-- Every block of a lap has arrived. The spec does not say how a member learns how many pages another holds: that number
is a free value (log entry 17). -/
def State.lapHere (s : State) (d : Desc) (lap : Nat) : Bool :=
  let ring := s.kvRing d
  ((List.range ring.1).filter fun o => decide (o ≠ ring.2.1)).all fun o =>
    (List.range (Config.ringPages d.atSeq o)).all fun pg => s.blockHere d.atSeq lap o pg

/-- A ring stage of this exchange that has started. -/
def State.ringStage (s : State) (seq : Nat) : Option Entry :=
  s.flight.find? fun e => e.run.started && !e.done && decide (e.desc.op = opcAttn ∧ e.desc.atRing ≠ 0 ∧ e.desc.atSeq = seq)

/-- A ring stage has sent its lap 2. -/
def Entry.lap2Sent (e : Entry) : Bool := e.run.blocks.contains (2, 0, 0)

/-- Lap 2 goes out once the stage's own sweep 1 is complete and every key block has been scored; value blocks that waited for it give
their space back. -/
def ringProgress (s : State) (e : Entry) (d : Desc) : M :=
  if d.atRing = 0 ∨ e.lap2Sent ∨ atLive e d = [] then (s, none)
  else got s e.ctx (atGroups s e d) fun gs =>
    let done := e.run.done.map (·.item)
    if (List.range (atItems gs).length).all (fun i => done.contains i) && s.lapHere d 1 then
      (sendLap s e d 2).next fun s => (s.updEntry e.id fun x =>
        { x with run := { x.run with blocks := (2, 0, 0) :: x.run.blocks }, space := x.space.filter fun y => decide (y.kind ≠ .block) }, none)
    else (s, none)

/-- A value block that comes before its stage's sweep 1 is complete waits in the spill region (R232). -/
def waitBlock (s : State) (e : Entry) (m : FabMsg) : M := match m.body with
  | .ringBlock kind _ _ _ page _ _ _ data =>
    if kind = 1 ∨ e.lap2Sent then (s, none) else takeSpace s e.id e.ctx (e.run.arrays.headD 0) .block page data.length
  | _ => (s, none)

/-- A block of a stage that has started: forwarded, kept, and lap 2 sent if it was the last of lap 1. -/
def useBlock (s : State) (e : Entry) (m : FabMsg) : M :=
  (waitBlock (forwardBlock s e.desc m) e m).next fun s => match s.entry e.id with
    | some e1 => ringProgress s e1 e.desc
    | none => (s, none)

/-- RING_KV_BLOCK (R232, R233): a block is kept for its stage and forwarded; one of a failed exchange is discarded. -/
def execRingKvBlock (port : Nat) (m : FabMsg) (s : State) : Out State :=
  .next (
    if !s.takesVc12 port m ∨ s.kv.dead.contains m.tag then s
    else match m.body with
      | .ringBlock .. =>
        let s1 := s.putKv { s.kv with blocks := s.kv.blocks ++ [m] }
        match s1.ringStage m.tag with
        | none => s1
        | some e => match useBlock s1 e m with
          | (s2, none) => s2
          | (s2, some .wait) => s2
          | (s2, some x) => releaseReserved (failEntry s2 e.id (some e.stage) x) e.id
      | _ => s)

end Sys2Proof.Machine
end

