-- ==== Sys2Proof/Machine/ConvStage.lean ====
section
/-!
DEFINITION. CONV and pooling (09_convolution_and_awl.md R236 to R248): geometry, padding, layouts, the product of a
convolution, pooling, argmax, and the items of the awl engines.
-/
namespace Sys2Proof.Machine

/-! ### Geometry (R236, R237, Table 9.3) -/

/-- One spatial dimension: size I, upsampling, kernel, stride, dilation, padding before and after. -/
structure CDim where
  i : Nat
  up : Nat
  k : Nat
  st : Nat
  dil : Nat
  pl : Nat
  ph : Nat
  deriving DecidableEq, Repr

/-- Upsampled size I′ and output size O. -/
def CDim.i' (c : CDim) : Nat := c.up * c.i
@[inherit_doc CDim.i'] def CDim.o (c : CDim) : Nat :=
  if c.dil * (c.k - 1) + 1 ≤ c.i' + c.pl + c.ph ∧ c.st ≠ 0 then (c.i' + c.pl + c.ph - c.dil * (c.k - 1) - 1) / c.st + 1 else 0

/-- The input element tap t of output o reads under a padding mode; none for a padded value (Table 9.1). -/
def CDim.tap (c : CDim) (mode o t : Nat) : Option Nat :=
  let q : Int := (o * c.st + t * c.dil : Nat) - (c.pl : Int)
  let n : Int := c.i'
  let r : Int := if 0 ≤ q ∧ q < n then q
    else if mode = 2 then (if q < 0 then -q else 2 * (n - 1) - q)
    else if mode = 3 then (if q < 0 then 0 else n - 1) else -1
  if r < 0 then none else some (r.toNat / max 1 c.up)

/-- Dimensions D, H, W. -/
def Desc.cd (d : Desc) : CDim := ⟨d.f 3 31 16, 1, d.f 4 21 17, d.f 5 55 52, d.f 5 45 43, d.f 5 23 20, d.f 5 19 16⟩
@[inherit_doc Desc.cd] def Desc.ch (d : Desc) : CDim := ⟨d.f 3 47 32, d.f 5 42 40, d.f 4 26 22, d.f 5 59 56, d.f 5 48 46, d.f 5 31 28, d.f 5 27 24⟩
@[inherit_doc Desc.cd] def Desc.cw (d : Desc) : CDim := ⟨d.f 3 63 48, d.f 5 42 40, d.f 4 31 27, d.f 5 63 60, d.f 5 51 49, d.f 5 39 36, d.f 5 35 32⟩

/-- Channels, groups and controls. -/
def Desc.cIn (d : Desc) : Nat := d.f 3 15 0
@[inherit_doc Desc.cIn] def Desc.cOut (d : Desc) : Nat := d.f 4 63 48
@[inherit_doc Desc.cIn] def Desc.cOp (d : Desc) : Nat := d.f 4 16 15
@[inherit_doc Desc.cIn] def Desc.cPool (d : Desc) : Bool := decide (d.cOp = 1 ∨ d.cOp = 2)
@[inherit_doc Desc.cIn] def Desc.cGroups (d : Desc) : Nat := if d.cPool then 1 else d.f 4 47 32
@[inherit_doc Desc.cIn] def Desc.cPad (d : Desc) : Nat := d.f 4 14 13
@[inherit_doc Desc.cIn] def Desc.cLayout (d : Desc) : Nat := d.f 4 12 11
@[inherit_doc Desc.cIn] def Desc.cEngine (d : Desc) : Bool := d.b 4 10
@[inherit_doc Desc.cIn] def Desc.cArgmax (d : Desc) : Bool := d.b 4 9
@[inherit_doc Desc.cIn] def Desc.cHalo (d : Desc) : Nat := d.f 4 8 5
@[inherit_doc Desc.cIn] def Desc.cX (d : Desc) : Nat := d.f 6 63 60
@[inherit_doc Desc.cIn] def Desc.cW (d : Desc) : Nat := d.f 6 59 56
@[inherit_doc Desc.cIn] def Desc.cFmt (d : Desc) : Nat := d.f 6 55 52
@[inherit_doc Desc.cIn] def Desc.cLoupe (d : Desc) : Bool := d.b 7 53
@[inherit_doc Desc.cIn] def Desc.cAux (d : Desc) : Nat := d.f 7 51 0

/-- Taps K of a window and the summed dimension kv (R238, R243). -/
def Desc.cTaps (d : Desc) : Nat := d.cd.k * d.ch.k * d.cw.k
@[inherit_doc Desc.cTaps] def Desc.cKv (d : Desc) : Nat := if d.cGroups = 0 then 0 else d.cIn / d.cGroups * d.cTaps

/-- Output positions, and L_e: those of the actual length (R237). -/
def Desc.cPositions (d : Desc) : Nat := d.cd.o * d.ch.o * d.cw.o
@[inherit_doc Desc.cPositions] def Desc.cRows (d : Desc) (len : Nat) : Nat :=
  if 1 < d.cd.i ∨ 1 < d.cd.k then min d.cd.o len * d.ch.o * d.cw.o
  else if 1 < d.ch.i ∨ 1 < d.ch.k then d.ch.o * d.cw.o
  else min d.cw.o len

/-- The stage writes nothing (R241). -/
def Desc.cEmpty (d : Desc) : Bool :=
  decide (d.cOut = 0 ∨ d.cGroups = 0 ∨ d.cTaps = 0 ∨ d.f 5 42 40 = 0 ∨ d.cd.i = 0 ∨ d.ch.i = 0 ∨ d.cw.i = 0 ∨ d.cPositions = 0)

/-- How far the windows of a dimension reach beyond a tile edge, in elements of the stage before (log entry 60). -/
def CDim.reach (c : CDim) : Nat := ceilDiv (max c.pl (c.dil * (c.k - 1) + 1 - c.st - c.pl)) (max 1 c.up)

/-- The halo is smaller than the windows' reach, where the stage takes the previous stage's output in grid order (R242). -/
def Desc.cShort (d : Desc) : Bool :=
  decide (d.inSrc = 1 ∧ d.f 5 13 12 = 3 ∧ d.cHalo < max d.ch.reach d.cw.reach)

/-- Host errors of a CONV descriptor, its halo apart (R239, R242). -/
def cBad (d : Desc) : Bool :=
  let g := d.cGroups
  let mir (c : CDim) : Bool := decide (d.cPad = 2 ∧ 0 < c.i' ∧ (c.i' - 1 < c.pl ∨ c.i' - 1 < c.ph))
  decide (d.cd.st = 0 ∨ d.ch.st = 0 ∨ d.cw.st = 0 ∨ d.cd.dil = 0 ∨ d.ch.dil = 0 ∨ d.cw.dil = 0) ||
  decide (d.cOp = 3 ∨ d.cLayout = 3 ∨ 12 ≤ d.cX ∨ 12 ≤ d.cW ∨ 6 ≤ d.cFmt ∨ d.f 7 63 62 = 3 ∨ d.inSrc = 3 ∨ d.outDst = 3) ||
  (!d.cEmpty && (decide (d.cIn % g ≠ 0 ∨ d.cOut % g ≠ 0) || mir d.cd || mir d.ch || mir d.cw)) ||
  ((isMx d.cX || (!d.cPool && isMx d.cW)) && decide (g ≠ 0 ∧ d.cIn / g % 32 ≠ 0)) ||
  (d.cPool && decide (d.cIn ≠ d.cOut)) || (decide (d.cLayout = 0 ∧ inBits d.cX = 4 ∧ d.cIn % 2 = 1))

/-! ### Layouts (Table 9.2) -/

/-- Offset in elements of (d, h, w, c) in a D × H × W volume of C channels. -/
def layoutOff (lay dd hh ww dn hn wn c cn : Nat) : Nat :=
  if lay = 0 then ((dd * hn + hh) * wn + ww) * cn + c
  else
    let b := if lay = 1 then 16 else 32
    ((c / b * dn + dd) * hn + hh) * wn * b + ww * b + c % b

/-- Channels as stored: C rounded up to the block. -/
def storedCh (lay c : Nat) : Nat := if lay = 0 then c else roundUp c (if lay = 1 then 16 else 32)

/-- Bytes of an entry's input S and output S′ (R239); with argmax, 2 bytes a position (R244). -/
def Desc.cInSize (d : Desc) : Nat :=
  roundUp (ceilDiv (d.cd.i * d.ch.i * d.cw.i * storedCh d.cLayout d.cIn * inBits d.cX) 8) 64
@[inherit_doc Desc.cInSize] def Desc.cOutSize (d : Desc) : Nat :=
  if d.cArgmax then roundUp (2 * d.cPositions) 64
  else roundUp (d.cPositions * storedCh d.cLayout d.cOut * outBytes d.cFmt) 64

/-- Position as (d, h, w). -/
def Desc.cPos (d : Desc) (i : Nat) : Nat × Nat × Nat := (i / (d.ch.o * d.cw.o), i / d.cw.o % d.ch.o, i % d.cw.o)

/-! ### Reading a window -/

/-- The padded value: z under zero padding with zero points, the all-zero code's 0, or const_val (Table 9.1, R240). -/
def padVal (e : Entry) (d : Desc) (z : Int) : Ex × VFlags :=
  if d.cPad = 1 then readIn d.cX (e.aux 7 % 2 ^ inBits d.cX) else (Ex.ofInt z, {})

/-- One input element of entry t at spatial (dd, hh, ww), channel c, with its MX scale. -/
def inElem (s : State) (e : Entry) (d : Desc) (t dd hh ww c : Nat) : Except MErr (Ex × VFlags) :=
  let b := inBits d.cX
  let idx := layoutOff d.cLayout dd hh ww d.cd.i d.ch.i d.cw.i c (d.cIn)
  let p := idx * b
  match readSrc s e d d.inAddr (t * d.cInSize + p / 8) (ceilDiv (p % 8 + b) 8) with
  | .error x => .error x
  | .ok bs =>
    let v := readIn d.cX (leNat bs / 2 ^ (p % 8) % 2 ^ b)
    if !isMx d.cX then .ok v
    else if e.aux 4 = 0 then .error .host
    else
      let nb := ceilDiv d.cIn 32
      let pos := (t * d.cd.i + dd) * (d.ch.i * d.cw.i) + hh * d.cw.i + ww
      match vread s e.ctx (e.aux 4 + pos * nb + c / 32) 1 with
      | .error x => .error x
      | .ok sc =>
        let n := leNat sc
        .ok (if n = 255 then (Ex.zero, { nan := true }) else (v.1.scale ((n : Int) - 127), v.2))

/-- Zero points apply (R130), and the entry's zero point. -/
def cZp (e : Entry) (d : Desc) : Bool := zpOn e (d.b 7 55) d.cX d.cW
@[inherit_doc cZp] def cZero (s : State) (e : Entry) (d : Desc) (t : Nat) : Except MErr Int :=
  if cZp e d then s16At s e.ctx (e.aux 2) t else .ok 0

/-- The input position a tap (td, th, tw) of output position o reads; none for a padded value. -/
def Desc.tapAt (d : Desc) (o tp : Nat × Nat × Nat) : Option (Nat × Nat × Nat) :=
  match d.cd.tap d.cPad o.1 tp.1, d.ch.tap d.cPad o.2.1 tp.2.1, d.cw.tap d.cPad o.2.2 tp.2.2 with
  | some dd, some hh, some ww => some (dd, hh, ww)
  | _, _, _ => none

/-- One tap of one output position and channel. -/
def tapVal (s : State) (e : Entry) (d : Desc) (z : Int) (t : Nat) (o tp : Nat × Nat × Nat) (c : Nat) : Except MErr (Ex × VFlags) :=
  match d.tapAt o tp with
  | some x => inElem s e d t x.1 x.2.1 x.2.2 c
  | none => .ok (padVal e d z)

/-- The taps in order t_d, t_h, t_w. -/
def Desc.cTapList (d : Desc) : List (Nat × Nat × Nat) :=
  (List.range d.cd.k).flatMap fun a => (List.range d.ch.k).flatMap fun b => (List.range d.cw.k).map fun c => (a, b, c)

/-- Elements [k0, k0 + m) of the window of output position i for channels [c0, c0 + n), channels innermost (R238). -/
def window (s : State) (e : Entry) (d : Desc) (t i c0 n k0 m : Nat) : Except MErr (List Ex × VFlags) :=
  match cZero s e d t with
  | .error x => .error x
  | .ok z =>
    let taps := d.cTapList
    (mapE (fun k => tapVal s e d z t (d.cPos i) (taps.getD (k / max 1 n) (0, 0, 0)) (c0 + k % max 1 n))
      ((List.range m).map (k0 + ·))).map fun vs => (vs.map (·.1), vs.foldl (fun f v => f.or v.2) {})

/-- Input positions, with first channel and channels, that elements [k0, k0 + m) of the windows of some rows read. -/
def Desc.winReads (d : Desc) (rows : List Nat) (c0 n k0 m : Nat) : List ((Nat × Nat × Nat) × Nat × Nat) :=
  (rows.flatMap fun i => d.cTapList.zipIdx.filterMap fun tp =>
    let lo := k0 - tp.2 * n
    let hi := min n (k0 + m - tp.2 * n)
    if lo < hi then (d.tapAt (d.cPos i) tp.1).map (fun x : Nat × Nat × Nat => (x, (c0 + lo, hi - lo))) else none).eraseDups

/-- Bytes of entry t's input that a read of channels [c, c + n) at a position takes, block by block of the layout. -/
def inRanges (d : Desc) (t : Nat) (x : (Nat × Nat × Nat) × Nat × Nat) : List (Nat × Nat) :=
  let b := if d.cLayout = 0 then max 1 d.cIn else if d.cLayout = 1 then 16 else 32
  let c := x.2.1
  let last := c + x.2.2 - 1
  (List.range (last / b - c / b + 1)).map fun k =>
    let c1 := if k = 0 then c else (c / b + k) * b
    let c2 := min last ((c / b + k) * b + b - 1)
    let p := layoutOff d.cLayout x.1.1 x.1.2.1 x.1.2.2 d.cd.i d.ch.i d.cw.i c1 d.cIn * inBits d.cX
    (d.inAddr + t * d.cInSize + p / 8, ceilDiv (p % 8 + (c2 + 1 - c1) * inBits d.cX) 8)

/-- First byte of the scales of an input position of entry t. -/
def scaleVa (e : Entry) (d : Desc) (t : Nat) (x : Nat × Nat × Nat) : Nat :=
  e.aux 4 + ((t * d.cd.i + x.1) * (d.ch.i * d.cw.i) + x.2.1 * d.cw.i + x.2.2) * ceilDiv d.cIn 32

/-- The bytes the windows of some rows read of the input in memory, and of its scale plane. -/
def winRanges (e : Entry) (d : Desc) (t : Nat) (rows : List Nat) (c0 n k0 m : Nat) : List (Nat × Nat) :=
  let r := d.winReads rows c0 n k0 m
  (if !isMx d.cX ∨ e.aux 4 = 0 then [] else joinRanges (r.map fun x => (scaleVa e d t x.1 + x.2.1 / 32, ceilDiv (x.2.1 % 32 + x.2.2) 32))) ++
    if d.inSrc ≠ 0 then [] else joinRanges (r.flatMap (inRanges d t))

/-! ### The product of a convolution on the arrays (R238) -/

/-- Channels per group, in and out. -/
def Desc.cGin (d : Desc) : Nat := if d.cGroups = 0 then 0 else d.cIn / d.cGroups
@[inherit_doc Desc.cGin] def Desc.cGout (d : Desc) : Nat := if d.cGroups = 0 then 0 else d.cOut / d.cGroups

/-- The w address of the stage, bit 63 its loupe flag. -/
def Desc.cWAddr (d : Desc) : Nat := d.f 6 51 0 + b2n d.cLoupe * 2 ^ 63

/-- Elements [k0, k0 + m) of column j of w, over all output channels. -/
def cCol (s : State) (e : Entry) (d : Desc) (j k0 m : Nat) : Except MErr (List Ex × VFlags) :=
  match readScales s e.ctx d.cW d.cKv (e.aux 5) j k0 m with
  | .error x => .error x
  | .ok sc => readCol s e.ctx d.cW d.cKv d.cOut d.cWAddr j k0 m sc

/-- The scales of an entry's input that its rows read, for the Block policy: those of skipped rows take no part (R150, R237). -/
def cXScales (s : State) (e : Entry) (d : Desc) (t : Nat) : Except MErr (List Byte) :=
  if !isMx d.cX then .ok []
  else if e.aux 4 = 0 then .error .host
  else (mapE (fun x : (Nat × Nat × Nat) × Nat × Nat => vread s e.ctx (scaleVa e d t x.1) (ceilDiv d.cIn 32))
    (d.winReads (List.range (d.cRows e.pkt.len)) 0 d.cIn 0 (d.cTaps * d.cIn))).map List.flatten

/-- The product; a pooling stage has the same tiles with nothing summed. Groups run one after another (DEDUCED, log entry
13). -/
def cProd (s : State) (e : Entry) (d : Desc) (fold : Word) : Prod where
  ents := if d.cEmpty then [] else (List.range d.cGroups).flatMap fun g =>
    (List.range e.pkt.count).map fun t => ⟨t, d.cRows e.pkt.len, g * d.cGout⟩
  n := d.cGout
  k := if d.cPool then 0 else d.cKv
  ctl := d.f 5 13 0
  fold := fold
  gang := gangOf s e
  xf := d.cX
  wf := d.cW
  policy := d.f 7 63 62
  margin := d.f 7 61 58
  stoch := d.b 7 57
  anchor := sext 16 (Config.convAnchor (d.f 7 63 0))
  x := fun s t i k0 m => window s e d t.e i (t.col / max 1 d.cGout * d.cGin) d.cGin k0 m
  w := fun s t j k0 m => cCol s e d (t.col + j) k0 m
  xs := fun s t => cXScales s e d t.e
  ws := fun s _ => readPlane1 s e.ctx d.cW d.cKv (e.aux 5) 0 d.cOut
  packed := fun _ => d.cLoupe
  xAt := fun _ t rows k0 m =>
    if d.cPool then winRanges e d t.e rows 0 d.cIn 0 (d.cTaps * d.cIn)
    else winRanges e d t.e rows (t.col / max 1 d.cGout * d.cGin) d.cGin k0 m
  wAux := fun s t cols k0 m => scaleRanges d.cW d.cKv (e.aux 5) (cols.map (t.col + ·)) k0 m ++
    loupeRanges s e.ctx d.cW d.cWAddr (cols.map (t.col + ·)) k0 m
  wAt := fun s t cols k0 m => wRanges s e.ctx d.cW d.cKv d.cWAddr (cols.map (t.col + ·)) k0 m
  planesAt := fun t => (if !isMx d.cX then [] else joinRanges ((d.winReads (List.range t.rows) 0 d.cIn 0 (d.cTaps * d.cIn)).map
    fun x => (scaleVa e d t.e x.1, ceilDiv d.cIn 32))) ++ scaleRanges d.cW d.cKv (e.aux 5) (List.range d.cOut) 0 d.cKv

/-- A pooling stage reads windows of every channel. -/
def poolRow (s : State) (e : Entry) (d : Desc) (t i : Nat) : Except MErr (List Ex × VFlags) :=
  window s e d t i 0 d.cIn 0 (d.cTaps * d.cIn)

/-- The anchor of a pooling entry: E_w = 0 and g with k = K (R243). -/
def poolAnchor (s : State) (e : Entry) (d : Desc) (p : Prod) (t : Nat) : Except MErr Int :=
  let g : Int := headroom d.cTaps p.margin
  let sum (x : Option Int) : Int := match x with
    | some x => x + p.margin + g
    | none => 0
  if p.policy = 0 then .ok p.anchor
  else if d.cEmpty ∨ d.cRows e.pkt.len = 0 then .ok 0
  else if p.policy = 1 then (cXScales s e d t).map fun sc => sum (blockE d.cX sc)
  else (mapE (poolRow s e d t) (List.range (d.cRows e.pkt.len))).map fun rs => sum (autoE (maxMag rs))

/-- What it reads. -/
def poolReads (e : Entry) (d : Desc) (p : Prod) (t : Nat) : List (Nat × Nat) :=
  let rows := List.range (d.cRows e.pkt.len)
  if p.policy = 0 ∨ d.cEmpty then []
  else if p.policy = 1 then
    if !isMx d.cX then [] else joinRanges ((d.winReads rows 0 d.cIn 0 (d.cTaps * d.cIn)).map fun x => (scaleVa e d t x.1, ceilDiv d.cIn 32))
  else winRanges e d t rows 0 d.cIn 0 (d.cTaps * d.cIn)

/-! ### Outputs (R129, R131, R243, R244) -/

/-- One pooled output: exact t, its flags, products clamped and underflowed, and the largest tap as an FP32 code. -/
structure Pooled where
  t : Ex
  fl : Nat
  sat : Nat
  under : Nat
  mag : Nat

/-- The pooled output of channel c at position i (R119, R123, R243). -/
def poolT (s : State) (e : Entry) (d : Desc) (key : Key) (p : Prod) (a : Int) (t i c : Nat) : Except MErr Pooled :=
  (both (window s e d t i c 1 0 d.cTaps) (both (cZero s e d t) (scaleAt s e.ctx (e.aux 0) t))).map fun o =>
    let x := o.1
    let z := Ex.ofInt o.2.1
    let mag := fp32Up (maxMag [x])
    if d.cOp = 1 then
      let m := x.1.tail.foldl Ex.max (x.1.headD Ex.zero)
      ⟨o.2.2.mul (m.sub z), x.2.inBits, 0, 0, mag⟩
    else
      let v := dotFrom a p.stoch (fun kk => key.prod t i c kk) 0 Acc64.zero x.1 (List.replicate x.1.length Ex.one)
      ⟨o.2.2.mul (((a64Val v.v a).div (Ex.ofInt d.cTaps)).sub z),
        x.2.inBits ||| (if v.sat = 0 then 0 else flSatProd) ||| (if v.under = 0 then 0 else flUnderProd) |||
          (if 2 ^ 62 ≤ v.v.natAbs then flHeadroom else 0), v.sat, v.under, mag⟩

/-- Exact t of one summed output (R129 with the CONV auxiliary block, R240). -/
def convT (s : State) (e : Entry) (d : Desc) (a v : Int) (t j : Nat) : Except MErr Ex :=
  match scaleAt s e.ctx (e.aux 0) t, scaleAt s e.ctx (e.aux 1) j, cZero s e d t,
      (if cZp e d then s32At s e.ctx (e.aux 3) j else .ok 0) with
  | .ok sx, .ok sw, .ok z, .ok c => .ok ((sx.mul sw).mul ((a64Val v a).sub (Ex.ofInt (z * c))))
  | .error x, _, _, _ => .error x
  | _, .error x, _, _ => .error x
  | _, _, .error x, _ => .error x
  | _, _, _, .error x => .error x

/-- Keep the larger of two candidates, the lower index on a tie (R244). -/
def keepCand (l : List Cand) (c : Cand) : List Cand :=
  match l.find? fun x => decide (x.entry = c.entry ∧ x.pos = c.pos) with
  | none => l ++ [c]
  | some o =>
    let better := (Ex.lt ⟨o.num, o.den⟩ ⟨c.num, c.den⟩) || (Ex.eqv ⟨o.num, o.den⟩ ⟨c.num, c.den⟩ && decide (c.idx < o.idx))
    if better then l.map fun x => if x.entry = c.entry ∧ x.pos = c.pos then c else x else l

/-- Raise flags on the core or on the awl engines. -/
def cRaise (s : State) (id core : Nat) (awl : Bool) (fl : Nat) : State := if awl then raiseAwl s id fl else raiseArr s id core fl

/-- Emit one output (t, position, channel): a candidate under argmax, else its code at its place in the layout; the stored
channels past c_out of the last block are written as zero codes with the last channel. -/
def cEmit (s : State) (e : Entry) (d : Desc) (key : Key) (core : Nat) (awl : Bool) (t i j fl : Nat) (x : Ex) : M :=
  if d.cArgmax then
    (addStats ((cRaise s e.id core awl fl).updEntry e.id fun r =>
      { r with run := { r.run with cands := keepCand r.run.cands ⟨t, i, x.num, x.den, j⟩ } }) e.id t (fp32Up x.abs) 0 0 0 0, none)
  else
    let c := convert1 x d.cFmt (d.b 7 56) (fun _ => key.out t i j) fl
    let s1 := addStats (cRaise s e.id core awl c.fl) e.id t c.mag 0 0 c.satO c.underO
    let o := d.cPos i
    let by1 := outBytes d.cFmt
    let at1 (ch : Nat) : Nat := t * d.cOutSize + layoutOff d.cLayout o.1 o.2.1 o.2.2 d.cd.o d.ch.o d.cw.o ch d.cOut * by1
    let m := writeOut s1 e d d.outAddr (at1 j) (leBytes by1 c.code)
    if j + 1 = d.cOut then
      m.next fun s => foldM (fun s ch => writeOut s e d d.outAddr (at1 ch) (zeros by1)) s
        ((List.range (storedCh d.cLayout d.cOut - d.cOut)).map (d.cOut + ·))
    else m

/-- One output of a pooling stage: formed, emitted, counted. -/
def poolEmit (s : State) (e : Entry) (d : Desc) (key : Key) (p : Prod) (core : Nat) (awl : Bool) (t i j : Nat) : M :=
  got s e.ctx (poolT s e d key p (e.run.anchors.getD t 0) t i j) fun r =>
    (cEmit s e d key core awl t i j r.fl r.t).next fun s => (raiseMax (addStats s e.id t 0 r.sat r.under 0 0) e.id t r.mag 0, none)

/-- One summed output with its sum v and the flags it has raised. -/
def convEmit (s : State) (e : Entry) (d : Desc) (key : Key) (core : Nat) (awl : Bool) (t i j fl : Nat) (v : Int) : M :=
  got s e.ctx (convT s e d (e.run.anchors.getD t 0) v t j) fun r =>
    cEmit s e d key core awl t i j (fl ||| if 2 ^ 62 ≤ v.natAbs then flHeadroom else 0) r

/-- What the conversion of entry t's outputs of some channels reads (R240). -/
def cReads (e : Entry) (d : Desc) (t : Nat) (chans : List Nat) : List (Nat × Nat) :=
  if d.cPool then arrayRanges (e.aux 0) 4 [t] ++ (if cZp e d then arrayRanges (e.aux 2) 2 [t] else []) else dqRanges e (cZp e d) [t] chans

/-- The column sums that some channels use match w (R130, R240). -/
def cSums (s : State) (e : Entry) (d : Desc) (p : Prod) (en : PEnt) (cols : List Nat) : Except MErr (List Unit) :=
  if !cZp e d ∨ d.cPool then .ok []
  else mapE (fun j => match s32At s e.ctx (e.aux 3) (en.col + j) with
    | .error x => .error x
    | .ok c => sumMatches s { p with k := d.cKv } en j c) cols

/-- Commit a block of a CONV stage on the arrays; a pooling block works its taps on the gate lanes of its cores (R243). -/
def cCommit (s : State) (e : Entry) (d : Desc) (key : Key) (p : Prod) (t : Tile) (pt : Partial) (a : Nat) (q : Pass) : M :=
  let en := p.ent t.ent
  let nc := (p.colsOf t).length
  let cells := q.rows.zipIdx.flatMap fun i => q.cols.zipIdx.map fun j => (i, j)
  let s0 := touchAll s e.ctx (cReads e d en.e (q.cols.map (en.col + ·)))
  let draws (s : State) : State := if !d.b 7 56 ∨ d.cArgmax then s
    else q.rows.zipIdx.foldl (fun s r => drewRow s p a (q.r0 + r.2) q.c0 (q.cols.map (en.col + ·))) s
  got s0 e.ctx (cSums s0 e d p en q.cols) fun _ => foldM (fun s x =>
    let core := a + p.rowCore (q.r0 + x.1.2) + p.colCore (q.c0 + x.2.2)
    if d.cPool then
      poolEmit ((drewBlocks s core (if p.stoch ∧ d.cOp ≠ 1 then 2 * ceilDiv d.cTaps 4 else 0)).addF (Reg.GATE_OPS core) 63 0 d.cTaps) e d key p core false en.e x.1.1 (en.col + x.2.1)
    else convEmit s e d key core false en.e x.1.1 (en.col + x.2.1) 0 (pt.vals.getD ((q.r0 + x.1.2) * nc + q.c0 + x.2.2) 0)) (draws s0) cells

/-! ### The awl engines (R245, R246) -/

/-- The stage can run on the awl engines (R245). -/
def Desc.awlFits (d : Desc) : Bool :=
  decide (d.cIn ≤ 8 ∨ d.cOut ≤ 8) && decide ((if d.cPool then d.cTaps else d.cKv) ≤ 4096) &&
  (d.cPool || decide (d.cOut * rowBytes d.cKv (inBits d.cW) ≤ 262144)) && !isMx d.cX && !isMx d.cW && !d.cLoupe

/-- The stage runs on the awl engines. -/
def Desc.onAwl (d : Desc) : Bool := decide (d.op = opcConv) && d.cEngine && d.awlFits

/-- Items of an awl stage: entry, first position, positions, first channel, channels; 32 consecutive positions of one
output row and up to 32 channels (R246). -/
def awlItems (e : Entry) (d : Desc) : List (Nat × Nat × Nat × Nat × Nat) :=
  let rows := d.cRows e.pkt.len
  if d.cEmpty then []
  else (List.range e.pkt.count).flatMap fun t => (List.range (ceilDiv rows d.cw.o)).flatMap fun r =>
    (List.range (ceilDiv (min d.cw.o (rows - r * d.cw.o)) 32)).flatMap fun g =>
      (List.range (ceilDiv d.cOut 32)).map fun c =>
        (t, r * d.cw.o + 32 * g, min 32 (min d.cw.o (rows - r * d.cw.o) - 32 * g), 32 * c, min 32 (d.cOut - 32 * c))

/-- One summed output of an awl item, with the statistics of its operands. -/
def awlEmit (s : State) (e : Entry) (d : Desc) (key : Key) (p : Prod) (t i j : Nat) : M :=
  let en : PEnt := ⟨t, 0, j / max 1 d.cGout * d.cGout⟩
  got s e.ctx (both (p.x s en i 0 d.cKv) (cCol s e d j 0 d.cKv)) fun o =>
    let v := dotFrom (e.run.anchors.getD t 0) p.stoch (fun kk => key.prod t i j kk) 0 Acc64.zero o.1.1 o.2.1
    let fl := o.1.2.inBits ||| o.2.2.inBits ||| (if v.sat = 0 then 0 else flSatProd) ||| (if v.under = 0 then 0 else flUnderProd)
    (convEmit s e d key 0 true t i j fl v.v).next fun s =>
      (raiseMax (addStats s e.id t 0 v.sat v.under 0 0) e.id t (fp32Up (maxMag [o.1])) (fp32Up (maxMag [o.2])), none)

/-- Compute and commit one awl item (R246). -/
def awlCommit (s : State) (e : Entry) (d : Desc) (key : Key) (p : Prod) (it : Nat × Nat × Nat × Nat × Nat) : M :=
  let t := it.1
  let rows := (List.range it.2.2.1).map (it.2.1 + ·)
  let chans := (List.range it.2.2.2.2).map (it.2.2.2.1 + ·)
  let reads := cReads e d t chans ++
    if d.cPool then winRanges e d t rows (chans.headD 0) chans.length 0 (d.cTaps * chans.length)
    else (dedup (chans.map (· / max 1 d.cGout))).flatMap (fun g => winRanges e d t rows (g * d.cGin) d.cGin 0 d.cKv) ++
      wRanges s e.ctx d.cW d.cKv d.cWAddr chans 0 d.cKv
  let s0 := touchAll s e.ctx reads
  got s0 e.ctx (if d.cPool then .ok [] else cSums s0 e d p ⟨t, 0, 0⟩ chans) fun _ =>
    (foldM (fun s x => if d.cPool then poolEmit s e d key p 0 true t x.1 x.2 else awlEmit s e d key p t x.1 x.2) s0
      (rows.flatMap fun i => chans.map fun j => (i, j))).next fun s => (s.addF Reg.AWL_WORK 63 32 1, none)

/-- Argmax indices, unsigned 16-bit, written once every candidate has arrived (R244). -/
def writeArgmax (s : State) (e : Entry) (d : Desc) : M :=
  if !d.cArgmax then (s, none)
  else foldM (fun s c => writeOut s e d d.outAddr (c.entry * d.cOutSize + 2 * c.pos) (leBytes 2 c.idx)) s e.run.cands

/-- Extent of the stage's output (R95, R239). -/
def cExtent (e : Entry) (d : Desc) : Nat := e.pkt.count * d.cOutSize

end Sys2Proof.Machine
end

