-- ==== Sys2Proof/Machine/RngUpdate.lean ====
section
/-!
DEFINITION. RNG_FILL and UPDATE (10_random_bits_and_update.md R260 to R271): their fields, their items, the distributions,
the optimiser rules and the commit of an item.
-/
namespace Sys2Proof.Machine

/-! ### RNG_FILL (Table 10.3) -/

/-- Fields of words 3 to 5. -/
def Desc.rfDist (d : Desc) : Nat := d.f 3 63 60
@[inherit_doc Desc.rfDist] def Desc.rfOut (d : Desc) : Nat := d.f 3 59 56
@[inherit_doc Desc.rfDist] def Desc.rfIn (d : Desc) : Nat := d.f 3 55 52
@[inherit_doc Desc.rfDist] def Desc.rfBase (d : Desc) : Nat := d.f 4 63 0
@[inherit_doc Desc.rfDist] def Desc.rfParam (d : Desc) : Nat := d.f 5 63 32
@[inherit_doc Desc.rfDist] def Desc.rfAux (d : Desc) : Nat := d.f 5 31 0

/-- A factor that is negative, infinite or NaN. -/
def negBad (c : Nat) : Bool := f32Bad c || decide (2 ^ 31 ≤ c % 2 ^ 32 ∧ c % 2 ^ 31 ≠ 0)

/-- Host errors of an RNG_FILL descriptor (R262). -/
def rfBad (d : Desc) : Bool :=
  decide (6 ≤ d.rfDist ∨ d.outDst = 3) ||
  ((decide (d.rfDist = 1) || decide (d.rfDist = 2) || decide (d.rfDist = 4)) && decide (4 < d.rfOut)) ||
  ((decide (d.rfDist = 4) || decide (d.rfDist = 5)) && decide (4 < d.rfIn ∨ d.inSrc = 3)) ||
  (decide (d.rfDist = 4) && negBad d.rfAux) || (decide (d.rfDist = 5) && negBad d.rfParam)

/-- Items of the stage: 4,096 elements, or 4,096 classes of one row (R261). -/
def rfPerRow (d : Desc) : Nat := ceilDiv d.rfAux 4096
@[inherit_doc rfPerRow] def rfItems (e : Entry) (d : Desc) : Nat :=
  if d.rfDist = 5 then e.pkt.count * rfPerRow d else ceilDiv e.pkt.count 4096

/-- Extent of the output in bytes (Table 10.4). -/
def rfExtent (e : Entry) (d : Desc) : Nat :=
  if d.rfDist = 0 ∨ d.rfDist = 5 then 4 * e.pkt.count
  else if d.rfDist = 3 then ceilDiv e.pkt.count 8
  else e.pkt.count * outBytes d.rfOut

/-- Coordinate x of element i. -/
def rfX (d : Desc) (i : Nat) : Nat := (d.rfBase + i) % 2 ^ 64

/-- √(−2 ln u1) × cos(2π u2) of two drawn words (Table 10.4), and −ln(−ln u) of one (R261). -/
def normalEx (w0 w1 : Nat) : Ex :=
  (sqrtEx ((lnEx (Ex.pow2 (w0 / 2 ^ 8 + 1 : Nat) (-24))).mul (Ex.ofInt (-2)))).mul
    (cosSinEx (Ex.pow2 (2 * piGrid * (w1 / 2 ^ 8 : Nat)) (-(angleBits : Int) - 24))).1
@[inherit_doc normalEx] def gumbelEx (w0 : Nat) : Ex := (lnEx (lnEx (Ex.pow2 (2 * (w0 / 2 ^ 8) + 1 : Nat) (-25))).neg).neg

/-- Those values as FP32 codes, within 4 ulp (R192, R260, R261). -/
def normal32 (w0 w1 : Nat) : Nat := (withinUlp 4 (normalEx w0 w1) (Config.normalFn w0 w1) false).code
@[inherit_doc normal32] def gumbel32 (w0 : Nat) : Nat := (withinUlp 4 (gumbelEx w0) (Config.gumbelFn (w0 / 2 ^ 8)) false).code

/-- The number an element has under UNIFORM and NORMAL, before it is rounded to the output format. -/
def rfValue (d : Desc) (key : Key) (i : Nat) : Ex :=
  let w0 := key.fill (rfX d i) 0 0
  if d.rfDist = 1 then Ex.pow2 (w0 / 2 ^ 8 : Nat) (-24) else f32 (normal32 w0 (key.fill (rfX d i) 0 1))

/-- Output bytes of element i, with ARR_STAT bits. -/
def rfElem (s : State) (e : Entry) (d : Desc) (key : Key) (i : Nat) : Except MErr (List Byte × Nat) :=
  let by1 := outBytes d.rfOut
  let w0 := key.fill (rfX d i) 0 0
  if d.rfDist = 0 then .ok (leBytes 4 w0, 0)
  else if d.rfDist = 4 then
    let n := outBytes d.rfIn
    (readSrc s e d d.inAddr (i * n) n).map fun bs =>
      let v := readOut d.rfIn (leNat bs)
      if w0 < d.rfParam then
        let r := roundOut (v.1.mul (f32 d.rfAux)) d.rfOut false fun _ => 0
        (leBytes by1 r.1, v.2.inBits ||| r.2.outBits)
      else (zeros by1, v.2.inBits)
  else
    let r := roundOut (rfValue d key i) d.rfOut false fun _ => 0
    .ok (leBytes by1 r.1, r.2.outBits)

/-- Bits of BERNOULLI elements i0 to i0 + n − 1: element x in bit x mod 8 of its byte (Table 10.4). -/
def rfBits (d : Desc) (key : Key) (i0 n : Nat) : List Byte :=
  (List.range (ceilDiv n 8)).map fun k => BitVec.ofNat 8 (listMask (((List.range (min 8 (n - 8 * k))).map (i0 + 8 * k + ·)).filterMap
    fun i => if key.fill (rfX d i) 0 0 < d.rfParam then some (rfX d i % 8) else none))

/-- The score of class c of row r, exactly, with ARR_STAT bits (R261). -/
def rfScore (s : State) (e : Entry) (d : Desc) (key : Key) (r c : Nat) : Except MErr (Ex × Nat) :=
  let n := outBytes d.rfIn
  (readSrc s e d d.inAddr ((r * d.rfAux + c) * n) n).map fun bs =>
    let v := readOut d.rfIn (leNat bs)
    if d.rfParam % 2 ^ 31 = 0 then (v.1, v.2.inBits)
    else (rnd32 ((rnd32 (v.1.div (f32 d.rfParam))).add (f32 (gumbel32 (key.fill (rfX d r) c 0)))), v.2.inBits)

/-- The stage draws words: all but CATEGORICAL with τ zero (R261). -/
def Desc.rfDraws (d : Desc) : Bool := !decide (d.rfDist = 5 ∧ d.rfParam % 2 ^ 31 = 0)

/-- Elements [i, i + n) of the stage's input in memory: address and bytes. -/
def rfRange (d : Desc) (i n : Nat) : List (Nat × Nat) :=
  if d.inSrc = 0 ∧ (d.rfDist = 4 ∨ d.rfDist = 5) then [(d.inAddr + i * outBytes d.rfIn, n * outBytes d.rfIn)] else []

/-- Compute and commit item it on a core. -/
def rfCommit (s : State) (e : Entry) (d : Desc) (key : Key) (it core : Nat) : M :=
  if d.rfDist = 5 then
    let r := it / max 1 (rfPerRow d)
    let c0 := it % max 1 (rfPerRow d) * 4096
    let n := min 4096 (d.rfAux - c0)
    let s0 := touchAll s e.ctx (rfRange d (r * d.rfAux + c0) n)
    got s0 e.ctx (mapE (fun c => (rfScore s e d key r c).map fun x => (c, x)) ((List.range n).map (c0 + ·))) fun l =>
      let s1 := drewBlocks (raiseArr s0 e.id core (l.foldl (fun f x => f ||| x.2.2) 0)) core (if d.rfDraws then n else 0)
      (s1.updEntry e.id fun y => { y with run := { y.run with
        cands := l.foldl (fun cs x => keepCand cs ⟨r, 0, x.2.1.num, x.2.1.den, x.1⟩) y.run.cands } }, none)
  else
    let i0 := it * 4096
    let n := min 4096 (e.pkt.count - i0)
    let s1 := drewBlocks (touchAll s e.ctx (rfRange d i0 n)) core n
    if d.rfDist = 3 then writeOut s1 e d d.outAddr (it * 512) (rfBits d key i0 n)
    else got s1 e.ctx (mapE (rfElem s e d key) ((List.range n).map (i0 + ·))) fun l =>
      let b := if d.rfDist = 0 then 4 else outBytes d.rfOut
      writeOut (raiseArr s1 e.id core (l.foldl (fun f x => f ||| x.2) 0)) e d d.outAddr (i0 * b) (l.flatMap (·.1))

/-- CATEGORICAL writes each row's index once its candidates are combined; without classes, 0xFFFF_FFFF (R261). -/
def rfFinish (s : State) (e : Entry) (d : Desc) : M :=
  if d.rfDist ≠ 5 then (s, none)
  else foldM (fun s r =>
    let idx := ((e.run.cands.find? fun c => decide (c.entry = r)).map (·.idx)).getD 0xFFFFFFFF
    writeOut s e d d.outAddr (4 * r) (leBytes 4 idx)) s (List.range e.pkt.count)

/-! ### UPDATE: records (Tables 10.5, 10.6) -/

/-- Fields of words 3 and 4. -/
def Desc.upFirst (d : Desc) : Nat := d.f 3 63 52
@[inherit_doc Desc.upFirst] def Desc.upTable (d : Desc) : Nat := d.f 4 63 0

/-- Field [hi:lo] of word k of a record. -/
def GroupRun.f (g : GroupRun) (k hi lo : Nat) : Nat := fld (g.words.getD k 0) hi lo

/-- Named fields. -/
def GroupRun.w (g : GroupRun) : Nat := g.f 0 63 0
@[inherit_doc GroupRun.w] def GroupRun.g (g : GroupRun) : Nat := g.f 1 63 0
@[inherit_doc GroupRun.w] def GroupRun.m (g : GroupRun) : Nat := g.f 2 63 0
@[inherit_doc GroupRun.w] def GroupRun.v (g : GroupRun) : Nat := g.f 3 63 0
@[inherit_doc GroupRun.w] def GroupRun.rows (g : GroupRun) : Nat := g.f 4 63 40
@[inherit_doc GroupRun.w] def GroupRun.cols (g : GroupRun) : Nat := g.f 4 39 16
@[inherit_doc GroupRun.w] def GroupRun.rule (g : GroupRun) : Nat := g.f 4 15 14
@[inherit_doc GroupRun.w] def GroupRun.wFmt (g : GroupRun) : Nat := g.f 4 12 11
@[inherit_doc GroupRun.w] def GroupRun.gFmt (g : GroupRun) : Nat := g.f 4 10 9
@[inherit_doc GroupRun.w] def GroupRun.t (g : GroupRun) : Nat := g.f 8 63 32
@[inherit_doc GroupRun.w] def GroupRun.size (g : GroupRun) : Nat := g.rows * g.cols
@[inherit_doc GroupRun.w] def GroupRun.loupe (g : GroupRun) : Bool := g.w.testBit 63

/-- Stochastic rounding of the weights. -/
def GroupRun.stoch (g : GroupRun) : Bool := (g.words.getD 4 0).toNat.testBit 8

/-- FACTORED with both a row and a column factor (R267). -/
def GroupRun.factored (g : GroupRun) : Bool := decide (g.rule = 3 ∧ g.rows ≠ 1 ∧ g.cols ≠ 1)

/-- The rule keeps a first moment, and a second one by element. -/
def GroupRun.hasM (g : GroupRun) : Bool := decide (g.rule = 1 ∨ g.rule = 2) || decide (g.m ≠ 0)
@[inherit_doc GroupRun.hasM] def GroupRun.hasV (g : GroupRun) : Bool := decide (g.rule = 1) || (decide (g.rule = 3) && !g.factored)

/-- FP32 parameters of words 5 to 7 and 11. -/
def GroupRun.lr (g : GroupRun) : Nat := g.f 5 63 32
@[inherit_doc GroupRun.lr] def GroupRun.wd (g : GroupRun) : Nat := g.f 5 31 0
@[inherit_doc GroupRun.lr] def GroupRun.b1 (g : GroupRun) : Nat := g.f 6 63 32
@[inherit_doc GroupRun.lr] def GroupRun.b2 (g : GroupRun) : Nat := g.f 6 31 0
@[inherit_doc GroupRun.lr] def GroupRun.eps (g : GroupRun) : Nat := g.f 7 63 32
@[inherit_doc GroupRun.lr] def GroupRun.gScale (g : GroupRun) : Nat := g.f 7 31 0

/-- The weight format of a record as a floating format. -/
def wFp (c : Nat) : FpFmt := if c = 0 then fp32 else if c = 1 then bf16 else fp16
@[inherit_doc wFp] def wBytes (c : Nat) : Nat := if c = 0 then 4 else 2
@[inherit_doc wFp] def wIn (c : Nat) : Nat := if c = 1 then 10 else 11

/-- Bytes of a gradient element. -/
def gBytes (c : Nat) : Nat := if c = 0 then 4 else if c = 1 then 2 else 8

/-- Read the record of a group (R264). -/
def readGroup (s : State) (e : Entry) (d : Desc) (i : Nat) : Except MErr GroupRun :=
  (vread s e.ctx (d.upTable + 128 * (d.upFirst + i)) 128).map fun bs =>
    ⟨(List.range 16).map (wordAt bs), 0, 1, [], [], 0, 0⟩

/-- Host errors of a record (R264, R270, R271). -/
def upBadGroup (s : State) (e : Entry) (d : Desc) (i : Nat) (g : GroupRun) : Bool :=
  let va := d.upTable + 128 * (d.upFirst + i)
  let n := g.size
  let one (c : Nat) : Bool := negBad c || decide (0x3F800000 < c % 2 ^ 31)
  negBad g.lr || negBad g.wd || negBad g.eps || one g.b1 || one g.b2 || decide (g.wFmt = 3 ∨ g.gFmt = 3) ||
  s.notClassC e.ctx va 128 || (g.m ≠ 0 && s.notClassC e.ctx g.m (4 * n)) ||
  (decide (g.rule = 1 ∨ g.rule = 3) && s.notClassC e.ctx g.v (4 * if g.factored then g.rows + g.cols else n)) ||
  (decide (g.f 10 63 32 ≠ 0 ∧ g.f 9 63 0 ≠ 0) && s.notClassC e.ctx (g.f 9 63 0) 8192) ||
  (if g.loupe then decide (g.wFmt = 0 ∨ bits g.w 62 52 ≠ 0) || (match readLoupe s e.ctx (bits g.w 51 0) with
      | .ok l =>
        let b := ceilDiv g.cols 256 * ceilDiv g.rows (max 1 (loupeRows (wIn g.wFmt)))
        decide (l.layout ≠ 1 ∨ l.k ≠ g.rows ∨ l.n ≠ g.cols) ||
        s.notClassC e.ctx l.header (64 * b) || s.notClassC e.ctx l.payload (4096 * b)
      | .error _ => false)
    else s.notClassC e.ctx g.w (n * wBytes g.wFmt))

/-- Host errors of the stage (R263). -/
def upBad (e : Entry) (d : Desc) : Bool :=
  decide (d.inSrc ≠ 0 ∨ d.outDst ≠ 0 ∨ 4096 < d.upFirst + e.pkt.count)

/-- Another UPDATE of the context that names one of the same groups has started (R263). -/
def upClash (s : State) (e : Entry) (d : Desc) : Bool :=
  s.flight.any fun x => decide (x.id ≠ e.id ∧ x.ctx = e.ctx) && x.run.started && !x.done && decide (x.desc.op = opcUpdate ∧
    x.desc.upTable = d.upTable) && overlaps d.upFirst e.pkt.count x.desc.upFirst x.pkt.count

/-! ### Items (R268, R270) -/

/-- One item: group, pass (0 update, 1 maximum, 2 sums) and block of the group. -/
structure UpItem where
  grp : Nat
  pass : Nat
  blk : Nat
  deriving DecidableEq, Repr

/-- Blocks of a group: 4,096 elements each, or the blocks of its stream. -/
def upBlocks (g : GroupRun) : Nat :=
  if g.size = 0 then 0
  else if g.loupe then ceilDiv g.cols 256 * ceilDiv g.rows (max 1 (loupeRows (wIn g.wFmt)))
  else ceilDiv g.size 4096

/-- The items of the stage, group by group, each pass of a FACTORED group after the one before. -/
def upItems (gs : List GroupRun) : List UpItem :=
  gs.zipIdx.flatMap fun g => (if g.1.factored then [1, 2, 0] else [0]).flatMap fun p =>
    (List.range (upBlocks g.1)).map fun b => ⟨g.2, p, b⟩

/-- Element numbers of a block, in order. -/
def upElems (g : GroupRun) (b : Nat) : List Nat :=
  if g.loupe then
    let kb := max 1 (loupeRows (wIn g.wFmt))
    let nb := ceilDiv g.rows kb
    (List.range kb).flatMap fun r =>
      let row := b % max 1 nb * kb + r
      if g.rows ≤ row then []
      else (List.range (min 256 (g.cols - b / max 1 nb * 256))).map fun c => row * g.cols + b / max 1 nb * 256 + c
  else (List.range (min 4096 (g.size - b * 4096))).map (b * 4096 + ·)

/-- An item can be issued: the passes before its own in its group are complete. -/
def upReady (items : List UpItem) (done : List Nat) (it : UpItem) : Bool :=
  let before := if it.pass = 2 then [1] else if it.pass = 0 then [1, 2] else []
  items.zipIdx.all fun x => !(decide (x.1.grp = it.grp) && before.contains x.1.pass) || done.contains x.2

/-! ### Element arithmetic (R265 to R267) -/

/-- FP32 operations, rounded each. -/
def fadd (a b : Ex) : Ex := rnd32 (a.add b)
@[inherit_doc fadd] def fsub (a b : Ex) : Ex := rnd32 (a.sub b)
@[inherit_doc fadd] def fmul (a b : Ex) : Ex := rnd32 (a.mul b)

/-- A division; none when the divisor is zero. -/
def fdiv (a b : Ex) : Option Ex := if b.num = 0 then none else some (rnd32 (a.div b))

/-- An FP32 word of the context. -/
def readF (s : State) (c va : Nat) : Except MErr Ex := (vread s c va 4).map fun bs => f32 (leNat bs)

/-- The gradient element x times g_scale, with what its reading raises: a NaN is zero and an infinity the largest finite FP32, in
every format (R265). -/
def upGrad (s : State) (c : Nat) (g : GroupRun) (x : Nat) : Except MErr (Ex × VFlags) :=
  let b := gBytes g.gFmt
  (vread s c (g.g + x * b) b).map fun bs =>
    let v : Ex × VFlags := if g.gFmt = 2 then (rnd32 (a64Val (sext 64 (leNat bs)) (sext 16 (g.f 8 31 16))), {})
      else fp32.read (leNat bs * if g.gFmt = 1 then 2 ^ 16 else 1)
    (fmul v.1 (f32 g.gScale), v.2)

/-- The schedule factors f_eta and f_lam (R266). -/
def upSchedule (s : State) (c : Nat) (g : GroupRun) : Except MErr (Ex × Ex) :=
  let span := g.f 10 63 32
  let base := g.f 9 63 0
  if span = 0 ∨ base = 0 then .ok (Ex.one, Ex.one)
  else
    let i := g.t / span
    let entry (k : Nat) : Except MErr (Ex × Ex) := (vread64 s c (base + 8 * k)).map fun w => (f32 (bits w 63 32), f32 (bits w 31 0))
    if 1023 ≤ i then entry 1023
    else match entry i, entry (i + 1) with
      | .ok a, .ok b =>
        let phi := rnd32 ⟨(g.t % span : Nat), span⟩
        let f (u v : Ex) : Ex := fadd u (fmul phi (fsub v u))
        .ok (f a.1 b.1, f a.2 b.2)
      | .error x, _ => .error x
      | _, .error x => .error x

/-- R, C and mean_R of element x of a FACTORED group (R267). -/
structure Factors where
  r : Ex
  c : Ex
  mean : Ex
  deriving DecidableEq, Repr

/-- The new moments and d of one element. -/
structure Moments where
  m : Option Ex
  v : Option Ex
  d : Ex
  deriving DecidableEq, Repr

/-- One element's rule: moments and direction (R265). A division whose divisor is zero gives d = 0, and its quotient counts as zero in
a first moment (log entry 88). -/
def upRule (gr : GroupRun) (g m v : Ex) (fc : Option Factors) : Moments :=
  let b1 := f32 gr.b1
  let b2 := f32 gr.b2
  let eps := f32 gr.eps
  let c1 := fsub Ex.one b1
  let c2 := fsub Ex.one b2
  let p1 := fmul (f32 (gr.f 11 63 32)) b1
  let p2 := fmul (f32 (gr.f 11 31 0)) b2
  if gr.rule = 0 then
    if gr.m = 0 then ⟨none, none, g⟩
    else
      let m' := fadd (fmul b1 m) g
      ⟨some m', none, if (gr.words.getD 4 0).toNat.testBit 13 then fadd g (fmul b1 m') else m'⟩
  else if gr.rule = 1 then
    let m' := fadd (fmul b1 m) (fmul c1 g)
    let v' := fadd (fmul b2 v) (fmul c2 (fmul g g))
    let d := match fdiv m' (fsub Ex.one p1), fdiv v' (fsub Ex.one p2) with
      | some a, some b => (fdiv a (fadd (sqrt32 b) eps)).getD Ex.zero
      | _, _ => Ex.zero
    ⟨some m', some v', d⟩
  else if gr.rule = 2 then
    ⟨some (fadd (fmul b2 m) (fmul c2 g)), none, Ex.ofInt (fadd (fmul b1 m) (fmul c1 g)).sign⟩
  else
    let v' := fadd (fmul b2 v) (fmul c2 (fadd (fmul g g) eps))
    let q := match fc with
      | some f => (fdiv (fmul f.r f.c) f.mean).bind fun q => fdiv g (sqrt32 q)
      | none => fdiv g (sqrt32 v')
    let u := q.getD Ex.zero
    let m' := fadd (fmul b1 m) (fmul c1 u)
    ⟨if gr.m = 0 then none else some m', if fc.isSome then none else some v', if q.isNone then Ex.zero else if gr.m = 0 then u else m'⟩

/-- The anchor of sums of n values on a FACTORED group's grids, 2E + 8 + g(n); where no |g| is above zero the spec gives no E (R267). -/
def GroupRun.gridOf (g : GroupRun) (n : Nat) : Int :=
  2 * (if g.maxNum = 0 then Config.zeroExp g.rows g.cols else (⟨g.maxNum, g.maxDen⟩ : Ex).clog2) + 8 + headroom n 8

/-- R, C and mean_R as the sums pass left them (R267). -/
def upFactors (s : State) (c : Nat) (g : GroupRun) (x : Nat) : Except MErr (Option Factors) :=
  if !g.factored then .ok none
  else match readF s c (g.v + 4 * (x / max 1 g.cols)), readF s c (g.v + 4 * (g.rows + x % max 1 g.cols)),
      mapE (fun r => readF s c (g.v + 4 * r)) (List.range g.rows) with
    | .ok r, .ok cl, .ok rs =>
      let a := g.gridOf g.rows
      let sum := rs.foldl (fun acc y => acc.product a y false fun _ => 0) Acc64.zero
      .ok (some ⟨r, cl, rnd32 ((a64Val sum.v a).div (Ex.ofInt g.rows))⟩)
    | .error y, _, _ => .error y
    | _, .error y, _ => .error y
    | _, _, .error y => .error y

/-- What one element becomes: its new weight code, moments, and flags (limited, non-finite gradient, input flags). -/
structure UpElem where
  x : Nat
  w : Nat
  m : Option Ex
  v : Option Ex
  sat : Bool
  bad : Bool
  fl : Nat
  deriving DecidableEq, Repr

/-- Update element x with old weight code w (R265). -/
def upElem (s : State) (e : Entry) (d : Desc) (key : Key) (gi : Nat) (g : GroupRun) (w x : Nat) : Except MErr UpElem :=
  let c := e.ctx
  match upGrad s c g x, (if g.hasM then readF s c (g.m + 4 * x) else .ok Ex.zero),
      (if g.hasV then readF s c (g.v + 4 * x) else .ok Ex.zero), upFactors s c g x with
  | .ok gv, .ok m, .ok v, .ok fc =>
    let eta := f32 g.eta
    let lam := f32 g.lam
    let r := upRule g gv.1 m v fc
    let bad := gv.2.nan || gv.2.inf
    if eta.num = 0 then .ok ⟨x, w, r.m, r.v, false, bad, gv.2.inBits⟩
    else
      let fm := wFp g.wFmt
      let old := (fm.read w).1
      let t := old.sub (eta.mul ((lam.mul old).add r.d))
      let q := fm.round t g.stoch fun _ => key.weight (d.upFirst + gi) (g.t + 1) x
      .ok ⟨x, q.1, r.m, r.v, q.2.sat, bad, gv.2.inBits⟩
  | .error y, _, _, _ => .error y
  | _, .error y, _, _ => .error y
  | _, _, .error y, _ => .error y
  | _, _, _, .error y => .error y

/-! ### Commit of an item (R268, R270) -/

/-- Write the moments of updated elements. -/
def upWriteMoments (s : State) (c : Nat) (g : GroupRun) (es : List UpElem) : M :=
  foldM (fun s u =>
    let m1 : M := match u.m with
      | some m => wrB s c (g.m + 4 * u.x) (leBytes 4 (to32 m))
      | none => (s, none)
    m1.next fun s => match u.v with
      | some v => wrB s c (g.v + 4 * u.x) (leBytes 4 (to32 v))
      | none => (s, none)) s es

/-- Drop the retained ranges that hold a byte of [va, va + n) (R171, R270). -/
def dropHolding (s : State) (c va n : Nat) : State :=
  dropPagesWritten s ((pieces va n).filterMap fun pc => physPage s c pc.1)

/-- The 16 sub-streams of a block rewritten in the canonical coding, headers first; ranges that held the old block go, a block of
zeros with no payload included (R270). -/
def upWriteBlock (s : State) (c : Nat) (l : Loupe) (fmt b : Nat) (subs : List (List Nat)) : M :=
  let enc := subs.map (encodeSub fmt)
  (wrB (dropHolding s c (l.payload + 4096 * b) 4096) c (l.header + 64 * b) (enc.flatMap fun x => leBytes 4 x.1)).next fun s =>
    let pay := enc.flatMap (·.2)
    if pay = [] then (s, none) else wrB s c (l.payload + 4096 * b) pay

/-- The element codes of a stream's block, one list per sub-stream. -/
def upBlockCodes (s : State) (c fmt : Nat) (l : Loupe) (b : Nat) : Except MErr (List (List Nat)) :=
  mapE (fun g => loupeSub s c fmt l b g) (List.range 16)

/-- Place of element x in a block: sub-stream and index (R179). -/
def upPlace (g : GroupRun) (x : Nat) : Nat × Nat :=
  let kb := max 1 (loupeRows (wIn g.wFmt))
  let row := x / max 1 g.cols
  let col := x % max 1 g.cols
  (col % 256 / 16, 16 * (row % kb) + col % 16)

/-- Commit the new weights of a block. -/
def upWriteWeights (s : State) (e : Entry) (g : GroupRun) (b : Nat) (es : List UpElem) : M :=
  let c := e.ctx
  if g.loupe then
    let fmt := wIn g.wFmt
    match readLoupe s c (bits g.w 51 0) with
    | .error x => (s, some x)
    | .ok l => match upBlockCodes s c fmt l b with
      | .error x => (s, some x)
      | .ok subs => upWriteBlock s c l fmt b (es.foldl (fun ss u =>
          let p := upPlace g u.x
          updAt ss p.1 fun cs => updAt cs p.2 fun _ => u.w) subs)
  else foldM (fun s u => wrB s c (g.w + u.x * wBytes g.wFmt) (leBytes (wBytes g.wFmt) u.w)) s es

/-- Old weight codes of a block's elements, in order. -/
def upOldWeights (s : State) (e : Entry) (g : GroupRun) (b : Nat) (xs : List Nat) : Except MErr (List Nat) :=
  let c := e.ctx
  if g.loupe then
    match readLoupe s c (bits g.w 51 0) with
    | .error x => .error x
    | .ok l => (upBlockCodes s c (wIn g.wFmt) l b).map fun subs => xs.map fun x =>
        let p := upPlace g x
        (subs.getD p.1 []).getD p.2 0
  else mapE (fun x => (vread s c (g.w + x * wBytes g.wFmt) (wBytes g.wFmt)).map leNat) xs

/-- The record of a finished group: t, p1, p2 (R265, R268). -/
def upFinishGroup (s : State) (e : Entry) (d : Desc) (gi : Nat) (g : GroupRun) (core : Nat) : M :=
  let va := d.upTable + 128 * (d.upFirst + gi)
  let p1 := to32 (fmul (f32 (g.f 11 63 32)) (f32 g.b1))
  let p2 := to32 (fmul (f32 (g.f 11 31 0)) (f32 g.b2))
  (wrB s e.ctx (va + 68) (leBytes 4 (g.t + 1))).next fun s =>
  (wr64 s e.ctx (va + 88) (p1 * 2 ^ 32 + p2)).next fun s => (s.addF (Reg.UPD_WORK core) 31 0 1, none)

/-- Change the run record of group gi. -/
def updGroup (s : State) (id gi : Nat) (f : GroupRun → GroupRun) : State :=
  s.updEntry id fun x => { x with run := { x.run with groups := updAt x.run.groups gi f } }

/-- Row and column sums of g² + ε of a block on their grids, added to those of the group (R267). -/
def upSums (g : GroupRun) (eps : Ex) (xs : List Nat) (gs : List Ex) : List Int × List Int :=
  let one (a : Int) (v : Ex) (old : Int) : Int := (Acc64.product ⟨old, 0, 0⟩ a ((v.mul v).add eps) false fun _ => 0).v
  let r0 := if g.rowSums = [] then List.replicate g.rows 0 else g.rowSums
  let c0 := if g.colSums = [] then List.replicate g.cols 0 else g.colSums
  (xs.zip gs).foldl (fun (a : List Int × List Int) xv =>
    (updAt a.1 (xv.1 / max 1 g.cols) (one (g.gridOf g.cols) xv.2),
     updAt a.2 (xv.1 % max 1 g.cols) (one (g.gridOf g.rows) xv.2))) (r0, c0)

/-- The new R and C of a group whose sums pass is complete (R267, R268). -/
def upWriteFactors (s : State) (e : Entry) (g : GroupRun) : M :=
  let c := e.ctx
  let b2 := f32 g.b2
  let c2 := fsub Ex.one b2
  let put (s : State) (va : Nat) (sum a : Int) (n : Nat) : M := reading s c va 4 (readF s c va) fun s old =>
    let mean := rnd32 ((a64Val sum a).div (Ex.ofInt n))
    wrB s c va (leBytes 4 (to32 (fadd (fmul b2 old) (fmul c2 mean))))
  (foldM (fun s r => put s (g.v + 4 * r.2) r.1 (g.gridOf g.cols) g.cols) s g.rowSums.zipIdx).next fun s =>
    foldM (fun s r => put s (g.v + 4 * (g.rows + r.2)) r.1 (g.gridOf g.rows) g.rows) s g.colSums.zipIdx

/-- The items of a group's pass other than item number i are all done. -/
def upLast (items : List UpItem) (done : List Nat) (i : Nat) (it : UpItem) : Bool :=
  items.zipIdx.all fun x => decide (x.1.grp ≠ it.grp ∨ x.1.pass ≠ it.pass ∨ x.2 = i) || done.contains x.2

/-- A NaN or infinite gradient element was read (R265). -/
def upBookGrads (s : State) (id core : Nat) (bad : Bool) : State :=
  raiseRecord (s.orReg (Reg.UPD_STAT core) (b2n bad * 2)) id bad false

/-- Count an item's commit and what its elements raised (Tables 10.11 to 10.13). -/
def upBook (s : State) (id core : Nat) (es : List UpElem) : State :=
  let sat := es.any (·.sat)
  let bad := es.any (·.bad)
  let s1 := s.orReg (Reg.UPD_STAT core) (b2n sat * 4 + b2n bad * 2)
  (raiseRecord s1 id (sat || bad) false).addF (Reg.UPD_ELEMS core) 63 0 es.length

/-- What the elements of a block read: in the passes before the update the gradient alone, then the old weights, the moments and, of a
FACTORED group, R and C too (R265, R267, R270). -/
def upReads (s : State) (c : Nat) (g : GroupRun) (it : UpItem) (xs : List Nat) : List (Nat × Nat) :=
  let run (va b : Nat) : List (Nat × Nat) := joinRanges (xs.map fun x => (va + x * b, b))
  run g.g (gBytes g.gFmt) ++
    if it.pass ≠ 0 then []
    else (if g.loupe then (match readLoupe s c (bits g.w 51 0) with
        | .ok l => [(bits g.w 51 0, 64), (l.header + 64 * it.blk, 64), loupeBytes s c l it.blk]
        | .error _ => []) else run g.w (wBytes g.wFmt)) ++
      (if g.hasM then run g.m 4 else []) ++ (if g.hasV then run g.v 4 else []) ++
      if g.factored then [(g.v, 4 * (g.rows + g.cols))] else []

/-- A pass of a FACTORED group before its update, over the block of item `it` (R267). -/
def upPass (s : State) (e : Entry) (g : GroupRun) (it : UpItem) (xs : List Nat) (last : Bool) (core : Nat) : M :=
  got s e.ctx (mapE (upGrad s e.ctx g) xs) fun gs =>
    let s1 := upBookGrads s e.id core (gs.any fun v => v.2.nan || v.2.inf)
    if it.pass = 1 then
      let mx := gs.foldl (fun m v => Ex.max m v.1.abs) ⟨g.maxNum, g.maxDen⟩
      (updGroup s1 e.id it.grp fun g => { g with maxNum := mx.num, maxDen := mx.den }, none)
    else
      let sm := upSums g (f32 g.eps) xs (gs.map (·.1))
      let g' := { g with rowSums := sm.1, colSums := sm.2 }
      let s2 := updGroup s1 e.id it.grp fun _ => g'
      if last then upWriteFactors s2 e g' else (s2, none)

/-- The update of a block: every element from what stood before, then the writes, and with the group's last item its record (R265,
R268). -/
def upBlock (s : State) (e : Entry) (d : Desc) (key : Key) (g : GroupRun) (it : UpItem) (xs : List Nat) (last : Bool) (core : Nat) : M :=
  got s e.ctx (upOldWeights s e g it.blk xs) fun ws =>
  got s e.ctx (mapE (fun wx : Nat × Nat => upElem s e d key it.grp g wx.1 wx.2) (ws.zip xs)) fun es =>
    let s1 := drewBlocks (upBook s e.id core es) core (if g.stoch ∧ (f32 g.eta).num ≠ 0 then quads xs else 0)
    (upWriteWeights s1 e g it.blk es).next fun s => (upWriteMoments s e.ctx g es).next fun s =>
      if last then upFinishGroup s e d it.grp g core else (s, none)

/-- Compute and commit item number i on a core. -/
def upCommit (s : State) (e : Entry) (d : Desc) (key : Key) (i core : Nat) : M :=
  let items := upItems e.run.groups
  match items[i]? with
  | none => (s, none)
  | some it => match e.run.groups[it.grp]? with
    | none => (s, none)
    | some g =>
      let xs := upElems g it.blk
      let last := upLast items (e.run.done.map (·.item)) i it
      let s0 := touchAll s e.ctx (upReads s e.ctx g it xs)
      (if it.pass ≠ 0 then upPass s0 e g it xs last core else upBlock s0 e d key g it xs last core).next fun s =>
        (s.addF (Reg.UPD_WORK core) 63 32 1, none)

/-- What fixes η and λ of a group for the stage (R265, R266): the bytes of the schedule it reads. -/
def schedReads (g : GroupRun) : List (Nat × Nat) :=
  let span := g.f 10 63 32
  let i := min 1023 (g.t / max 1 span)
  if span = 0 ∨ g.f 9 63 0 = 0 then [] else [(g.f 9 63 0 + 8 * i, if i = 1023 then 8 else 16)]

/-- A group as the stage starts with it: its record, η and λ (R264, R265). -/
def takeGroup (s : State) (e : Entry) (d : Desc) (i : Nat) : Except MErr GroupRun :=
  match readGroup s e d i with
  | .error x => .error x
  | .ok g => (upSchedule s e.ctx g).map fun f =>
    { g with eta := to32 (fmul (f32 g.lr) f.1), lam := to32 (fmul (f32 g.wd) (if (g.words.getD 4 0).toNat.testBit 7 then f.2 else Ex.one)) }

/-- UPDATE takes its groups (R263, R264). -/
def upTake (s : State) (e : Entry) (d : Desc) : M :=
  if upClash s e d then (s, some .host)
  else
    let s0 := vtouch s e.ctx (d.upTable + 128 * d.upFirst) (128 * e.pkt.count)
    got s0 e.ctx (mapE (takeGroup s e d) (List.range e.pkt.count)) fun gs =>
      if gs.zipIdx.any fun g => upBadGroup s e d g.2 g.1 then (s0, some .host)
      else ((touchAll s0 e.ctx (gs.flatMap schedReads)).updEntry e.id fun x => { x with run := { x.run with groups := gs } }, none)

end Sys2Proof.Machine
end

