-- ==== Sys2Proof/Machine/Scan.lean ====
section
/-!
DEFINITION. SCAN (07_state_scan.md): the projection, the gate values, the serial evaluation of a chunk with its
re-anchors, slots for the entries, and the commit of their states.
-/
namespace Sys2Proof.Machine

/-! ### The stage's fields (Table 7.3) -/

/-- State dimension, input dimension, form and selections. -/
def Desc.scD (d : Desc) : Nat := d.f 3 63 39
@[inherit_doc Desc.scD] def Desc.scK (d : Desc) : Nat := d.f 3 38 14
@[inherit_doc Desc.scD] def Desc.scX (d : Desc) : Nat := d.f 4 63 60
@[inherit_doc Desc.scD] def Desc.scW (d : Desc) : Nat := d.f 4 59 56
@[inherit_doc Desc.scD] def Desc.scForm (d : Desc) : Nat := d.f 4 47 45
@[inherit_doc Desc.scD] def Desc.scMode (d : Desc) : Bool := d.b 4 44
@[inherit_doc Desc.scD] def Desc.scSel (d : Desc) : Nat := d.f 4 42 41
@[inherit_doc Desc.scD] def Desc.scChunk (d : Desc) : Nat := d.f 4 20 8
@[inherit_doc Desc.scD] def Desc.scFmt (d : Desc) : Nat := d.f 4 7 4
@[inherit_doc Desc.scD] def Desc.scInit (d : Desc) : Int := sext 16 (d.f 5 63 48)
@[inherit_doc Desc.scD] def Desc.scFn (d : Desc) (k : Nat) : Nat :=
  if k = 0 then d.f 4 40 37 else if k = 1 then d.f 4 36 33 else if k = 2 then d.f 4 32 29 else d.f 4 28 25

/-- Gate groups of the form, and of the stage (Table 7.1). -/
def Desc.scG (d : Desc) : Nat := if d.scForm = 2 then 3 else 2
@[inherit_doc Desc.scG] def Desc.scGroups (d : Desc) : Nat := d.scG + if d.scSel = 2 then 1 else 0

/-- Host errors of a SCAN descriptor (R195, R197). -/
def scBad (s : State) (e : Entry) (d : Desc) : Bool :=
  decide (4 ≤ d.scForm ∨ d.scSel = 3 ∨ 9 ≤ d.scFn 0 ∨ 9 ≤ d.scFn 2 ∨ (d.scForm = 2 ∧ 9 ≤ d.scFn 1) ∨
    (d.scSel ≠ 0 ∧ 9 ≤ d.scFn 3) ∨ d.scChunk % 16 ≠ 0 ∨ d.scChunk = 0 ∨ 4096 < d.scChunk ∨
    (d.scForm = 3 ∧ d.scD % 2 = 1) ∨ 65536 * (s.part e.part).frag.accTiles < d.scD ∨ 12 ≤ d.scX ∨ 12 ≤ d.scW ∨
    d.f 4 55 54 = 3 ∨ 6 ≤ d.scFmt ∨ e.pkt.sh = 0 ∨ d.inSrc = 3 ∨ d.outDst = 3)

/-- The projection (R191, R195). -/
def scProd (s : State) (e : Entry) (d : Desc) (fold : Word) : Prod where
  ents := (List.range e.pkt.count).map fun i => ⟨i, e.pkt.len, 0⟩
  n := d.scGroups * d.scD
  k := d.scK
  ctl := d.f 3 13 0
  fold := fold
  gang := gangOf s e
  xf := d.scX
  wf := d.scW
  policy := d.f 4 55 54
  margin := d.f 4 53 50
  stoch := d.b 4 49
  anchor := sext 16 (d.f 5 23 8)
  x := fun s t i k0 m =>
    let r := cutRange ((t.e * e.pkt.len + i) * rowBytes d.scK (inBits d.scX)) (inBits d.scX) k0 m
    (both (readScales s e.ctx d.scX d.scK (e.aux 4) (t.e * e.pkt.len + i) k0 m) (readSrc s e d d.inAddr r.1 r.2)).map
      fun o => readRow d.scX m o.2 o.1
  w := fun s _ j k0 m => match readScales s e.ctx d.scW d.scK (e.aux 5) j k0 m with
    | .error x => .error x
    | .ok sc => readCol s e.ctx d.scW d.scK (d.scGroups * d.scD) (d.f 6 63 0) j k0 m sc
  xs := fun s t => readPlane1 s e.ctx d.scX d.scK (e.aux 4) (t.e * e.pkt.len) t.rows
  ws := fun s _ => readPlane1 s e.ctx d.scW d.scK (e.aux 5) 0 (d.scGroups * d.scD)
  packed := fun _ => (d.f 6 63 0).testBit 63
  xAt := fun _ t rows k0 m => scaleRanges d.scX d.scK (e.aux 4) (rows.map (t.e * e.pkt.len + ·)) k0 m ++
    if d.inSrc ≠ 0 then []
    else joinRanges (rows.map fun i =>
      cutRange (d.inAddr + (t.e * e.pkt.len + i) * rowBytes d.scK (inBits d.scX)) (inBits d.scX) k0 m)
  wAux := fun s _ cols k0 m => scaleRanges d.scW d.scK (e.aux 5) cols k0 m ++ loupeRanges s e.ctx d.scW (d.f 6 63 0) cols k0 m
  wAt := fun s _ cols k0 m => wRanges s e.ctx d.scW d.scK (d.f 6 63 0) cols k0 m
  planesAt := fun t => scaleRanges d.scX d.scK (e.aux 4) ((List.range t.rows).map (t.e * e.pkt.len + ·)) 0 d.scK ++
    scaleRanges d.scW d.scK (e.aux 5) (List.range (d.scGroups * d.scD)) 0 d.scK

/-! ### Gate values of a position (R191) -/

/-- An FP32 parameter: bias β(j), or decay rate λ(e); zero address gives 0 and 1.0 (Table 7.4, R197). -/
def scBeta (s : State) (e : Entry) (j : Nat) : Except MErr Ex :=
  if e.aux 6 = 0 then .ok Ex.zero
  else match vread s e.ctx (e.aux 6 + 4 * j) 4 with
    | .error x => .error x
    | .ok bs => if f32Bad (leNat bs) then .error .host else .ok (f32 (leNat bs))
@[inherit_doc scBeta] def scLambda (s : State) (e : Entry) (d : Desc) (el : Nat) : Except MErr Nat :=
  if e.aux 6 = 0 then .ok 0x3F800000
  else match vread s e.ctx (e.aux 6 + 4 * (d.scGroups * d.scD + el)) 4 with
    | .error x => .error x
    | .ok bs =>
      let l := leNat bs
      if f32Bad l ∨ (l.testBit 31 ∧ l % 2 ^ 31 ≠ 0) then .error .host else .ok l

/-- A reset at position t of entry i (R189, R195). -/
def scReset (s : State) (e : Entry) (i t : Nat) : Except MErr Bool :=
  if e.aux 7 = 0 then .ok false
  else (vread s e.ctx (e.aux 7 + i * ceilDiv e.pkt.len 8 + t / 8) 1).map fun bs => (leNat bs).testBit (t % 8)

/-- The group of a projected column (R191). -/
def Desc.scGroup (d : Desc) (j : Nat) : Nat := j % max 1 d.scGroups

/-- The function a group passes through; θ of COMPLEX passes none (R191). -/
def Desc.groupFn (d : Desc) (j : Nat) : Nat :=
  let g := d.scGroup j
  if g = d.scG then 1
  else if g = 0 then (if d.scForm = 3 ∧ j / max 1 d.scGroups % 2 = 1 then 0 else d.scFn 0)
  else if g = d.scG - 1 then d.scFn 2
  else d.scFn 1

/-- A gate value, the ARR_STAT bits its pre-activation raises, and whether its function's result was limited. -/
structure GateOut where
  val : Nat
  fl : Nat
  limited : Bool

/-- The gate value of column j at position t of entry i, from its sum v (R191). -/
def scGate (s : State) (e : Entry) (d : Desc) (p : Prod) (i t j : Nat) (v : Int) : Except MErr GateOut :=
  let a := e.run.anchors.getD i 0
  let ri := i * e.pkt.len + t
  let zp := zpOn e (d.b 4 48) d.scX d.scW
  let el := j / max 1 d.scGroups
  let zc : Except MErr Int := if !zp then .ok 0
    else match both (s16At s e.ctx (e.aux 2) ri) (s32At s e.ctx (e.aux 3) j) with
      | .error x => .error x
      | .ok o => (sumMatches s p (p.ent i) j o.2).map fun _ => o.1 * o.2
  let lam := if d.groupFn j = 5 then scLambda s e d el else .ok 0
  (both (both (scaleAt s e.ctx (e.aux 0) ri) (scaleAt s e.ctx (e.aux 1) j)) (both zc (both (scBeta s e j) lam))).map fun o =>
    let z := fp32.round (((o.1.1.mul o.1.2).mul ((a64Val v a).sub (Ex.ofInt o.2.1))).add o.2.2.1) false fun _ => 0
    let g := gateVal (d.groupFn j) o.2.2.2 z.1
    ⟨g.1, z.2.outBits ||| (if 2 ^ 62 ≤ v.natAbs then flHeadroom else 0), g.2⟩

/-- What the gate values of a block read. -/
def scReads (e : Entry) (d : Desc) (i : Nat) (q : Pass) : List (Nat × Nat) :=
  dqRanges e (zpOn e (d.b 4 48) d.scX d.scW) (q.rows.map (i * e.pkt.len + ·)) q.cols ++ arrayRanges (e.aux 6) 4 q.cols ++
    if q.cols.any fun j => decide (d.groupFn j = 5)
      then arrayRanges (e.aux 6) 4 ((q.cols.map (· / max 1 d.scGroups)).eraseDups.map (d.scGroups * d.scD + ·)) else []

/-- Chunks of an entry; a zero-length entry has none. -/
def scChunks (e : Entry) (d : Desc) : Nat := ceilDiv e.pkt.len (max 1 d.scChunk)

/-- The key of a chunk's space. -/
def chunkKey (i c : Nat) : Nat := i * 2 ^ 32 + c

/-- The core that holds an entry's slot. -/
def scCore (s : State) (e : Entry) (i : Nat) : Nat :=
  match s.reservedSlot e.ctx (e.pkt.sh + i) with
  | some x => x.core
  | none => match readSEnt s e.ctx (e.pkt.sh + i) with
    | .ok n => n.core
    | .error _ => 0

/-- The scan engine of a chunk: the slot's core, or array j mod P (R203, R204). -/
def scEngine (s : State) (e : Entry) (d : Desc) (i c : Nat) : Nat :=
  if d.scMode then e.run.arrays.getD ((i * scChunks e d + c) % max 1 e.run.arrays.length) 0 else scCore s e i

/-- Commit a block of the projection: its gate values are formed on the cores that convert it, and held for the scan engines of its
chunks along the spill path (R191, R202, R207). -/
def scCommitBlock (s : State) (e : Entry) (d : Desc) (p : Prod) (t : Tile) (pt : Partial) (a : Nat) (q : Pass) : M :=
  let i := (p.ent t.ent).e
  let nc := (p.colsOf t).length
  foldM (fun s r =>
    got s e.ctx (mapE (fun j : Nat × Nat => scGate s e d p i r.1 j.1 (pt.vals.getD ((q.r0 + r.2) * nc + q.c0 + j.2) 0)) q.cols.zipIdx)
      fun gs =>
        let core (k : Nat) : Nat := a + p.rowCore (q.r0 + r.2) + p.colCore (q.c0 + k)
        let s1 := gs.zipIdx.foldl (fun s g =>
          let s1 := (raiseArr s e.id (core g.2) g.1.fl).addF (Reg.GATE_OPS (core g.2)) 63 0 1
          if g.1.limited then raiseRecord (s1.orReg (Reg.GATE_STAT (core g.2)) 1) e.id true false else s1) s
        let s2 := s1.updEntry e.id fun x => { x with run := { x.run with
          gates := ⟨i, r.1, q.cols.headD 0, gs.map (·.val)⟩ :: x.run.gates.filter fun g =>
            !decide (g.entry = i ∧ g.pos = r.1 ∧ g.col = q.cols.headD 0) } }
        takeSpace s2 e.id e.ctx (scEngine s e d i (r.1 / max 1 d.scChunk)) .gates (chunkKey i (r.1 / max 1 d.scChunk)) (4 * gs.length))
    (touchAll s e.ctx (scReads e d i q)) q.rows.zipIdx

/-- The gate value of column j held for position t of entry i. -/
def Entry.gate (e : Entry) (i t j : Nat) : Nat :=
  match e.run.gates.find? fun g => decide (g.entry = i ∧ g.pos = t ∧ g.col ≤ j ∧ j < g.col + g.vals.length) with
  | some g => g.vals.getD (j - g.col) 0
  | none => 0

/-- The gate values of element el at position t: groups a, i, c and o, then the λ its output function uses. -/
def scGates (s : State) (e : Entry) (d : Desc) (i t el : Nat) : Except MErr (List Nat) :=
  let g (k : Nat) : Nat := e.gate i t (d.scGroups * el + k)
  (if d.scSel ≠ 0 ∧ d.scFn 3 = 5 then scLambda s e d el else .ok 0).map fun lam =>
    [g 0, if d.scForm = 2 then g 1 else 0, g (d.scG - 1), if d.scSel = 2 then g d.scG else 0, lam]

/-! ### One position (R187 to R190) -/

/-- What a run of positions has raised and counted. -/
structure ScanAcc where
  sat : Bool
  under : Bool
  guard : Bool
  satFn : Bool
  arr : Nat
  reanchors : Nat
  guards : Nat
  maxShift : Nat
  maxAbs : Nat
  lastAnchor : Option Int
  positions : Nat
  ops : Nat
  /-- Blocks its roundings drew. -/
  blocks : Nat
  deriving DecidableEq, Repr

/-- Nothing yet. -/
def ScanAcc.zero : ScanAcc := ⟨false, false, false, false, 0, 0, 0, 0, 0, none, 0, 0, 0⟩

/-- The exact right side of element el (Table 7.1). -/
def rightSide (form : Nat) (gs : List (List Nat)) (v : List Int) (a : Int) (el : Nat) : Ex :=
  let g (i k : Nat) : Ex := f32 ((gs.getD i []).getD k 0)
  let h (i : Nat) : Ex := a64Val (v.getD i 0) a
  if form = 0 then ((g el 0).mul (h el)).add (g el 2)
  else if form = 1 then ((g el 0).mul (h el)).add ((Ex.one.sub (g el 0)).mul (g el 2))
  else if form = 2 then ((g el 0).mul (h el)).add ((g el 1).mul (g el 2))
  else
    let p := el / 2 * 2
    let r := (rotation ((gs.getD p []).getD 0 0) ((gs.getD (p + 1) []).getD 0 0)).1
    let c := f32 r.1
    let sn := f32 r.2
    if el % 2 = 0 then ((c.mul (h p)).sub (sn.mul (h (p + 1)))).add (g p 2)
    else ((sn.mul (h p)).add (c.mul (h (p + 1)))).add (g (p + 1) 2)

/-- Largest magnitude of the elements. -/
def maxAbsInt (v : List Int) : Nat := v.foldl (fun m x => max m x.natAbs) 0

/-- reanchor_state (R190): the new carry and |s|. -/
def reanchor (d : Desc) (c : Carry) : Carry × Nat :=
  let m := maxAbsInt c.v
  let a : Int := if m = 0 then d.scInit
    else max (-32768) (min 32767 ((a64Val m c.a).clog2 + d.f 4 24 21))
  let sh := a - c.a
  let v := if 0 < sh then c.v.map fun x => (Ex.mk x (2 ^ sh.toNat)).nearest
    else c.v.map fun x => x * (2 ^ (-sh).toNat : Nat)
  (⟨v, a, 0, c.pos⟩, sh.natAbs)

/-- The update of one position, without its output. -/
def scanStep (d : Desc) (key : Key) (handle : Nat) (reset : Bool) (gs : List (List Nat)) (c0 : Carry) (acc : ScanAcc) :
    Carry × ScanAcc :=
  let c : Carry := if reset then ⟨List.replicate d.scD 0, d.scInit, 0, c0.pos⟩ else c0
  let xs := (List.range d.scD).map fun el =>
    let x := rightSide d.scForm gs c.v c.a el
    let q := roundGrid (x.scale (48 - c.a)) (d.b 4 43) fun _ => key.state handle c.pos el
    let lim : Int := 2 ^ 63 - 1
    let sat := decide (lim < q.natAbs)
    ((if sat then x.sign * lim else q), sat, decide (x.num ≠ 0 ∧ q = 0))
  let v := xs.map (·.1)
  let c1 : Carry := ⟨v, c.a, c.cnt + 1, c.pos + 1⟩
  let acc1 := { acc with sat := acc.sat || xs.any (·.2.1), under := acc.under || xs.any (·.2.2), positions := acc.positions + 1,
                         maxAbs := max acc.maxAbs (fp32Up (a64Val (maxAbsInt v) c.a)),
                         lastAnchor := if reset then some d.scInit else acc.lastAnchor }
  let period := decide (d.f 5 47 24 ≠ 0 ∧ c1.cnt = d.f 5 47 24)
  let guard := decide (2 ^ 61 ≤ maxAbsInt v)
  if period || guard then
    let r := reanchor d c1
    (r.1, { acc1 with reanchors := acc1.reanchors + 1, guards := acc1.guards + b2n guard, guard := acc1.guard || guard,
                      maxShift := max acc1.maxShift r.2, lastAnchor := some r.1.a })
  else (c1, acc1)

/-- The output row of a position: codes with flags (R192). -/
def scanOut (d : Desc) (key : Key) (i t : Nat) (gs : List (List Nat)) (c : Carry) : List (Nat × Nat × Bool) :=
  (List.range d.scD).map fun el =>
    let h := a64Val (c.v.getD el 0) c.a
    let rnd (x : Ex) : Nat × VFlags := roundOut x d.scFmt (d.b 4 3) fun _ => key.out i t el
    if d.scFn 3 = 0 ∧ d.scSel = 1 then let r := rnd h; (r.1, r.2.outBits, false)
    else
      let f := gateVal (d.scFn 3) ((gs.getD el []).getD 4 0) (to32 h)
      let y := if d.scSel = 2 then to32 ((f32 ((gs.getD el []).getD 3 0)).mul (f32 f.1)) else f.1
      let r := rnd (f32 y)
      (r.1, r.2.outBits, f.2)

/-! ### A run of positions -/

/-- A run: state, carry, counts. -/
structure ScanRun where
  m : M
  c : Carry
  acc : ScanAcc

/-- A rotation of a position was limited (R191, R192). -/
def rotLimited (d : Desc) (gs : List (List Nat)) : Bool :=
  decide (d.scForm = 3) && (List.range (d.scD / 2)).any fun k => (rotation ((gs.getD (2 * k) []).getD 0 0) ((gs.getD (2 * k + 1) []).getD 0 0)).2

/-- One position of entry i from its gate values: update, output (R187). C and S of COMPLEX are formed for the scan engine by its own
core's lanes (log entry 46). -/
def scanPos (e : Entry) (d : Desc) (key : Key) (i : Nat) (r : ScanRun) (t : Nat) : ScanRun :=
  if r.m.2.isSome then r
  else
    let s := r.m.1
    match both (scReset s e i t) (mapE (scGates s e d i t) (List.range d.scD)) with
    | .error x => { r with m := failing s e.ctx x }
    | .ok o =>
      let gs := o.2
      let st := scanStep d key (e.pkt.sh + i) o.1 gs r.c
        { r.acc with blocks := r.acc.blocks + (b2n (d.b 4 43) + b2n (d.b 4 3 && d.scSel ≠ 0)) * ceilDiv d.scD 4,
                     satFn := r.acc.satFn || rotLimited d gs, ops := r.acc.ops + if d.scForm = 3 then d.scD else 0 }
      if d.scSel = 0 then ⟨(s, none), st.1, st.2⟩
      else
        let o := scanOut d key i t gs st.1
        let b := outBytes d.scFmt
        ⟨writeOut s e d d.outAddr ((i * e.pkt.len + t) * d.scD * b) (o.flatMap fun x => leBytes b x.1), st.1,
          { st.2 with arr := st.2.arr ||| o.foldl (fun f x => f ||| x.2.1) 0, satFn := st.2.satFn || o.any (·.2.2),
                      ops := st.2.ops + d.scD * (if d.scSel = 2 then 2 else 1) }⟩

/-- Book what a run raised and counted on a scan engine's core (Tables 7.10 to 7.15); its largest magnitude waits for the commit. -/
def bookScan (s : State) (e : Entry) (core : Nat) (a : ScanAcc) : State :=
  let s1 := (raiseArr s e.id core a.arr).orReg (Reg.SCN_STAT core) (b2n a.sat + b2n a.under * 2 + b2n a.guard * 4)
  let s2 := raiseRecord (s1.orReg (Reg.GATE_STAT core) (b2n a.satFn)) e.id (a.sat || a.satFn) a.under
  let s3 := ((s2.addF (Reg.SCN_REANCHOR core) 63 32 a.reanchors).satF (Reg.SCN_REANCHOR core) 31 16 a.guards).maxF
    (Reg.SCN_REANCHOR core) 15 0 a.maxShift
  let s4 := tallyMax (tally s3 (telPart e.part telGuards) a.guards) (telPart e.part telMaxShift) a.maxShift
  let s5 := match a.lastAnchor with
    | some x => s4.setF (Reg.SCN_MAXABS core) 15 0 (toTwos 16 x)
    | none => s4
  ((drewBlocks (s5.addF (Reg.SCN_WORK core) 63 32 a.positions) core a.blocks).addF (Reg.GATE_OPS core) 63 0 a.ops).updEntry e.id fun x =>
    { x with run := { x.run with peaks := (core, a.maxAbs) :: x.run.peaks } }

/-- The largest magnitudes of the committed positions are counted (R207, Table 7.12). -/
def bookPeaks (s : State) (e : Entry) : State :=
  e.run.peaks.foldl (fun s x => tallyMax (s.maxF (Reg.SCN_MAXABS x.1) 63 32 x.2) (telPart e.part telMaxAbs) x.2) s

/-! ### Slots of the entries (R195, R199, R201) -/

/-- Handles a SCAN names. -/
def scHandles (e : Entry) : List Nat := (List.range e.pkt.count).map (e.pkt.sh + ·)

/-- Check the entries and, where the stage runs, take the slots they need: a root, or a stream that steps from a snapshot without a
reserved slot. An entry that names a parked stream, or finds no slot, holds the command (R195, R197, R199, R201). -/
def acquireSlots (s : State) (e : Entry) (d : Desc) (runs : Bool) : M :=
  foldM (fun s h => readingSEnt s e.ctx h fun s n =>
      if n.wh ≠ whNone ∧ n.dim ≠ d.scD then (s, some .host)
      else if n.wh = whParked then (s, some .unavail)
      else if runs ∧ (n.wh = whNone ∨ n.wh = whSnapshot) ∧ (s.reservedSlot e.ctx h).isNone ∧ d.scD ≠ 0 then
        match placeSlot s e.ctx h 2 d.scD [] [] with
        | some (s1, _, _) => (s1.updEntry e.id fun x => { x with run := { x.run with acq := h :: x.run.acq } }, none)
        | none => (s, some .unavail)
      else (s, none)) s (scHandles e)

/-- The carry an entry starts from (R199, R201). -/
def scStart (s : State) (e : Entry) (d : Desc) (i : Nat) : Except MErr Carry :=
  (readSEnt s e.ctx (e.pkt.sh + i)).map fun n =>
    if n.wh = whNone then ⟨List.replicate d.scD 0, d.scInit, 0, 0⟩
    else ⟨s.stateVals e.ctx n, n.anchor, n.since, n.pos⟩

/-- Commit an entry's state (R200, R201): into its slot, its table entry, and its snapshot reference released. -/
def scCommit (s : State) (e : Entry) (d : Desc) (i : Nat) (c : Carry) : M :=
  let h := e.pkt.sh + i
  readingSEnt s e.ctx h fun s n =>
    let old := (s.reservedSlot e.ctx h).map fun x => (x.core, x.unit)
    let place := if d.scD = 0 then (0, 0) else old.getD (n.core, n.slot)
    let s1 := if n.wh = whSnapshot then derefSnapshot s e.ctx n.core n.slot h else s
    let s2 := s1.putSlots (s1.slots.map fun x =>
      if x.ctx = e.ctx ∧ x.core = place.1 ∧ x.unit = place.2 ∧ x.handle = h then { x with kind := 0, d := d.scD, vals := c.v } else x)
    writeSEnt s2 e.ctx h ⟨c.a, d.scD, c.cnt, whResident, place.1, place.2, n.image, c.pos⟩

/-! ### Chunks and seams (R202 to R206) -/

/-- Positions of chunk c. -/
def scPositions (e : Entry) (d : Desc) (c : Nat) : List Nat :=
  (List.range (min d.scChunk (e.pkt.len - c * d.scChunk))).map (c * d.scChunk + ·)

/-- The first reset of a chunk. -/
def firstReset (s : State) (e : Entry) (d : Desc) (i c : Nat) : Except MErr (Option Nat) :=
  (mapE (fun t => (scReset s e i t).map fun b => (t, b)) (scPositions e d c)).map fun l => (l.find? (·.2)).map (·.1)

/-- The seam after a chunk, if it has reached the array that needs it. -/
def Entry.seamOf (e : Entry) (i c : Nat) : Option Carry :=
  (e.run.seams.find? fun x => decide (x.entry = i ∧ x.chunk = c) && x.arrived).map (·.carry)

/-- The incoming seam of a chunk: the stream's state for the first. -/
def scIncoming (s : State) (e : Entry) (d : Desc) (i c : Nat) : Except MErr (Option Carry) :=
  if c = 0 then (scStart s e d i).map some else .ok (e.seamOf i (c - 1))

/-- Where the seam after a chunk goes: the scan engine of the next chunk, or after the last one the core of the slot (R203, R204). -/
def seamTarget (s : State) (e : Entry) (d : Desc) (i c : Nat) : Nat :=
  if c + 1 < scChunks e d then scEngine s e d i (c + 1) else scCore s e i

/-- The seam stays on its array: in chunked mode, or where the engine's array holds its target. -/
def seamStays (s : State) (e : Entry) (d : Desc) (i c : Nat) : Bool :=
  !d.scMode || (arrayCores (gangOf s e) (scEngine s e d i c)).contains (seamTarget s e d i c)

/-- Record a sweep and its outgoing seam. -/
def noteSweep (s : State) (e : Entry) (d : Desc) (i c kind : Nat) (out : Option Carry) : State :=
  s.updEntry e.id fun x => { x with run := { x.run with
    sweeps := (i, c, kind) :: x.run.sweeps
    seams := x.run.seams ++ (match out with
      | some k => [⟨i, c, k, seamStays s e d i c⟩]
      | none => []) } }

/-- A sweep that can start: kind 1 the suffix from the chunk's first reset, kind 0 the prefix, or the whole chunk without one; its
positions, the carry it starts from, and whether its end is the outgoing seam (R203, R204). -/
structure Sweep where
  kind : Nat
  ts : List Nat
  c0 : Carry
  seam : Bool

/-- The sweep of chunk c of entry i that its seam and its gate values let start now. -/
def readySweep (s : State) (e : Entry) (d : Desc) (i c : Nat) : Except MErr (Option Sweep) :=
  (both (both (firstReset s e d i c) (scIncoming s e d i c)) (scStart s e d i)).map fun o =>
    let ts := scPositions e d c
    let ran (k : Nat) : Bool := e.run.sweeps.contains (i, c, k)
    match (if d.scMode then o.1.1 else none), o.1.2 with
    | some t0, inc =>
      if !ran 1 then
        some ⟨1, ts.filter fun t => decide (t0 ≤ t), ⟨List.replicate d.scD 0, d.scInit, 0, o.2.pos + t0⟩, true⟩
      else match inc with
        | some k => if ran 0 then none else some ⟨0, ts.filter fun t => decide (t < t0), k, false⟩
        | none => none
    | none, some k => if ran 0 then none else some ⟨0, ts, k, true⟩
    | none, none => none

/-- A chunk is wholly run. -/
def chunkDone (s : State) (e : Entry) (d : Desc) (i c : Nat) : Bool :=
  e.run.sweeps.contains (i, c, 0) && match firstReset s e d i c with
    | .ok (some _) => !d.scMode || e.run.sweeps.contains (i, c, 1)
    | _ => true

/-- The gate values of a chunk that is wholly run, and the seam it started from, give their space back (R159). -/
def releaseChunk (s : State) (id : Nat) (d : Desc) (i c : Nat) : State := match s.entry id with
  | none => s
  | some e =>
    if !chunkDone s e d i c then s
    else
      let ts := scPositions e d c
      dropSpace (dropSpace (s.updEntry id fun x => { x with run := { x.run with
        gates := x.run.gates.filter fun g => !(decide (g.entry = i) && ts.contains g.pos) } }) id .gates (chunkKey i c)) id .seam
          (chunkKey i c)

/-- The shadow of an entry is in the spill region of its slot's core, or along the spill path, from its first sweep on (R200). -/
def takeShadow (s : State) (e : Entry) (d : Desc) (i : Nat) : M :=
  if e.space.any fun x => decide (x.kind = .shadow ∧ x.key = i) then (s, none)
  else takeSpace s e.id e.ctx (scCore s e i) .shadow i (8 * d.scD)

/-- Run a sweep. -/
def runSweep (s : State) (e : Entry) (d : Desc) (key : Key) (i c : Nat) (w : Sweep) : M :=
  let s0 := if e.aux 7 = 0 then s
    else vtouch s e.ctx (e.aux 7 + i * ceilDiv e.pkt.len 8 + w.ts.headD 0 / 8) (w.ts.getLastD 0 / 8 + 1 - w.ts.headD 0 / 8)
  (takeShadow s0 e d i).next fun s =>
    let core := scEngine s e d i c
    let r := w.ts.foldl (scanPos e d key i) ⟨(s, none), w.c0, ScanAcc.zero⟩
    r.m.next fun s =>
      (releaseChunk (noteSweep (bookScan s e core r.acc) e d i c w.kind (if w.seam then some r.c else none)) e.id d i c, none)

/-- Extent of the stage's output (R195). -/
def scExtent (e : Entry) (d : Desc) : Nat := if d.scSel = 0 then 0 else e.pkt.count * e.pkt.len * d.scD * outBytes d.scFmt

end Sys2Proof.Machine
end

