-- ==== Sys2Proof/Machine/Stage.lean ====
section
/-!
DEFINITION. A stage of a compute command (R95, R137, R142, R363): its work, what its failure gives back, the arrays it runs on, what a
command takes at its admission, and how a stage starts. Its items are in Items.lean.
-/
namespace Sys2Proof.Machine

/-! ### The work of a stage -/

/-- What a started stage does: a product on the arrays, items of the awl engines, or the items of ATTN, UPDATE and RNG_FILL. -/
inductive Work where
  | prod (p : Prod)
  | awl (p : Prod) (items : List (Nat × Nat × Nat × Nat × Nat))
  | attn (gs : List AtGroup)
  | upd (items : List UpItem)
  | rng (n : Nat)

/-- The product of a MATMUL, CONV or SCAN stage. -/
def stageProd (s : State) (e : Entry) (d : Desc) : Except MErr Prod :=
  (foldOf s e d.fold).map fun f =>
    if d.op = opcMatmul then mmProd s e d f else if d.op = opcConv then cProd s e d f else scProd s e d f

/-- The work of the entry's current stage. -/
def stageWork (s : State) (e : Entry) (d : Desc) : Except MErr Work :=
  if d.op = opcAttn then (atGroups s e d).map .attn
  else if d.op = opcUpdate then .ok (.upd (upItems e.run.groups))
  else if d.op = opcRngFill then .ok (.rng (rfItems e d))
  else if d.onAwl then .ok (.awl (cProd s e d 0) (awlItems e d))
  else (stageProd s e d).map .prod

/-- W (R142). -/
def Work.count : Work → Nat
  | .prod p => p.count
  | .awl _ l => l.length
  | .attn gs => 2 * (atItems gs).length
  | .upd l => l.length
  | .rng n => n

/-- The stage has recurrences to run: not at length zero, nor without an item unless d is zero (R196). -/
def scanRuns (e : Entry) (d : Desc) (items : Nat) : Bool := decide (e.pkt.len ≠ 0 ∧ (items ≠ 0 ∨ d.scD = 0))

/-! ### Failure -/

/-- Slots this stage took and did not commit are free again (R200). -/
def dropAcquired (s : State) (e : Entry) : State := e.run.acq.foldl (fun s h => dropReserved s e.ctx h) s

/-- A stage meets an error: the slots and pages it took are given back, and the command fails with the stage named (R96); what it has
committed stands (R269, R291). -/
def stageFail (s : State) (e : Entry) (m : MErr) : State :=
  releaseReserved (failEntry (dropAcquired s ((s.entry e.id).getD e)) e.id (some e.stage) m) e.id

/-- The outcome of a stage act on an entry. Memory that is unavailable holds the command, and memory being cleared makes it wait, with
nothing of the act done (R289, R450). -/
def stageAct (s : State) (e : Entry) (m : M) : State := match m with
  | (s1, none) => s1
  | (_, some .wait) => s
  | (_, some .unavail) => holdEntry s e.id
  | (s1, some x) => stageFail s1 e x

/-- Change the run of an entry. -/
def updRun (s : State) (id : Nat) (f : StageRun → StageRun) : State := s.updEntry id fun e => { e with run := f e.run }

/-! ### Arrays of a stage (R363, R376) -/

/-- The class code of a command. -/
def Entry.cls (e : Entry) : Nat := if e.lc then 0 else 1

/-- Arrays of the core set that are available, whoever they are granted to. -/
def State.availArrays (s : State) (e : Entry) : List Nat := (s.ctxArrays e.ctx).filter fun a => s.arrayOk e.part a

/-- Awl engine i can run (R248). -/
def State.awlOk (s : State) (i : Nat) : Bool :=
  decide (i < 4) && s.domReady 25 && !(s.reg Reg.AWL_STAT).toNat.testBit (4 + i)

/-- The units a stage runs on: awl engines as 64 to 67, or the granted arrays of the core set. -/
def State.stageArrays (s : State) (e : Entry) (d : Desc) : List Nat :=
  if d.onAwl then ((List.range 4).filter s.awlOk).map (64 + ·) else s.grantedArrays e.ctx e.cls

/-- The units that could ever serve the stage. -/
def State.stageUnits (s : State) (e : Entry) (d : Desc) : List Nat :=
  if d.onAwl then ((List.range 4).filter s.awlOk).map (64 + ·) else s.availArrays e

/-- The stage does nothing but complete, so that it needs no unit: W is zero, and no row of ATTN waits for its value (R142, R196, R227). -/
def stageEmpty (s : State) (e : Entry) (d : Desc) : Bool :=
  if d.op = opcAttn then decide (atLive e d = [])
  else match stageWork s e d with
    | .ok w => decide (w.count = 0)
    | .error _ => false

/-! ### The order of streams (R100, R101, R214, R257) -/

/-- The state handles a compute command names: those of its SCAN entries, or the header's (R257). -/
def drawHandles (e : Entry) : List Nat :=
  let scan := (List.range e.pkt.stages).any fun i => decide ((e.descAt i).op = opcScan)
  if e.pkt.sh = 0 then [] else if scan then scHandles e else [e.pkt.sh]

/-- The pointer list of a stage (Table 5.3): its address, zero for none, and its entries. -/
def ptrsVa (d : Desc) : Nat := if d.op = opcMatmul then d.mmList else if d.op = opcAttn then d.atList else 0
@[inherit_doc ptrsVa] def readPtrs (s : State) (e : Entry) (d : Desc) : Except MErr (List PtrEntry) :=
  if ptrsVa d = 0 then .ok []
  else mapE (fun i => (vwords s e.ctx (ptrsVa d + 32 * i) 4).map fun w =>
    ⟨w.getD 0 0, w.getD 1 0, w.getD 2 0, bits (w.getD 3 0) 63 39, (w.getD 3 0).testBit 38⟩) (List.range e.pkt.count)

/-- The lists of keys and values a command names: the header's, and those of its ATTN stages' pointer lists (R214, R224). -/
def kvHandles (s : State) (e : Entry) : List Nat :=
  (e.pkt.kh :: (List.range e.pkt.stages).flatMap fun i =>
    if (e.descAt i).op = opcAttn ∧ (e.descAt i).atList ≠ 0 then
      (match readPtrs s e (e.descAt i) with
        | .ok l => l.map fun p => p.w / 2 ^ 32
        | .error _ => [])
    else []).filter fun h => decide (h ≠ 0)

/-- Two commands name one state or one list. -/
def shareStream (s : State) (e x : Entry) : Bool :=
  (drawHandles e).any (drawHandles x).contains || (kvHandles s e).any (kvHandles s x).contains

/-- An earlier command of the ring names the same state or list and has not completed (R100, R214). -/
def State.streamWait (s : State) (e : Entry) : Bool :=
  (s.ringFlight e.ring).any fun x => decide (x.id < e.id) && !x.done && shareStream s e x

/-- A command of another ring of the context that has not completed names one of the same states or lists: a host error (R101, R214). -/
def State.handleClash (s : State) (e : Entry) : Bool :=
  (s.ctxFlight e.ctx).any fun x => decide (x.ring ≠ e.ring) && !x.done && shareStream s e x

/-! ### What a stage checks and fixes at its start (R95, R124, R127, R135, R137) -/

/-- The auxiliary block of a stage: its address, zero for none, and its 8 words. -/
def auxVa (d : Desc) : Nat :=
  if d.op = opcMatmul then d.mmAux else if d.op = opcConv then d.cAux else if d.op = opcScan then d.f 7 63 0 else 0
@[inherit_doc auxVa] def readAux (s : State) (e : Entry) (d : Desc) : Except MErr (List Word) :=
  if auxVa d = 0 then .ok [] else (vread s e.ctx (auxVa d) 64).map fun bs => (List.range 8).map (wordAt bs)

/-- An MX operand of a product has no scale plane (R136). -/
def mxBare (e : Entry) (x w : Nat) : Bool := (isMx x && decide (e.aux 4 = 0)) || (isMx w && decide (e.aux 5 = 0))

/-- The stage's descriptor is a host error (R88, R132, R136, R142, R197, R225, R239, R262, R263). -/
def descBad (s : State) (e : Entry) (d : Desc) : Bool :=
  if d.op = opcMatmul then mmBad d || mxBare e d.mmX d.mmW || decide (d.mmAccum ∧ d.mmOut = 6 ∧ d.outDst = 0 ∧ d.f 4 26 25 ≠ 0)
  else if d.op = opcConv then cBad d || (!d.onAwl && !d.cEmpty && d.cShort) || mxBare e d.cX (if d.cPool then 0 else d.cW)
  else if d.op = opcScan then scBad s e d || mxBare e d.scX d.scW
  else if d.op = opcAttn then atBad e d
  else if d.op = opcUpdate then upBad e d
  else if d.op = opcRngFill then rfBad d
  else true

/-- Extent of the stage's output where it is handed over or returned (R95). -/
def stageExtent (s : State) (e : Entry) (d : Desc) : Nat :=
  if d.outDst = 0 then 0
  else if d.op = opcMatmul then mmExtent e d
  else if d.op = opcConv then cExtent e d
  else if d.op = opcScan then scExtent e d
  else if d.op = opcAttn then atExtent s e d
  else if d.op = opcRngFill then rfExtent e d
  else 0

/-- The anchors of the stage (R124 to R127, R243). A stage without an item has no pre-pass: its anchors are the descriptor's, or zero
(R142; log entry 84). -/
def stageAnchors (s : State) (e : Entry) (d : Desc) (w : Work) : Except MErr (List Int) := match w with
  | .prod p | .awl p _ =>
    if w.count = 0 then .ok (List.replicate e.pkt.count (if p.policy = 0 then p.anchor else 0))
    else mapE (fun i => if d.op = opcConv ∧ d.cPool then poolAnchor s e d p i else p.anchorOf s i) (List.range e.pkt.count)
  | _ => .ok []

/-- The bytes their pre-pass reads. -/
def stageReads (s : State) (e : Entry) (d : Desc) (w : Work) : List (Nat × Nat) := match w with
  | .prod p | .awl p _ =>
    if w.count = 0 then []
    else (List.range e.pkt.count).flatMap fun i => if d.op = opcConv ∧ d.cPool then poolReads e d p i else p.anchorReads s i
  | _ => []

/-- Whether the stage writes statistics records, and where (R132, R135). -/
def statsAddr (e : Entry) (d : Desc) : Nat :=
  if d.op = opcMatmul ∧ (d.mmStats ∨ d.mmOut = 6) then e.aux 6
  else if d.op = opcConv ∧ d.b 7 54 then e.aux 6
  else 0

/-- What only one kind of stage checks or takes at its start: the slots of SCAN, the planes of ATTN and lap 1 of its ring, the records of
UPDATE. -/
def stageTake (s : State) (e : Entry) (d : Desc) : M :=
  if d.op = opcScan then
    (match stageProd s e d with
      | .error x => failing s e.ctx x
      | .ok p => acquireSlots s e d (scanRuns e d p.count))
  else if d.op = opcAttn then
    if !s.domReady 24 then (s, some .unavail)
    else (atOpen s e d).next fun s =>
      if d.atRing = 0 ∨ atLive e d = [] then (s, none)
      else
        let s1 := s.putKv { s.kv with dead := s.kv.dead.filter fun k => decide (k ≠ d.atSeq) }
        (sendLap s1 e d 1).next fun s =>
          foldM (fun s b => waitBlock (forwardBlock s d b) ((s.entry e.id).getD e) b) s (s.ringBlocks d.atSeq)
  else if d.op = opcUpdate then upTake s e d
  else (s, none)

/-! ### The random numbers of a stage (R255, R256, R273) -/

/-- The subkeys a stage derives: one for each stream, operation and step that it draws words of (Table 10.2). -/
def subkeys (e : Entry) (d : Desc) : Nat :=
  if d.op = opcMatmul then b2n (d.b 4 20) + b2n (d.b 4 19 && decide (d.mmOut ≠ 6))
  else if d.op = opcConv then b2n (d.b 7 57 && decide (d.cOp ≠ 1)) + b2n (d.b 7 56 && !d.cArgmax)
  else if d.op = opcScan then
    b2n (d.b 4 49) + b2n (d.b 4 3 && decide (d.scSel ≠ 0)) + if d.b 4 43 then e.pkt.count * e.pkt.len else 0
  else if d.op = opcAttn then b2n (d.b 4 1)
  else if d.op = opcUpdate then (e.run.groups.filter fun g => g.stoch && decide (g.size ≠ 0 ∧ g.eta % 2 ^ 31 ≠ 0)).length
  else if d.op = opcRngFill then b2n d.rfDraws
  else 0

/-- Count the subkeys on every core that the stage runs on (Table 10.10). -/
def bookSubkeys (s : State) (e : Entry) (d : Desc) (arrays : List Nat) : State :=
  (arrays.filter fun a => decide (a < 64)).foldl (fun s a => (arrayCores (gangOf s e) a).foldl
    (fun s c => s.addF (Reg.RNG_WAIT c) 63 32 (subkeys e d)) s) s

/-! ### Beginning -/

/-- Bits of the completion bitmap: one for each block, and one for each item where items are added (R154). -/
def Prod.bitmapBits (p : Prod) : Nat := p.tiles.length * p.passCount + if 1 < p.slices then p.count else 0

/-- The completion bitmap of the stage takes its place in the spill area (R154; log entry 89). -/
def placeBitmap (s : State) (e : Entry) (arrays : List Nat) (w : Work) : State := match w with
  | .prod p => if p.count = 0 then s
    else addSpace s e.id ⟨arrays.headD 0, .area, .bitmap, e.stage, roundUp (ceilDiv p.bitmapBits 8) 64⟩
  | _ => s

/-- Fix the arrays, W, the anchors, the bitmap and the statistics, and begin (R95, R127, R154, R363). -/
def stageBegin (s : State) (e : Entry) (d : Desc) (arrays : List Nat) : M :=
  got s e.ctx (stageWork s e d) fun w =>
    let ext := stageExtent s e d
    if 16777216 < w.count ∨ (d.outDst = 2 ∧ 262144 < e.ret.length + ext) then (s, some .host)
    else
      let s1 := touchAll s e.ctx (stageReads s e d w)
      got s1 e.ctx (stageAnchors s1 e d w) fun an =>
        let s2 := if d.op = opcConv ∧ d.cEngine ∧ !d.awlFits then s1.addF Reg.AWL_WORK 31 0 1 else s1
        let s3 := updRun (bookSubkeys (placeBitmap s2 e arrays w) e d arrays) e.id fun r => { r with
          started := true, startTick := s.tickNum, arrays := arrays, items := w.count, anchors := an
          commits := match w with
            | .prod p => p.skipped
            | _ => []
          stats := if statsAddr e d = 0 then [] else List.replicate e.pkt.count StatAcc.zero
          outBuf := zeros ext }
        (s3.updEntry e.id fun x => { x with held := none, begun := true }, none)

/-! ### What a command takes at its admission (R219, R257, R450) -/

/-- Pool pages the appending ATTN stages of a command need, from stage `from` on. -/
def reserveNeed (s : State) (e : Entry) (first : Nat) : Except MErr Nat :=
  (mapE (fun i =>
    let d := e.descAt i
    if i < first ∨ d.op ≠ opcAttn ∨ !d.atAppend then .ok 0
    else match readPtrs s e d with
      | .error x => .error x
      | .ok ps => atReserve s { e with run := { e.run with ptrs := ps } } d) (List.range e.pkt.stages)).map fun l =>
        l.foldl (· + ·) 0

/-- Take the pages of a command's reservation from the head of its context's free list (R211, R219). -/
def takeReserve (s : State) (e : Entry) : M :=
  got s e.ctx (reserveNeed s e e.stage) fun n =>
    let p := s.pool e.ctx
    if p.2.length < n then (s, some .unavail)
    else
      let s1 := if n = 0 then s else (s.setPool e.ctx (p.1, p.2.drop n)).setReserved e.id e.ctx (p.2.take n)
      (s1.updEntry e.id fun x => { x with paged := true, held := none }, none)

/-- Read seed and step0 (R257), and reserve the pages, where that has not been done. -/
def admitTake (s : State) (e : Entry) : M :=
  let m : M := if e.seeded then (s, none)
    else reading s e.ctx (s.keyVa e.ctx 0) 16 (readSeed s e.ctx) fun s k =>
      (s.updEntry e.id fun x => { x with seed := k.1, step0 := k.2, seeded := true }, none)
  m.next fun s => if e.paged then (s, none) else takeReserve s e

/-- A command waits for pool pages (KV_STAT.POOL_WAIT). -/
def State.poolWait (s : State) : Bool :=
  s.flight.any fun e => e.held.isSome && !e.done && !e.begun && isCompute e.pkt.op && !e.paged &&
    (match reserveNeed s e e.stage with
      | .ok n => decide ((s.pool e.ctx).2.length < n)
      | .error _ => false)

/-! ### Starting a stage -/

/-- The stage with its auxiliary block and pointer list read; the bytes they take are accounted. -/
def loadStage (s : State) (e : Entry) (d : Desc) (f : State → Entry → M) : M :=
  let s0 := touchAll s e.ctx ((if auxVa d = 0 then [] else [(auxVa d, 64)]) ++ if ptrsVa d = 0 then [] else [(ptrsVa d, 32 * e.pkt.count)])
  got s0 e.ctx (both (readAux s e d) (readPtrs s e d)) fun o =>
    f (updRun s0 e.id fun r => { r with aux := o.1, ptrs := o.2 }) { e with run := { e.run with aux := o.1, ptrs := o.2 } }

/-- Check the stage, take what it needs and begin it on its units; one that does nothing needs none (R24, R88, R142, R363, R376). -/
def openStage (s : State) (e : Entry) : M :=
  let d := e.desc
  loadStage s e d fun s e =>
    if descBad s e d ∨ s.handleClash e then (s, some .host)
    else
      let empty := decide (d.op ≠ opcUpdate) && stageEmpty s e d
      if !empty ∧ s.stageUnits e d = [] then (s, some .unavail)
      else if !empty ∧ s.stageArrays e d = [] then (s, some .wait)
      else (stageTake s e d).next fun s => (stageBegin s ((s.entry e.id).getD e) d (s.stageArrays e d)).next fun s =>
        if d.op = opcAttn then ringProgress s ((s.entry e.id).getD e) d else (s, none)

/-- Start the current stage of an entry; a halo packet of the stage before that failed fails it (R164). -/
def beginStage (s : State) (e : Entry) : State :=
  if e.run.welt.any fun p => decide (4 ≤ p.fails) then
    releaseReserved (complete s e.id { status := 3, stage := some e.stage }) e.id
  else if e.run.welt ≠ [] then s
  else if e.pkt.payload.length < 64 * e.pkt.stages then stageFail s e .host
  else stageAct s e (openStage s e)

/-- Start the current stage; a command that could not take what it needs at its admission takes it first (R219, R257, R450). -/
def startStage (s : State) (e : Entry) : State := match admitTake s e with
  | (s1, none) => match s1.entry e.id with
    | some e1 => beginStage s1 e1
    | none => s1
  | (s1, some x) => failEntry (if x = .unavail ∨ x = .wait then s else s1) e.id none x

end Sys2Proof.Machine
end

