-- ==== Sys2Proof/Machine/Feed.lean ====
section
/-!
DEFINITION. Feeding the arrays (06_feeding_and_loupe.md R167 to R176, R181, R185): what an item reads on the cores of the west and north
edges, the weights that cores retain from one stage to the next, and prefetch.
-/
namespace Sys2Proof.Machine

/-! ### What a core holds -/

/-- RETAIN_MAX in force on a core, in bytes. -/
def State.retainMax (s : State) (core : Nat) : Nat := min 12 (s.effF (Reg.LPE_CFG core) 3 0) * 65536

/-- Ranges a core holds, most recently used first. -/
def State.retainedOf (s : State) (core : Nat) : List Retained := s.retained.filter fun r => decide (r.core = core)

/-- One range holds every byte of another of the same context and coding. -/
def Retained.covers (r x : Retained) : Bool :=
  decide (r.core = x.core ∧ r.ctx = x.ctx ∧ r.fmt = x.fmt ∧ r.packed = x.packed ∧ r.va ≤ x.va ∧ x.va + x.len ≤ r.va + r.len)

/-- Keep the most recent ranges that fit in 16 and in the limit. -/
def fitRetained (lim : Nat) : Nat → Nat → List Retained → List Retained
  | _, _, [] => []
  | n, used, r :: rs => if 16 ≤ n ∨ lim < used + r.len then [] else r :: fitRetained lim (n + 1) (used + r.len) rs

/-- The bytes were fetched ahead for the item that the array holds (R172). -/
def State.fetchedAhead (s : State) (e : Entry) (a : Nat) (r : Nat × Nat) : Bool :=
  s.prefetched.any fun x => x.used && decide (x.array = a ∧ x.id = e.id ∧ x.stage = e.stage ∧ x.va ≤ r.1 ∧ r.1 + r.2 ≤ x.va + x.len)

/-- Account a read of ranges for an array, but for what was fetched ahead, whose read has been accounted. -/
def touchFresh (s : State) (e : Entry) (a : Nat) (rs : List (Nat × Nat)) : State :=
  touchAll s e.ctx (rs.filter fun r => !s.fetchedAhead e a r)

/-! ### What an item reads (R158, R168, R170, R181, R185) -/

/-- The w address a product's entry reads. -/
def prodW (e : Entry) (d : Desc) (en : PEnt) : Nat :=
  if d.op = opcMatmul then (mmAddr e d en.e).w else if d.op = opcConv then d.cWAddr else d.f 6 63 0

/-- Blocks that a core's loupe decodes for columns and a span of k, and the cycles their escapes take beyond 16 (R181, Table 6.12). -/
def decodeCount (s : State) (e : Entry) (p : Prod) (w : Nat) (cols : List Nat) (k0 n : Nat) : Nat × Nat :=
  if !w.testBit 63 ∨ loupeRows p.wf = 0 then (0, 0)
  else match readLoupe s e.ctx (bits w 51 0) with
    | .error _ => (0, 0)
    | .ok l =>
      let bs := loupeBlocks p.wf l cols k0 n
      (bs.length, bs.foldl (fun n b => match loupeBlock s e.ctx l b with
        | .ok x => n + x.1.foldl (fun m v => m + escCycles p.wf v) 0
        | .error _ => n) 0)

/-- A core of the north edge feeds weights: from a range it retains, or from memory (R168, R170). -/
def feedRange (e : Entry) (p : Prod) (packed : Bool) (a core : Nat) (s : State) (r : Nat × Nat) : State :=
  let x : Retained := ⟨core, e.ctx, r.1, r.2, p.wf, packed⟩
  let hit := (s.retainedOf core).any fun y => y.covers x
  updRun (if hit then s else touchFresh s e a [r]) e.id fun u => { u with feeds := ⟨core, r.1, r.2, p.wf, packed, hit⟩ :: u.feeds }

/-- It feeds its columns of a pass: scales and headers, blocks decoded, and the weights. -/
def feedCols (s : State) (e : Entry) (d : Desc) (p : Prod) (en : PEnt) (a core : Nat) (cols : List Nat) (k0 n : Nat) : State :=
  let wc := cols.map (en.col + ·)
  let dc := decodeCount s e p (prodW e d en) (if d.op = opcConv then wc else cols) k0 n
  let s1 := touchFresh s e a (p.wAux s en cols k0 n)
  let s2 := if dc.1 = 0 then s1 else (s1.addF (Reg.LPE_DECODE core) 63 32 dc.1).addF (Reg.LPE_DECODE core) 31 0 dc.2
  (p.wAt s2 en cols k0 n).foldl (feedRange e p (p.packed en) a core) s2

/-- The operands of rows and columns over a span of k: x on the west edge, w on the cores of the north edge (R168). A pooling stage has no
weights. -/
def feedPass (s : State) (e : Entry) (d : Desc) (p : Prod) (en : PEnt) (a : Nat) (rows : List Nat) (c0 : Nat) (cols : List Nat)
    (k0 n : Nat) : State :=
  let s1 := touchFresh s e a (p.xAt s en rows k0 n)
  if d.op = opcConv ∧ d.cPool then s1
  else (List.range 2).foldl (fun s k =>
    let mine := (cols.zipIdx.filter fun c => decide (p.colCore (c0 + c.2) = k)).map (·.1)
    if mine = [] then s else feedCols s e d p en a (a + k) mine k0 n) s1

/-- An item's reads: pass by pass, or each operand chunk once in a k-outer walk (R158). -/
def feedItem (s : State) (e : Entry) (d : Desc) (p : Prod) (t : Tile) (sl a : Nat) (todo : List Pass) : State :=
  let en := p.ent t.ent
  let k := p.slice sl
  if p.kOuter then feedPass s e d p en a (p.rowsOf t) 0 (p.colsOf t) k.1 k.2
  else todo.foldl (fun s q => feedPass s e d p en a q.rows q.c0 q.cols k.1 k.2) s

/-! ### Retained weights (R170, R176) -/

/-- Ranges by address, those that meet or overlap joined. -/
def mergeRanges (l : List (Nat × Nat)) : List (Nat × Nat) :=
  ((sortBy (fun x y => decide (x.1 ≤ y.1)) l).foldl (fun acc r => match acc with
    | [] => [r]
    | q :: qs => if r.1 ≤ q.1 + q.2 then (q.1, max (q.1 + q.2) (r.1 + r.2) - q.1) :: qs else r :: q :: qs) []).reverse

/-- The ranges a core fed in a stage, each once. -/
def feedRanges (ctx : Nat) (fs : List Feed) : List Retained :=
  ((fs.map fun f => (f.core, f.fmt, f.packed)).eraseDups).flatMap fun g =>
    (mergeRanges ((fs.filter fun f => decide (f.core = g.1 ∧ f.packed = g.2.2)).map fun f => (f.va, f.len))).map fun r =>
      ⟨g.1, ctx, r.1, r.2, g.2.1, g.2.2⟩

/-- A core retains the weights it fed for the stage, if together they fit: the ranges it held of them move to the front, and the least
recently used make way. A core that fetched none of its weights counts a hit (R170, Table 6.11). -/
def retainCore (s : State) (ctx core : Nat) (fs : List Feed) : State :=
  let old := s.retainedOf core
  let new := ((feedRanges ctx fs).map fun r => (old.find? fun o => o.covers r).getD r).eraseDups
  let keep := if s.retainMax core < new.foldl (fun n r => n + r.len) 0 ∨ 16 < new.length then old
    else fitRetained (s.retainMax core) 0 0 (new ++ old.filter fun o => !new.contains o)
  let s1 := s.putRetained (keep ++ s.retained.filter fun r => decide (r.core ≠ core))
  if fs.all (·.hit) then s1.addF (Reg.LPE_RETAIN core) 63 32 1 else s1

/-- The cores of a completed stage retain its weights, outside SAFE (R170, R176). -/
def retainStage (s : State) (e : Entry) : State :=
  if s.devState = stSafe then s
  else (dedup (e.run.feeds.map (·.core))).foldl (fun s c => retainCore s e.ctx c (e.run.feeds.filter fun f => decide (f.core = c))) s

/-! ### Prefetch (R172 to R174) -/

/-- The stage whose operands the data mover fetches ahead: the current one before it starts, else the one after. -/
def prefetchStage (e : Entry) : Nat := if e.run.started then e.stage + 1 else e.stage

/-- The item an array is expected to claim first of a stage: item q of array q, or the first of its cell (R172). -/
def expectedItem (s : State) (e : Entry) (st a : Nat) : Nat :=
  let d := e.descAt st
  let arrays := s.grantedArrays e.ctx e.cls
  let q := arrays.findIdx fun x => decide (x = a)
  match readPtrs s e d with
  | .error _ => q
  | .ok ps => match stageProd s { e with run := { e.run with ptrs := ps } } d with
    | .ok p =>
      if p.order = 3 then (List.range p.count).find? (fun i =>
        decide (p.cellOf arrays.length (p.tiles.getD (p.itemTile i) ⟨0, 0, 0⟩) = q)) |>.getD 0 else q
    | .error _ => q

/-- The weights and moments that an UPDATE writes (R270). -/
def groupWrites (s : State) (c : Nat) (g : GroupRun) : List (Nat × Nat) :=
  [(g.m, 4 * g.size), (g.v, 4 * g.size)] ++
    if g.loupe then (match readLoupe s c (bits g.w 51 0) with
      | .ok l => [(l.header, 64 * upBlocks g), (l.payload, 4096 * upBlocks g)]
      | .error _ => [])
    else [(g.w, g.size * wBytes g.wFmt)]

/-- The memory that a stage writes: the output of each entry, and what UPDATE writes in place (R173). -/
def stageWrites (s : State) (e : Entry) (i : Nat) : List (Nat × Nat) :=
  let d := e.descAt i
  if d.op = opcUpdate then
    ((List.range e.pkt.count).flatMap fun g => match readGroup s e d g with
      | .ok r => groupWrites s e.ctx r
      | .error _ => [])
  else if d.outDst ≠ 0 then []
  else match (if ptrsVa d = 0 then .error MErr.host else readPtrs s e d) with
    | .ok ps => ps.map fun p => (p.y, if d.op = opcMatmul then d.mmM * d.mmYs else atExtent s { e with run := { e.run with ptrs := ps } } d)
    | .error _ => [(d.outAddr, if d.op = opcMatmul then mmExtent e d else if d.op = opcConv then cExtent e d
        else if d.op = opcScan then scExtent e d else if d.op = opcAttn then atExtent s e d else rfExtent e d)]

/-- Weights fetched ahead would overlap what an earlier stage of the command, not yet complete, writes (R173). -/
def prefetchBarred (s : State) (e : Entry) (va len : Nat) : Bool :=
  ((List.range e.pkt.stages).filter fun i => decide (e.stage ≤ i ∧ i < prefetchStage e)).any fun i =>
    (stageWrites s e i).any fun r => overlaps r.1 r.2 va len

/-- PREFETCH: in RUN, for an admitted command; the bytes are read, their errors logged, and nothing else changes (R172 to R175). -/
def execPrefetch (id array va len fmt : Nat) (s : State) : Out State :=
  .next (match s.entry id with
    | none => s
    | some e =>
      if s.devState ≠ stRun ∨ e.done ∨ !s.partOn e.part ∨ !isCompute e.pkt.op ∨ 12 ≤ fmt ∨ e.pkt.stages ≤ prefetchStage e ∨
          !(s.grantedArrays e.ctx e.cls).contains array ∨ prefetchBarred s e va len then s
      else
        let s1 := vtouch s e.ctx va len
        let rest := s1.prefetched.filter fun x => x.used || decide (x.array ≠ array)
        s1.putPrefetched (⟨array, id, prefetchStage e, expectedItem s e (prefetchStage e) array, va, len, false⟩ :: rest))

/-- What a claim does to the bytes fetched ahead on the array: a different item discards them, and each core of the array's north edge
counts a miss (R168, R172). -/
def usePrefetch (s : State) (e : Entry) (a i : Nat) : State :=
  match s.prefetched.find? fun x => decide (x.array = a) && !x.used with
  | none => s
  | some x =>
    let rest := s.prefetched.filter fun y => decide (y.array ≠ a)
    if x.id = e.id ∧ x.stage = e.stage ∧ x.item = i then s.putPrefetched ({ x with used := true } :: rest)
    else ((arrayCores (gangOf s e) a).take 2).foldl (fun s c => s.addF (Reg.LPE_FILL c) 31 0 1) (s.putPrefetched rest)

/-- The bytes fetched ahead on an array are gone (R174). -/
def dropPrefetched (s : State) (a : Nat) : State := s.putPrefetched (s.prefetched.filter fun x => decide (x.array ≠ a))

end Sys2Proof.Machine
end

