-- ==== Sys2Proof/Machine/Welt.lean ====
section
/-!
DEFINITION. The welt exchange (R161 to R165) and the seams of a scan that change array (R205): packets, their credits, their checks, and
the halos built again after a restore.
-/
namespace Sys2Proof.Machine

/-! ### Packets (R162, Table 5.7) -/

/-- A packet as it travels: its 32-byte header, the CRC over words 0 to 2 and the payload, and the payload. The in-flight entry is the
model's number of the command modulo 16,384 (log entry 90). -/
def weltBytes (id stage edge tile row col : Nat) (data : List Byte) : List Byte :=
  let h := leBytes 8 (id % 16384 * 2 ^ 50 + stage % 16 * 2 ^ 46 + edge % 8 * 2 ^ 43 + data.length) ++
    leBytes 8 (tile % 2 ^ 32 * 2 ^ 32) ++ leBytes 8 (row % 2 ^ 32 * 2 ^ 32 + col % 2 ^ 32)
  h ++ leBytes 8 (crc32 (h ++ data) * 2 ^ 32) ++ data

/-- Payload bytes of a packet. -/
def WeltPacket.length (p : WeltPacket) : Nat := p.bytes.length - 32

/-- The direction a packet travels in on this hop: 0 N, 1 E, 2 S, 3 W; a corner goes east or west first. -/
def WeltPacket.dir (p : WeltPacket) : Nat :=
  if p.edge < 4 then p.edge
  else if p.dst ≠ p.final then (if p.edge = 4 ∨ p.edge = 5 then 1 else 3)
  else if p.edge = 4 ∨ p.edge = 7 then 0 else 2

/-- A receiver has a free buffer for a direction, of its eight (R163). -/
def State.hasCredit (s : State) (dst dir : Nat) : Bool :=
  decide (((s.flight.flatMap fun e => e.run.welt.filter fun q => q.sent && decide (q.dst = dst ∧ q.dir = dir ∧ q.fails < 4))).length < 8)

/-- Send one waiting packet if it has a credit: SEQ_WELT.SENT counts it on its sender. -/
def sendOne (s : State) (x : Nat × WeltPacket) : State :=
  if !s.hasCredit x.2.dst x.2.dir then s
  else updRun (s.addF (Reg.SEQ_WELT x.2.src) 63 32 1) x.1 fun r => { r with
    welt := r.welt.map fun q => if q.seq = x.2.seq then { q with sent := true } else q }

/-- Send every waiting packet that has a credit, oldest first. -/
def pumpWelt (s : State) : State :=
  (s.flight.flatMap fun e => (e.run.welt.filter fun p => !p.sent).map fun p => (e.id, p)).foldl sendOne s

/-- Queue packets of a command, numbered, and send what has credits. -/
def sendWelt (s : State) (id : Nat) (ps : List WeltPacket) : State :=
  if ps = [] then s
  else pumpWelt (ps.foldl (fun s p => updRun s id fun r => { r with
    welt := r.welt ++ [{ p with seq := r.welt.foldl (fun m q => max m (q.seq + 1)) 0, sent := false, fails := 0 }] }) s)

/-! ### Halos (R161, R162) -/

/-- The eight neighbours of a tile in the order of Table 5.7: N, E, S, W, NE, SE, SW, NW. -/
def edgeSteps : List (Int × Int) := [(-1, 0), (0, 1), (1, 0), (0, -1), (-1, 1), (1, 1), (1, -1), (-1, -1)]

/-- The first, last or all elements of a list, by a direction. -/
def edgeCut (l : List Nat) (dir : Int) (h : Nat) : List Nat :=
  if dir < 0 then l.take h else if dir = 0 then l else l.drop (l.length - h)

/-- Offset of one output in a stage's hand-over data. -/
def outOffset (d : Desc) (en : PEnt) (row col : Nat) : Nat :=
  if d.op = opcConv then
    let o := d.cPos row
    en.e * d.cOutSize + layoutOff d.cLayout o.1 o.2.1 o.2.2 d.cd.o d.ch.o d.cw.o (en.col + col) d.cOut * outBytes d.cFmt
  else (en.e * d.mmM + row) * d.mmYs + col * outBytes d.mmOut

/-- Bytes of one output of a stage. -/
def outWidth (d : Desc) : Nat := if d.op = opcConv then outBytes d.cFmt else outBytes d.mmOut

/-- Halo width the next stage asks for; zero without a grid-order stage on the arrays that takes this one's output, and after a stage of
the awl engines (R161, R247). -/
def nextHalo (e : Entry) (st : Nat) : Nat :=
  let n := e.descAt (st + 1)
  if st + 1 < e.pkt.stages ∧ n.op = opcConv ∧ n.inSrc = 1 ∧ n.f 5 13 12 = 3 ∧ !n.onAwl ∧ !(e.descAt st).onAwl ∧
      (e.descAt st).op ≠ opcScan then n.cHalo else 0

/-- The packets of one edge of a block: payload of at most 4,096 bytes each (R162). -/
def edgePackets (e : Entry) (st : Nat) (buf : List Byte) (en : PEnt) (ti edge src dst final : Nat) (rows cols : List Nat) :
    List WeltPacket :=
  let d := e.descAt st
  let cells := rows.flatMap fun r => cols.map fun c => (r, c)
  let per := 4096 / max 1 (outWidth d)
  (List.range (ceilDiv cells.length per)).map fun k =>
    let part := (cells.drop (k * per)).take per
    let at0 := part.headD (0, 0)
    ⟨src, dst, final, 0, st, edge, ti, at0.1, at0.2,
      weltBytes e.id st edge ti at0.1 at0.2 (part.flatMap fun rc => (buf.drop (outOffset d en rc.1 rc.2)).take (outWidth d)), 0, false⟩

/-- The halo packets of block q of tile ti of a product of stage st: from the tile's home to the cells that the next stage's grid gives
the neighbouring tiles, a corner through the east or west neighbour (R144, R161, R162; DEDUCED, log entry 13). -/
def blockPackets (e : Entry) (st : Nat) (buf : List Byte) (p : Prod) (ti : Nat) (q : Pass) : List WeltPacket :=
  let arrays := e.run.arrays
  let h := nextHalo e st
  let t := p.tiles.getD ti ⟨0, 0, 0⟩
  let grid : Prod := { p with ctl := (e.descAt (st + 1)).f 5 13 0 }
  let at_ (r c : Int) : Nat := arrays.getD (grid.cellOf arrays.length ⟨t.ent, r.toNat, c.toNat⟩) 0
  let src := arrays.getD (p.home arrays.length ti) 0
  if h = 0 ∨ arrays = [] then []
  else edgeSteps.zipIdx.flatMap fun x =>
    let r : Int := t.tr + x.1.1
    let c : Int := t.tc + x.1.2
    if r < 0 ∨ c < 0 ∨ (p.trs t.ent : Int) ≤ r ∨ (p.tcs : Int) ≤ c then []
    else
      let dst := at_ r c
      let via := at_ t.tr c
      if src = dst then []
      else edgePackets e st buf (p.ent t.ent) ti x.2 src (if x.2 < 4 ∨ via = src then dst else via) dst
        ((edgeCut (p.rowsOf t) x.1.1 h).filter q.rows.contains) ((edgeCut (p.colsOf t) x.1.2 h).filter q.cols.contains)

/-- Every halo of the current stage is sent again from the stage before, on the arrays the stage now has (R165). -/
def rebuildHalos (s : State) (id : Nat) : State :=
  match s.entry id with
  | none => s
  | some e =>
    if e.done ∨ e.stage = 0 ∨ nextHalo e (e.stage - 1) = 0 then s
    else
      let arrays := if e.run.started then e.run.arrays else s.stageArrays e e.desc
      let e1 := { e with run := { e.run with arrays := arrays, ptrs := e.srcPtrs } }
      let s1 := dropSpace (updRun s id fun r => { r with welt := r.welt.filter fun p => decide (p.stage = e.stage) }) id .halo (e.stage - 1)
      match stageProd s e1 (e.descAt (e.stage - 1)) with
      | .ok p => sendWelt s1 id (p.tiles.zipIdx.flatMap fun t => (p.passes t.1).flatMap (blockPackets e1 (e.stage - 1) e.handover p t.2))
      | .error _ => s1

/-! ### Seams (R205) -/

/-- The packets of a seam: a control packet, then its values, 512 at a time. -/
def seamPackets (s : State) (e : Entry) (d : Desc) (i c : Nat) (k : Carry) : List WeltPacket :=
  let j := i * scChunks e d + c
  let dst := seamTarget s e d i c
  let one (col : Nat) (data : List Byte) : WeltPacket :=
    ⟨scEngine s e d i c, dst, dst, 0, e.stage, 0, j, i, col, weltBytes e.id e.stage 0 j i col data, 0, false⟩
  one 0xFFFFFFFF (natBytes [toTwos 16 k.a * 2 ^ 48 + k.cnt % 2 ^ 24 * 2 ^ 24, k.pos % 2 ^ 64]) ::
    (List.range (ceilDiv k.v.length 512)).map fun b =>
      one (512 * b) (natBytes (((k.v.drop (512 * b)).take 512).map (toTwos 64)))

/-- The seam after chunk c of entry i is where its next chunk runs: it holds space there (R202, R205). -/
def landSeam (s : State) (e : Entry) (d : Desc) (i c : Nat) : M :=
  (takeSpace s e.id e.ctx (seamTarget s e d i c) .seam (chunkKey i (c + 1)) (8 * d.scD)).next fun s =>
    (updRun s e.id fun r => { r with
      seams := r.seams.map fun x => if x.entry = i ∧ x.chunk = c then { x with arrived := true } else x }, none)

/-- The seam after a sweep that has just run: it stays on its array, or travels. -/
def passSeam (s : State) (e : Entry) (d : Desc) (i c : Nat) : M :=
  match e.run.seams.find? fun x => decide (x.entry = i ∧ x.chunk = c) with
  | none => (s, none)
  | some x => if x.arrived then landSeam s e d i c else (sendWelt s e.id (seamPackets s e d i c x.carry), none)

/-- Every packet of a seam has been acknowledged. -/
def Entry.seamDue (e : Entry) (d : Desc) (i c : Nat) : Bool :=
  (e.run.seams.any fun x => decide (x.entry = i ∧ x.chunk = c) && !x.arrived) &&
  e.run.welt.all fun p => decide (p.stage ≠ e.stage ∨ p.tile ≠ i * scChunks e d + c ∨ p.row ≠ i)

/-- SEAM_RECEIVE: a seam whose packets have all been acknowledged reaches the array of its next chunk (R205). -/
def execSeamReceive (id entry chunk : Nat) (s : State) : Out State :=
  .next (match s.entry id with
    | none => s
    | some e =>
      if !s.live ∨ e.done ∨ e.desc.op ≠ opcScan ∨ !e.seamDue e.desc entry chunk then s
      else stageAct s e (landSeam s e e.desc entry chunk))

/-! ### Receiving (R163, R164) -/

/-- A checked packet is acknowledged: one for another array goes on to it, a halo takes its place in the receiver's halo area, and the
buffers it leaves serve the packets that wait (R162, R163, R167). -/
def acceptPacket (s : State) (e : Entry) (p : WeltPacket) : M :=
  let rest (r : StageRun) : List WeltPacket := r.welt.filter fun q => decide (q.seq ≠ p.seq)
  if p.dst ≠ p.final then
    (pumpWelt (updRun s e.id fun r => { r with
      welt := rest r ++ [{ p with src := p.dst, dst := p.final, fails := 0, sent := false }] }), none)
  else
    let s1 := updRun s e.id fun r => { r with welt := rest r }
    let m : M := if (e.descAt p.stage).op = opcScan then (s1, none)
      else takePlace s1 e.id e.ctx p.final .halo haloArea .halo p.stage p.length
    m.next fun s => (pumpWelt s, none)

/-- The third failed resend of a packet: the stage after its own fails with DATA_ERROR_DETECTED, or its own where it carries a seam
(R164, R205); a stage that has not come yet fails when it starts. -/
def losePacket (s : State) (e : Entry) (p : WeltPacket) : State :=
  let s1 := s.satF (Reg.SEQ_WELT p.src) 15 0 1
  if p.stage + 1 = e.stage ∨ (p.stage = e.stage ∧ (e.descAt p.stage).op = opcScan) then
    releaseReserved (complete (dropAcquired s1 e) e.id { status := 3, stage := some e.stage }) e.id
  else s1

/-- A packet that fails its check is asked for again (R164). -/
def refusePacket (s : State) (e : Entry) (p : WeltPacket) : State :=
  let s1 := updRun s e.id fun r => { r with welt := r.welt.map fun q => if q.seq = p.seq then { q with fails := q.fails + 1 } else q }
  if p.fails = 3 then losePacket s1 e p else (s1.addF (Reg.SEQ_WELT p.src) 63 32 1).satF (Reg.SEQ_WELT p.src) 31 16 1

/-- WELT_PACKET_RECEIVE: a packet on its way is acknowledged when its CRC holds, else resent (R163, R164). -/
def execWeltPacketReceive (id dst seq : Nat) (crcOk : Bool) (s : State) : Out State :=
  .next (match s.entry id with
    | none => s
    | some e => match e.run.welt.find? fun p => p.sent && decide (p.dst = dst ∧ p.seq = seq ∧ p.fails < 4) with
      | none => s
      | some p =>
        if !s.live ∨ e.done then s
        else if crcOk then stageAct s e (acceptPacket s e p)
        else refusePacket s e p)

end Sys2Proof.Machine
end

