-- ==== Sys2Proof/Machine/Items.lean ====
section
/-!
DEFINITION. The items of a started stage (R142 to R160, R202 to R206, R230, R246, R365 to R367): claims, finishing an item, slice
partials and the sweeps of a scan. Yields and the end of the stage are in Finish.lean.
-/
namespace Sys2Proof.Machine

/-! ### Claims (R151, R153, R246) -/

/-- The item is done or held. -/
def StageRun.taken (r : StageRun) (i : Nat) : Bool :=
  r.done.any (fun c => decide (c.item = i)) || r.claims.any fun c => decide (c.item = i)

/-- Cell of array a: its place among the stage's arrays. -/
def StageRun.cell (r : StageRun) (a : Nat) : Nat := r.arrays.findIdx fun x => decide (x = a)

/-- Item i may be issued to array a: its own cell in grid order, its sweep or pass ready (R144, R230, R232, R268). -/
def itemOpen (s : State) (e : Entry) (w : Work) (a i : Nat) : Bool := match w with
  | .prod p =>
    decide (p.order ≠ 3) || decide (p.cellOf e.run.arrays.length (p.tiles.getD (p.itemTile i) ⟨0, 0, 0⟩) = e.run.cell a)
  | .attn gs =>
    let n := (atItems gs).length
    if i < n then true
    else atSweepDone gs (e.run.done.map (·.item)) 0 ((atItems gs).getD (i - n) (0, 0)).1 && (decide (e.desc.atRing = 0) || s.lapHere e.desc 1)
  | .upd items => match items[i]? with
    | some it => upReady items (e.run.done.map (·.item)) it
    | none => false
  | _ => true

/-- The item array a claims next: the lowest of the reissue list, else the next the counter gives, with whether it was reissued
(R151). -/
def nextItem (s : State) (e : Entry) (w : Work) (a : Nat) : Option (Nat × Bool) :=
  match (sortBy (fun x y => decide (x ≤ y)) e.run.reissue).find? (itemOpen s e w a) with
  | some i => some (i, true)
  | none => ((List.range e.run.items).find? fun i => !e.run.taken i && !e.run.reissue.contains i && itemOpen s e w a i).map fun i => (i, false)

/-- The counter an item is claimed through: its cell in grid order, its sweep in ATTN. -/
def counterOf (e : Entry) (w : Work) (a i : Nat) : Nat := match w with
  | .prod p => if p.order = 3 then e.run.cell a else 0
  | .attn gs => if i < (atItems gs).length then 0 else 1
  | _ => 0

/-- Add one to a counter of the list. -/
def bumpCounter (l : List Nat) (i : Nat) : List Nat := updAt (l ++ List.replicate (i + 1 - l.length) 0) i (· + 1)

/-- Claims an array holds over all commands. -/
def State.heldBy (s : State) (a : Nat) : Nat :=
  (s.flight.flatMap fun e => e.run.claims.filter fun c => decide (c.array = a)).length

/-- An awl stage that could give an engine an item now, in a class. -/
def State.awlWaiting (s : State) (cls : Nat) : List Entry :=
  s.flight.filter fun e => e.run.started && !e.done && decide (e.cls = cls) && e.desc.onAwl && s.partOn e.part &&
    (match stageWork s e e.desc with
      | .ok w => (nextItem s e w 64).isSome
      | .error _ => false)

/-- An engine may take an item of this command: LC before BE, BE within BE_MAX, partitions in turn (R246, Table 9.7). -/
def State.awlTurn (s : State) (e : Entry) : Bool :=
  let mine := (s.awlWaiting e.cls).map (·.part)
  let last := spGet 0 s.tick.turns (40 + e.cls)
  let ps := (List.range 16).filter fun p => mine.contains p
  let first := ((ps.find? fun p => decide (last ≤ p)).or ps.head?).getD 0
  let beHeld := ((s.flight.filter fun x => !x.lc).flatMap fun x => x.run.claims.filter fun c => decide (64 ≤ c.array)).length
  (e.lc || (decide (s.awlWaiting 0 = []) && decide (beHeld < min 4 (s.effF Reg.AWL_CFG 2 0)))) && decide (first = e.part)

/-- The array may take an item of this stage now (R59, R151, R246, R363). -/
def State.mayClaim (s : State) (e : Entry) (a : Nat) : Bool :=
  s.partOn e.part && (s.ctx e.ctx).saving.isNone && e.run.arrays.contains a &&
  if 64 ≤ a then s.awlOk (a - 64) && decide (s.heldBy a = 0) && s.awlTurn e
  else s.arrayOk e.part a && (s.grantedArrays e.ctx e.cls).contains a && decide (s.heldBy a < 2)

/-- Add one to a field of SEQ_CLAIM of every core of an array, each core counting its own part of the work (R166). -/
def countArray (s : State) (e : Entry) (a hi lo : Nat) : State :=
  (arrayCores (gangOf s e) a).foldl (fun s c => s.addF (Reg.SEQ_CLAIM c) hi lo 1) s

/-- Array a takes item i (R151, R172, R246). -/
def takeItem (s : State) (e : Entry) (w : Work) (a i : Nat) (re : Bool) : State :=
  let s1 := updRun s e.id fun r => { r with
    claims := r.claims ++ [⟨a, i⟩]
    reissue := r.reissue.filter fun x => decide (x ≠ i)
    counters := if re then r.counters else bumpCounter r.counters (counterOf e w a i) }
  if 64 ≤ a then s1.putTick { s1.tick with turns := spSet 0 s1.tick.turns (40 + e.cls) (e.part + 1) }
  else countArray (usePrefetch s1 e a i) e a 63 32

/-- ITEM_CLAIM (R151): items of a stage are issued once its halos have been sent again (R165). -/
def execItemClaim (id array : Nat) (s : State) : Out State :=
  .next (match s.entry id with
    | none => s
    | some e =>
      if !s.live ∨ e.done ∨ !e.run.started ∨ e.run.welt.any (fun p => decide (p.stage < e.stage)) ∨ !s.mayClaim e array then s
      else match stageWork s e e.desc with
        | .error _ => s
        | .ok w => match nextItem s e w array with
          | none => s
          | some (i, re) => takeItem s e w array i re)

/-! ### Finishing an item (R145, R154 to R160) -/

/-- The write-outs of an item's k-outer walk (R158 to R160): as many blocks as the spill regions of the array's cores have room for go
there, the others to the spill area; each core counts those that hold cells of it. -/
def bookSpills (s : State) (e : Entry) (p : Prod) (t : Tile) (sl a : Nat) : M :=
  let tp := 4 - (s.part e.part).frag.accTiles
  let sp := p.spills tp t sl
  let cores := arrayCores p.gang a
  let room := cores.foldl (fun n c => min n (s.regionFree c / 524288)) sp.1.length
  let near := sp.1.drop room
  let need := (near.flatMap fun q => cellCores q.rows.length q.cols.length).length * 524288
  let cells (q : Pass) : List Nat := cellCores q.rows.length q.cols.length
  let bump (s : State) (hi lo : Nat) (qs : List Pass) : State :=
    (qs.flatMap cells).foldl (fun s k => s.addF (Reg.SEQ_SPILL (a + k)) hi lo sp.2) s
  if sp.1 = [] ∨ sp.2 = 0 then (s, none)
  else if s.spillSize e.ctx < s.areaHeld e.ctx + need then spillFault s e.ctx
  else
    let s1 := bump (bump s 63 32 (sp.1.take room)) 31 0 near
    let s2 := tally (tally s1 (telPart e.part telCbSpills) ((sp.1.take room).length * sp.2)) (telPart e.part telNtSpills) (near.length * sp.2)
    (s2.updEntry e.id fun x => { x with spills := x.spills + sp.1.length * sp.2 }, none)

/-- n bytes of hand-over data are held for the next stage: in the activation area, then along the spill path (R95, R159, R167). -/
def holdOver (s : State) (e : Entry) (d : Desc) (core n : Nat) : M :=
  if d.outDst ≠ 1 ∨ 64 ≤ core then (s, none) else takePlace s e.id e.ctx core .activation activationHalf .handover e.stage n

/-- Commit block q of tile ti at its home, if its bit is clear: its outputs, its bit, its halos (R145, R155, R162). The block of a SCAN
gives gate values. -/
def commitBlock (s : State) (e : Entry) (d : Desc) (key : Key) (p : Prod) (ti : Nat) (pt : Partial) (home : Nat) (q : Pass) : M :=
  let t := p.tiles.getD ti ⟨0, 0, 0⟩
  let b := p.blockNo ti q
  if e.run.commits.contains b then (s, none)
  else
    let m := if d.op = opcMatmul then mmCommit s e d key p t pt home q
      else if d.op = opcConv then cCommit s e d key p t pt home q
      else scCommitBlock s e d p t pt home q
    m.next fun s =>
    let s1 := updRun s e.id fun r => { r with commits := r.commits ++ [b] }
    if d.op = opcScan then (s1, none)
    else (holdOver s1 e d home (q.rows.length * q.cols.length * outWidth d)).next fun s =>
      (if d.outDst = 1 then sendWelt s e.id (blockPackets e e.stage (((s.entry e.id).map (·.run.outBuf)).getD []) p ti q) else s, none)

/-- The array whose lowest core is the home of a tile, or of a group of ATTN (R145, R230). -/
def homeOf (e : Entry) (p : Prod) (ti : Nat) : Nat := e.run.arrays.getD (p.home e.run.arrays.length ti) 0
@[inherit_doc homeOf] def groupHome (e : Entry) (gi : Nat) : Nat := e.run.arrays.getD (gi % max 1 e.run.arrays.length) 0

/-- A tile whose sums are known: its product counts, then its blocks (R135, R155). -/
def commitTile (s : State) (e : Entry) (d : Desc) (key : Key) (p : Prod) (ti : Nat) (pt : Partial) : M :=
  let t := p.tiles.getD ti ⟨0, 0, 0⟩
  foldM (fun s q => commitBlock s e d key p ti pt (homeOf e p ti) q) (addStats s e.id (p.ent t.ent).e 0 pt.sat pt.under 0 0) (p.passes t)

/-- Form the sums of an item of a product on array a: operands fed, random words drawn, flags and maxima raised, blocks written out. -/
def formItem (s : State) (e : Entry) (d : Desc) (key : Key) (p : Prod) (i a : Nat) (f : State → Partial → M) : M :=
  let ti := p.itemTile i
  let t := p.tiles.getD ti ⟨0, 0, 0⟩
  let en := p.ent t.ent
  let sl := p.itemSlice i
  let todo := (p.passes t).filter fun q => !e.run.commits.contains (p.blockNo ti q)
  got s e.ctx (p.sums s key (e.run.anchors.getD en.e 0) t sl i) fun o =>
    let s1 := todo.foldl (fun s q => drewPass s p a q (p.slice sl).2) (feedItem s e d p t sl a todo)
    (bookSpills s1 e p t sl a).next fun s => f (raiseMax (raiseCores s e.id a o.flags) e.id en.e o.maxX o.maxW) o.pt

/-- The space of a slice partial, and of a reduction buffer: 8 × LR × LC bytes, shared by the cores of the home array (R156, R159). -/
def takeSlice (s : State) (e : Entry) (home n : Nat) (kind : Held) (key : Nat) : M :=
  takeShares s e.id e.ctx (arrayCores (gangOf s e) home) kind key n

/-- An item of a product is finished on array a: with one slice its tile is converted, else its partial goes to the tile's home. -/
def finishProd (s : State) (e : Entry) (d : Desc) (key : Key) (p : Prod) (i a : Nat) : M :=
  formItem s e d key p i a fun s pt =>
    if p.slices ≤ 1 then commitTile s e d key p (p.itemTile i) pt
    else (takeSlice s e (homeOf e p (p.itemTile i)) (8 * p.lr * p.lc) .part i).next fun s =>
      (updRun s e.id fun r => { r with parts := r.parts ++ [pt] }, none)

/-- An item of ATTN is finished: a page is scored, or its partials go to the home of its group (R230). -/
def finishAttn (s : State) (e : Entry) (d : Desc) (gs : List AtGroup) (i a : Nat) : M :=
  let n := (atItems gs).length
  let it := (atItems gs).getD (i % max 1 n) (0, 0)
  match gs[it.1]? with
  | none => (s, none)
  | some g =>
    if i < n then atScore s e d it.1 g it.2 a
    else (atProbs s e d it.1 g it.2 i a).next fun s =>
      match (s.entry e.id).bind fun x => x.run.parts.find? fun y => decide (y.key = i) with
      | some pt => takeSlice s e (groupHome e it.1) (8 * pt.vals.length) .part i
      | none => (s, none)

/-- The bytes an item of RNG_FILL hands over. -/
def fillBytes (e : Entry) (d : Desc) (i : Nat) : Nat :=
  if d.rfDist = 5 then 0 else min (rfExtent e d - i * (rfExtent e d / max 1 (rfItems e d))) (ceilDiv (rfExtent e d) (max 1 (rfItems e d)))

/-- An item of the current stage is finished on array a: its work is done and its bit set. -/
def finishItem (s : State) (e : Entry) (i a : Nat) : M :=
  let d := e.desc
  got s e.ctx (both (keyOf s e) (stageWork s e d)) fun o =>
    let m : M := match o.2 with
      | .prod p => finishProd s e d o.1 p i a
      | .awl p l => match l[i]? with
        | some it => awlCommit s e d o.1 p it
        | none => (s, none)
      | .attn gs => finishAttn s e d gs i a
      | .upd _ => upCommit s e d o.1 i a
      | .rng _ => (rfCommit s e d o.1 i a).next fun s => holdOver s e d a (fillBytes e d i)
    m.next fun s =>
      let s1 := (updRun s e.id fun r => { r with
        done := r.done ++ [⟨a, i⟩]
        claims := r.claims.filter fun c => decide (c.item ≠ i)
        reissue := r.reissue.filter fun x => decide (x ≠ i) }).updEntry e.id fun x => { x with held := none }
      let s2 := s1.putPrefetched (s1.prefetched.filter fun x => !(x.used && decide (x.id = e.id ∧ x.array = a ∧ x.item = i)))
      match s2.entry e.id with
      | some e1 => if d.op = opcAttn then ringProgress s2 e1 d else (s2, none)
      | none => (s2, none)

/-- The unit can work for the command now (R59, R376). -/
def State.unitOn (s : State) (e : Entry) (a : Nat) : Bool :=
  s.partOn e.part && if 64 ≤ a then s.awlOk (a - 64) else s.arrayOk e.part a

/-- ITEM_COMPLETE: the item array holds first is finished, `core` units of core time charged (R45, R155). -/
def execItemComplete (id array core : Nat) (s : State) : Out State :=
  .next (match s.entry id with
    | none => s
    | some e => match e.run.claims.find? fun c => decide (c.array = array) with
      | none => s
      | some c =>
        if !s.live ∨ e.done ∨ !e.run.started ∨ !s.unitOn e array then s
        else stageAct (charge s e core) e (finishItem (charge s e core) e c.item array))

/-! ### Slice partials (R156, R230) -/

/-- Items whose partials make up the sum that item i adds to, with the sum's number. -/
def sliceSum (w : Work) (i : Nat) : Nat × List Nat := match w with
  | .prod p => (p.itemTile i, (List.range p.slices).map (p.itemTile i * p.slices + ·))
  | .attn gs =>
    let n := (atItems gs).length
    let gi := ((atItems gs).getD (i - n) (0, 0)).1
    (gi, ((atItems gs).zipIdx.filter fun x => decide (x.1.1 = gi)).map (n + ·.2))
  | _ => (0, [])

/-- A sum that is complete is converted at its home: a tile, or a group of ATTN unless a ring still adds to it (R156, R230, R232). -/
def emitSum (s : State) (e : Entry) (d : Desc) (key : Key) (w : Work) (k : Nat) (sum : Partial) : M :=
  let free (s : State) : M := (dropSpace (updRun s e.id fun r => { r with red := r.red.filter fun x => decide (x.key ≠ k) }) e.id .red k, none)
  match w with
  | .prod p => (commitTile s e d key p k sum).next free
  | .attn gs => match gs[k]? with
    | some g => if d.atRing ≠ 0 then (s, none)
      else (atEmit s e d key k g sum.vals (groupHome e k)).next fun s => (free s).next fun s =>
        got s e.ctx (atPl s e d g.ent) fun p => holdOver s e d (groupHome e k) ((atRows e d p g).length * p.dh * outBytes d.atOut)
    | none => (s, none)
  | _ => (s, none)

/-- Add item i's partial to its sum: the addition and the bit in one act; with the last one the sum is converted (R156). -/
def addSlice (s : State) (e : Entry) (i : Nat) : M :=
  let d := e.desc
  match e.run.parts.find? fun x => decide (x.key = i) with
  | none => (s, none)
  | some pt => got s e.ctx (both (keyOf s e) (stageWork s e d)) fun o =>
    let k := sliceSum o.2 i
    let home := match o.2 with
      | .prod p => homeOf e p k.1
      | _ => groupHome e k.1
    let bytes := match o.2 with
      | .prod p => 8 * p.lr * p.lc
      | _ => 8 * pt.vals.length
    let old := e.run.red.find? fun x => decide (x.key = k.1)
    let sum : Partial := match old with
      | some r => addPartial r pt
      | none => { pt with key := k.1 }
    let adds := e.run.adds ++ [i]
    let m : M := if old.isSome then (s, none) else takeSlice s e home bytes .red k.1
    m.next fun s =>
      let s1 := dropSpace (updRun s e.id fun r => { r with
        parts := r.parts.filter fun x => decide (x.key ≠ i)
        adds := adds
        red := sum :: r.red.filter fun x => decide (x.key ≠ k.1) }) e.id .part i
      if k.2.all adds.contains then emitSum s1 e d o.1 o.2 k.1 sum else (s1, none)

/-- SLICE_ADD, its core time charged (R45, R156). -/
def execSliceAdd (id : Nat) (item : Timed) (s : State) : Out State :=
  .next (match s.entry id with
    | none => s
    | some e =>
      if !s.live ∨ e.done ∨ !e.run.started ∨ !s.partOn e.part ∨ !e.run.parts.any (fun x => decide (x.key = item.no)) then s
      else stageAct (charge s e item.core) e (addSlice (charge s e item.core) e item.no))

/-! ### The scan's recurrences (R202 to R206) -/

/-- Every block with a row of the chunk is committed, so its gate values are present. -/
def chunkReady (e : Entry) (d : Desc) (p : Prod) (i c : Nat) : Bool :=
  let ps := scPositions e d c
  p.tiles.zipIdx.all fun t => decide (t.1.ent ≠ i) || (p.passes t.1).all fun q =>
    !(q.rows.any fun r => ps.contains r) || e.run.commits.contains (p.blockNo t.2 q)

/-- The sweep of a chunk that can start now. -/
def sweepDue (s : State) (e : Entry) (d : Desc) (p : Prod) (i c : Nat) : Except MErr (Option Sweep) :=
  if !scanRuns e d e.run.items ∨ d.scD = 0 ∨ e.pkt.count ≤ i ∨ scChunks e d ≤ c ∨ !chunkReady e d p i c then .ok none
  else readySweep s e d i c

/-- A chunk of a lower number has a sweep that can start on the same engine: that one runs first (R204). -/
def lowerDue (s : State) (e : Entry) (d : Desc) (p : Prod) (i c : Nat) : Bool :=
  d.scMode && ((List.range (i * scChunks e d + c)).any fun j =>
    let x := (j / max 1 (scChunks e d), j % max 1 (scChunks e d))
    decide (scEngine s e d x.1 x.2 = scEngine s e d i c) && (match sweepDue s e d p x.1 x.2 with
      | .ok (some _) => true
      | _ => false))

/-- Run a ready sweep of a chunk of the current SCAN stage and pass its seam on. -/
def chunkAct (s : State) (e : Entry) (i c : Nat) : M :=
  let d := e.desc
  if d.op ≠ opcScan then (s, none)
  else got s e.ctx (both (keyOf s e) (stageProd s e d)) fun o =>
    got s e.ctx (sweepDue s e d o.2 i c) fun w => match w with
      | none => (s, none)
      | some w =>
        if lowerDue s e d o.2 i c then (s, none)
        else (runSweep s e d o.1 i c w).next fun s =>
          (holdOver s e d (scEngine s e d i c) (if d.scSel = 0 then 0 else w.ts.length * d.scD * outBytes d.scFmt)).next fun s =>
            match s.entry e.id with
            | some e1 => if w.seam then passSeam s e1 d i c else (s, none)
            | none => (s, none)

/-- CHUNK_RECURRENCE, its core time charged (R45, R203, R204). A sweep is one act, so that no yield divides it (R206). -/
def execChunkRecurrence (id entry : Nat) (chunk : Timed) (s : State) : Out State :=
  .next (match s.entry id with
    | none => s
    | some e =>
      if !s.live ∨ e.done ∨ !e.run.started ∨ !s.partOn e.part ∨ e.desc.op ≠ opcScan then s
      else stageAct (charge s e chunk.core) e (chunkAct (charge s e chunk.core) e entry chunk.no))

/-- A state of no elements: its positions pass, with their resets and re-anchors, and nothing is projected (R196). -/
def emptyScan (s : State) (e : Entry) (d : Desc) (key : Key) (i : Nat) : M :=
  got s e.ctx (scStart s e d i) fun c0 =>
    let r := (List.range e.pkt.len).foldl (scanPos e d key i) ⟨(s, none), c0, ScanAcc.zero⟩
    r.m.next fun s => scCommit s e d i r.c

/-- SLOT_ACQUIRE: a command held for a slot takes one as soon as it is released, and its stage starts (R199). -/
def execSlotAcquire (id : Nat) (s : State) : Out State :=
  .next (match s.entry id with
    | none => s
    | some e =>
      if !s.live ∨ e.done ∨ e.run.started ∨ e.held.isNone ∨ !isCompute e.pkt.op ∨ e.pkt.stages ≤ e.stage ∨ !s.partOn e.part ∨
          e.desc.op ≠ opcScan ∨ s.streamWait e ∨ (s.ring e.ring).transfer ∨ (s.ctx e.ctx).saving.isSome then s
      else startStage s e)

end Sys2Proof.Machine
end

