-- ==== Sys2Proof/Machine/Finish.lean ====
section
/-!
DEFINITION. The end of a stage (R95, R96, R135, R196, R201, R219, R257), its yields (R152, R365 to R367), the arrays it has after an edge
or a restore (R157, R363), its start, and the compute commands, each of which runs what is left of its stage.
-/
namespace Sys2Proof.Machine

/-! ### Completing a stage -/

/-- Every sweep of a SCAN has run, and the state after the last chunk of each entry has reached its slot. -/
def scanDone (s : State) (e : Entry) (d : Desc) : Bool :=
  !scanRuns e d e.run.items || decide (d.scD = 0) || (List.range e.pkt.count).all fun i =>
    ((List.range (scChunks e d)).all fun c => chunkDone s e d i c) && (e.seamOf i (scChunks e d - 1)).isSome

/-- Every item, add, chunk and ring block of the stage is in. -/
def stageDone (s : State) (e : Entry) : Bool :=
  let d := e.desc
  match stageWork s e d with
  | .error _ => false
  | .ok w =>
    ((List.range e.run.items).all fun i => e.run.done.any fun c => decide (c.item = i)) && (match w with
      | .prod p => (p.slices ≤ 1 || (List.range e.run.items).all fun i => e.run.adds.contains i) && (d.op ≠ opcScan || scanDone s e d)
      | .attn gs => ((List.range (atItems gs).length).all fun i => e.run.adds.contains ((atItems gs).length + i)) &&
        (d.atRing = 0 || atLive e d = [] || (s.lapHere d 1 && s.lapHere d 2 && e.lap2Sent))
      | _ => true)

/-- SCAN: the largest magnitudes are counted and the state of every entry is committed; a stage that ran nothing gives back the slots it
took (R196, R200, R207). -/
def scanFinish (s : State) (e : Entry) (d : Desc) (key : Key) : M :=
  if !scanRuns e d e.run.items then (dropAcquired s e, none)
  else if d.scD = 0 then foldM (fun s i => emptyScan s e d key i) s (List.range e.pkt.count)
  else foldM (fun s i => match e.seamOf i (scChunks e d - 1) with
    | some c => scCommit s e d i c
    | none => (s, none)) (bookPeaks s e) (List.range e.pkt.count)

/-- ATTN: groups without a page, and every group of a ring, are written now; then the appends (R215, R227, R232). -/
def attnFinish (s : State) (e : Entry) (d : Desc) (key : Key) (gs : List AtGroup) : M :=
  let one (s : State) (g : AtGroup × Nat) : M :=
    let core := groupHome e g.2
    let emit (s : State) (sums : List Int) : M := (atEmit s e d key g.2 g.1 sums core).next fun s =>
      got s e.ctx (atPl s e d g.1.ent) fun p => holdOver s e d core ((atRows e d p g.1).length * p.dh * outBytes d.atOut)
    if d.atRing ≠ 0 then atRingSums s e d g.2 g.1 core emit
    else if g.1.pages = 0 then emit s [] else (s, none)
  (foldM one s gs.zipIdx).next fun s =>
    let s1 := if d.atRing = 0 ∨ atLive e d = [] then s
      else s.putKv { s.kv with blocks := s.kv.blocks.filter fun m => decide (m.tag ≠ d.atSeq) }
    atAppendAll s1 e d

/-- What a stage does at its end beside its items. -/
def stageFinish (s : State) (e : Entry) : M :=
  let d := e.desc
  got s e.ctx (both (keyOf s e) (stageWork s e d)) fun o =>
    let m : M := match o.2 with
      | .prod _ => if d.op = opcScan then scanFinish s e d o.1 else if d.op = opcConv then writeArgmax s e d else (s, none)
      | .awl _ _ => writeArgmax s e d
      | .attn gs => attnFinish s e d o.1 gs
      | .upd _ => (s, none)
      | .rng _ => rfFinish s e d
    m.next fun s => match s.entry e.id with
      | some e1 =>
        let s1 := retainStage s e1
        if statsAddr e1 d = 0 then (s1, none) else writeStats s1 e1 (statsAddr e1 d)
      | none => (s, none)

/-- The pages an appending stage has not used go back, but for those that later stages of the command need (R219). -/
def trimReserve (s : State) (e : Entry) (d : Desc) : State :=
  if d.op ≠ opcAttn ∨ !d.atAppend then s
  else match reserveNeed s e (e.stage + 1) with
    | .ok n => keepReserved s e.id n
    | .error _ => s

/-- The stage is complete: its output is handed over or joins the return payload, the space of its other data is free, and the next stage
is due, or the command completes with its draws advanced (R95, R159, R257). -/
def stageNext (s : State) (e : Entry) (time : Option Nat) : M :=
  let d := e.desc
  let out := e.run.outBuf
  let s1 := (trimReserve s e d).updEntry e.id fun x => { x with
    stage := x.stage + 1
    held := none
    run := { StageRun.idle with welt := x.run.welt }
    handover := if d.outDst = 1 then out else []
    srcPtrs := x.run.ptrs
    space := x.space.filter fun y => decide ((y.kind = .handover ∨ y.kind = .halo) ∧ y.key = e.stage)
    ret := if d.outDst = 2 then x.ret ++ out else x.ret }
  if e.stage + 1 < e.pkt.stages then (s1, none)
  else (advanceDraws s1 e.ctx (drawHandles e)).next fun s =>
    (releaseReserved (complete s e.id
      { status := 0, payload := if d.outDst = 2 then e.ret ++ out else e.ret, time := time }) e.id, none)

/-- Complete the current stage of an entry. -/
def completeStage (s : State) (e : Entry) (time : Option Nat) : M :=
  (stageFinish s e).next fun s => match s.entry e.id with
    | some e1 => stageNext s e1 time
    | none => (s, none)

/-- STAGE_COMPLETE, `time` after the opening edge in 10 ns units (R95, R154). -/
def execStageComplete (id time : Nat) (s : State) : Out State :=
  .next (match s.entry id with
    | none => s
    | some e =>
      if !s.live ∨ e.done ∨ !e.run.started ∨ !s.partOn e.part ∨ !stageDone s e then s
      else stageAct s e (completeStage s e (some time)))

/-! ### Starting a stage -/

/-- A stage without an item that has nothing to wait for completes at once (R142). -/
def finishEmpty (s : State) (id st : Nat) : State := match s.entry id with
  | none => s
  | some e =>
    if !e.run.started ∨ e.done ∨ e.stage ≠ st ∨ e.run.items ≠ 0 ∨ !stageDone s e then s
    else stageAct s e (completeStage s e none)

/-- The current stage of a command may start: in stream order, its ring's stream not in transfer, its context open and not saved, its
function on (R37, R59, R95, R100, R214, R368). -/
def State.mayStart (s : State) (e : Entry) : Bool :=
  s.live && !e.done && !e.run.started && isCompute e.pkt.op && decide (e.stage < e.pkt.stages) && s.partOn e.part && !s.streamWait e &&
    !(s.ring e.ring).transfer && (s.ctx e.ctx).saving.isNone

/-- STAGE_START: the core time of its pre-pass is charged (R95, R127, R142, R163). -/
def execStageStart (command : Timed) (s : State) : Out State :=
  .next (match s.entry command.no with
    | none => s
    | some e =>
      let s1 := charge s e command.core
      if !s.mayStart e then s else finishEmpty (startStage s1 ((s1.entry command.no).getD e)) command.no e.stage)

/-! ### Yields (R152, R365 to R367) -/

/-- An array is asked to yield the items it holds of an entry: its context is saved, or it is no longer granted to the
entry's class or available (R365). -/
def State.mustYield (s : State) (e : Entry) (a : Nat) : Bool :=
  (s.ctx e.ctx).saving.isSome || (if 64 ≤ a then !s.awlOk (a - 64) else !(s.grantedArrays e.ctx e.cls).contains a)

/-- Book a yield of an array: YIELDS counts its cores, MAX_YIELD keeps the longest (Table 14.10). An awl engine holds no
core (Table 14.3). -/
def bookYield (s : State) (e : Entry) (array time : Nat) : State :=
  if 64 ≤ array then s
  else (s.addF (Reg.CTX_PREEMPT) 63 32 (arrayCores (gangOf s e) array).length).maxF Reg.CTX_PREEMPT 31 0 time

/-- The first n blocks of an abandoned item that were not committed before are: their conversion had ended when it was asked to yield
(R152, R155). -/
def commitSome (s : State) (e : Entry) (i a n : Nat) : M :=
  let d := e.desc
  if n = 0 then (s, none)
  else got s e.ctx (both (keyOf s e) (stageWork s e d)) fun o => match o.2 with
    | .prod p =>
      let ti := p.itemTile i
      let t := p.tiles.getD ti ⟨0, 0, 0⟩
      let todo := ((p.passes t).filter fun q => !e.run.commits.contains (p.blockNo ti q)).take n
      if 1 < p.slices then (s, none)
      else got s e.ctx (p.sums s o.1 (e.run.anchors.getD (p.ent t.ent).e 0) t 0 i) fun x =>
        let s1 := todo.foldl (fun s q => drewPass s p a q p.k) (feedItem s e d p t 0 a todo)
        foldM (fun s q => commitBlock s e d o.1 p ti x.pt (homeOf e p ti) q)
          (raiseMax (raiseCores s1 e.id a x.flags) e.id (p.ent t.ent).e x.maxX x.maxW) todo
    | _ => (s, none)

/-- Items an array has claimed go back to the reissue list, and the bytes fetched ahead for it are gone (R152, R174). -/
def giveBack (s : State) (id array : Nat) (back : List Nat) : State :=
  dropPrefetched (updRun s id fun r => { r with
    claims := r.claims.filter fun c => decide (c.array ≠ array) || !back.contains c.item
    reissue := r.reissue ++ back }) array

/-- An array yields the items `mine` of an entry: the item in hand is finished, or abandoned with `blocks` of its blocks committed, and
the rest go back (R152, R366). -/
def yieldItems (s : State) (e : Entry) (array blocks : Nat) (mine : List Nat) (finish : Bool) : State :=
  let s1 := giveBack s e.id array (if finish then mine.drop 1 else mine)
  let e1 := (s1.entry e.id).getD e
  if finish then stageAct s1 e1 (finishItem s1 e1 (mine.headD 0) array)
  else stageAct (countArray s1 e array 31 0) e1 (commitSome (countArray s1 e array 31 0) e1 (mine.headD 0) array blocks)

/-- CORE_YIELD_DONE, `time` after the request: the item in hand is finished when its remaining time is within FINISH_LIMIT, else it and
any item claimed ahead go back to the reissue list; the core time is charged (R45, R152, R153, R366, R367). An awl
engine always finishes its item (Table 14.3). -/
def execCoreYieldDone (array time : Nat) (report : YieldReport) (s : State) : Out State :=
  .next (match s.flight.find? fun e => !e.done && e.run.claims.any (fun c => decide (c.array = array)) && s.mustYield e array with
    | none => s
    | some e =>
      let mine := (e.run.claims.filter fun c => decide (c.array = array)).map (·.item)
      let limit := s.effF (Reg.SEQ_CFG array) 15 0
      yieldItems (bookYield (charge s e report.core) e array time) e array report.blocks mine
        (decide (report.left ≤ limit ∧ limit ≠ 0) || decide (64 ≤ array)))

/-! ### Arrays after an edge or a restore (R157, R363) -/

/-- The data of a stage in progress takes its place again on the arrays the stage now has: slice partials and reduction buffers at their
homes, gate values and seams at their engines (R156, R157, R159, R202). -/
def retakeSpace (s : State) (id : Nat) : M := match s.entry id with
  | none => (s, none)
  | some e =>
    let d := e.desc
    let s1 := s.updEntry id fun x => { x with
      space := x.space.filter fun y => !decide (y.kind = .part ∨ y.kind = .red ∨ y.kind = .gates ∨ y.kind = .seam) }
    let slice (w : Work) (kind : Held) (k : Nat) (s : State) (x : Partial) : M := match w with
      | .prod p => takeSlice s e (homeOf e p k) (8 * p.lr * p.lc) kind x.key
      | _ => takeSlice s e (groupHome e k) (8 * x.vals.length) kind x.key
    got s1 e.ctx (stageWork s1 e d) fun w =>
      (foldM (fun s x => slice w .red x.key s x) s1 e.run.red).next fun s =>
      (foldM (fun s x => slice w .part (sliceSum w x.key).1 s x) s e.run.parts).next fun s =>
      (foldM (fun s (g : GateRow) => takeSpace s id e.ctx (scEngine s e d g.entry (g.pos / max 1 d.scChunk)) .gates
        (chunkKey g.entry (g.pos / max 1 d.scChunk)) (4 * g.vals.length)) s e.run.gates).next fun s =>
      foldM (fun s (x : Seam) => if x.arrived && !chunkDone s e d x.entry (x.chunk + 1) then landSeam s e d x.entry x.chunk else (s, none))
        s e.run.seams

/-- A stage goes on with other arrays: homes and grid follow (R157, R165). -/
def rehome (s : State) (id : Nat) : State := match s.entry id with
  | none => s
  | some e => rebuildHalos (stageAct s e (retakeSpace s id)) id

/-- Each started stage takes the arrays granted to it at an edge (R363): the set, and with it P and the cells, change as on a restore;
bytes fetched ahead on an array that the command no longer has are gone (R174). -/
def rebindArrays (s : State) : State :=
  let s1 := s.putPrefetched (s.prefetched.filter fun x => match s.entry x.id with
    | some e => !e.done && (s.grantedArrays e.ctx e.cls).contains x.array
    | none => false)
  s1.flight.foldl (fun s e =>
    let a := s.stageArrays e e.desc
    if e.run.started ∧ !e.done ∧ a ≠ e.run.arrays ∧ a ≠ [] then rehome (updRun s e.id fun r => { r with arrays := a }) e.id
    else s) s1

/-! ### The compute commands -/

/-- The array that runs an item which none has claimed: its cell's, else item number modulo P. -/
def itemArray (e : Entry) (w : Work) (i : Nat) : Nat :=
  let np := e.run.arrays.length
  e.run.arrays.getD (match w with
    | .prod p => if p.order = 3 then p.cellOf np (p.tiles.getD (p.itemTile i) ⟨0, 0, 0⟩) else i % max 1 np
    | _ => i % max 1 np) 0

/-- Item i of the started stage is claimed, if it is not, and finished, where its array can (R59, R151). -/
def runItem (id : Nat) (s : State) (i : Nat) : M := match s.entry id with
  | none => (s, none)
  | some e =>
    if e.run.done.any fun c => decide (c.item = i) then (s, none)
    else match e.run.claims.find? fun c => decide (c.item = i) with
      | some c => if s.unitOn e c.array then finishItem s e i c.array else (s, none)
      | none => got s e.ctx (stageWork s e e.desc) fun w =>
        let a := itemArray e w i
        if !s.mayClaim e a ∨ !itemOpen s e w a i then (s, none)
        else
          let s1 := takeItem s e w a i (e.run.reissue.contains i)
          finishItem s1 ((s1.entry id).getD e) i a

/-- Every item of the started stage that is not done. -/
def runItems (s : State) (id : Nat) : M := match s.entry id with
  | none => (s, none)
  | some e => foldM (runItem id) s (List.range e.run.items)

/-- Add every slice partial that waits. -/
def runAdds (s : State) (id : Nat) : M := match s.entry id with
  | none => (s, none)
  | some e0 => foldM (fun s i => match s.entry id with
    | some e => addSlice s e i
    | none => (s, none)) s (e0.run.parts.map (·.key))

/-- The packets of a seam are received and the seam lands (R205). -/
def bringSeam (s : State) (id i c : Nat) : M := match s.entry id with
  | none => (s, none)
  | some e0 => (foldM (fun s _ => match s.entry id with
      | none => (s, none)
      | some e => match e.run.welt.find? fun p => p.sent && decide (p.stage = e.stage ∧ p.row = i ∧ p.fails < 4) with
        | some p => acceptPacket s e p
        | none => (s, none)) s e0.run.welt).next fun s => match s.entry id with
    | some e => if e.seamDue e.desc i c then landSeam s e e.desc i c else (s, none)
    | none => (s, none)

/-- Every chunk of a SCAN stage in order, each seam handed on. -/
def runChunks (s : State) (id : Nat) : M := match s.entry id with
  | none => (s, none)
  | some e0 => foldM (fun s x =>
    let once (s : State) : M := match s.entry id with
      | some e => if chunkDone s e e.desc x.1 x.2 then (s, none) else chunkAct s e x.1 x.2
      | none => (s, none)
    (once s).next fun s => (once s).next fun s => bringSeam s id x.1 x.2) s
      ((List.range e0.pkt.count).flatMap fun i => (List.range (scChunks e0 e0.desc)).map fun c => (i, c))

/-- All that is left of the entry's started stage: its items, its slice partials and, of a SCAN, its chunks. -/
def runRest (s : State) (id op : Nat) : M :=
  (runItems s id).next fun s => (runAdds s id).next fun s => if op = opcScan then runChunks s id else (s, none)

/-- Run all that is left of the entry's started stage when it is of opcode op and its halos have come, and charge its core time (R45,
R59, R163, R165). -/
def runStage (s : State) (id core op : Nat) : State :=
  match s.entry id with
  | none => s
  | some e =>
    if !s.live ∨ e.done ∨ !e.run.started ∨ e.desc.op ≠ op ∨ !s.partOn e.part ∨ e.run.welt.any (fun p => decide (p.stage < e.stage)) then s
    else stageAct (charge s e core) e (runRest (charge s e core) id op)

/-- MATMUL: the products, sums and outputs of a stage (R120 to R135). -/
def execMatmul (id core : Nat) (s : State) : Out State := .next (runStage s id core opcMatmul)

/-- CONV: the windows, pooling and outputs of a stage (R236 to R248). -/
def execConv (id core : Nat) (s : State) : Out State := .next (runStage s id core opcConv)

/-- SCAN: the projection and every chunk of a stage (R187 to R206). -/
def execScan (id core : Nat) (s : State) : Out State := .next (runStage s id core opcScan)

/-- ATTN: both sweeps of every group of a stage (R224 to R233). -/
def execAttn (id core : Nat) (s : State) : Out State := .next (runStage s id core opcAttn)

/-- UPDATE: every item of the stage's parameter groups (R263 to R271). -/
def execUpdate (id core : Nat) (s : State) : Out State := .next (runStage s id core opcUpdate)

/-- RNG_FILL: every element or row of a stage (R260 to R262). -/
def execRngFill (id core : Nat) (s : State) : Out State := .next (runStage s id core opcRngFill)

end Sys2Proof.Machine
end

