-- ==== Sys2Proof/Machine/Image.lean ====
section
/-!
DEFINITION. The save image (Tables 14.5 and 14.6): its bytes, and what a restore reads back from them. The spec gives the
sections and the header; the layouts inside the sections are the model's (log entry 25). The image names no core, array,
unit or ring number (R370).
-/
namespace Sys2Proof.Machine

/-! ### Numbers as words -/

/-- k 64-bit limbs of n, least significant first. -/
def limbs : Nat → Nat → List Nat
  | 0, _ => []
  | k + 1, n => n % 2 ^ 64 :: limbs k (n / 2 ^ 64)

/-- The value of limbs. -/
def limbsNat : List Nat → Nat
  | [] => 0
  | l :: ls => l + 2 ^ 64 * limbsNat ls

/-- A number of any size: its limbs after their count. -/
def putNat (n : Nat) : List Nat :=
  let k := if n = 0 then 0 else Nat.log2 n / 64 + 1
  k :: limbs k n

/-- An integer: its sign and magnitude. -/
def putInt (i : Int) : List Nat := b2n (decide (i < 0)) :: putNat i.natAbs

/-- A list after its length. -/
def putList {α : Type} (f : α → List Nat) (l : List α) : List Nat := l.length :: l.flatMap f

/-- A reader of words. -/
abbrev Get (α : Type) := List Nat → Option (α × List Nat)

/-- One word. -/
def getW : Get Nat
  | [] => none
  | w :: ws => some (w, ws)

/-- Use what a reader gives, then go on. -/
def Get.next {α β : Type} (g : Get α) (f : α → Get β) : Get β := fun ws => (g ws).bind fun x => f x.1 x.2

/-- The value a reader ends with. -/
def Get.pure {α : Type} (a : α) : Get α := fun ws => some (a, ws)

/-- A number of any size. -/
def getNat : Get Nat := Get.next getW fun k ws =>
  if ws.length < k then none else some (limbsNat (ws.take k), ws.drop k)

/-- An integer. -/
def getInt : Get Int := Get.next getW fun s => Get.next getNat fun n => Get.pure (if s = 1 then -(n : Int) else (n : Int))

/-- n values of a reader. -/
def getN {α : Type} (g : Get α) : Nat → Get (List α)
  | 0 => Get.pure []
  | n + 1 => Get.next g fun a => Get.next (getN g n) fun l => Get.pure (a :: l)

/-- A list after its length, which the words that follow must be able to hold. -/
def getList {α : Type} (g : Get α) : Get (List α) := fun ws => match ws with
  | [] => none
  | n :: rest => if rest.length < n then none else getN g n rest

/-- Bytes as words. -/
def bytesNat (bs : List Byte) : List Nat := (List.range (bs.length / 8)).map fun i => wnat bs i

/-- Bytes filled with zeros to a multiple of m. -/
def padTo (m : Nat) (bs : List Byte) : List Byte := bs ++ zeros (roundUp bs.length m - bs.length)

/-! ### Progress records (Table 14.6) -/

/-- A progress record: type, key, body. -/
structure PRec where
  type : Nat
  key : Nat
  body : List Byte
  deriving DecidableEq, Repr

/-- Its bytes: the 16-byte header and the body, filled to 16 bytes. -/
def PRec.bytes (r : PRec) : List Byte :=
  leBytes 8 (r.type * 2 ^ 56 + r.body.length % 2 ^ 56) ++ leBytes 8 r.key ++ padTo 16 r.body

/-- What the STAGE record of a command holds: its place in its ring, its class, flags and counts, and the progress of its
current stage that no other record type names. -/
def stageWords (first count : Nat) (e : Entry) : List Nat :=
  let r := e.run
  let ptr (p : PtrEntry) : List Nat := [p.x, p.w, p.y, p.len, b2n p.lenEn]
  [count, e.ring - first, e.pkt.index, b2n e.lc + 2 * b2n e.begun + 4 * b2n e.under + 8 * b2n e.sat + 16 * b2n r.started, e.stage, e.edges] ++
  putNat e.spills ++ putNat e.core ++ [e.seed, e.step0, e.detail, r.items] ++
  putList (fun c => [c]) r.counters ++ putList (fun c => [c]) r.reissue ++
  putList putInt r.anchors ++ putList ptr r.ptrs ++
  putList (fun (w : Word) => [w.toNat]) r.aux ++
  putList (fun (a : StatAcc) => [a.maxX, a.maxW, a.maxY, a.satP, a.underP, a.satO, a.underO].flatMap putNat) r.stats ++
  putList (fun (c : Cand) => [c.entry, c.pos] ++ putInt c.num ++ putNat c.den ++ [c.idx]) r.cands ++
  putList (fun (g : GroupRun) => putList (fun (w : Word) => [w.toNat]) g.words ++ putInt g.maxNum ++ putNat g.maxDen ++
    putList putInt g.rowSums ++ putList putInt g.colSums ++ [g.eta, g.lam]) r.groups ++
  putList ptr e.srcPtrs ++
  putList (fun (p : Partial) => p.key :: putList putInt p.vals ++ putNat p.sat ++ putNat p.under) r.parts ++
  putList (fun h => [h]) r.acq ++ [b2n e.lap2Sent, r.peaks.foldl (fun m p => max m p.2) 0]

/-- Bits of a list of numbers below n, as 64-bit words. -/
def bitWords (n : Nat) (l : List Nat) : List Nat := limbs (ceilDiv n 64) (listMask (l.filter fun i => decide (i < n)))

/-- The progress of an entry that a save keeps: yielded items are issued again, and slice partials not yet added stay (R157, R366). -/
def keptRun (r : StageRun) : StageRun :=
  { r with claims := [], reissue := r.reissue ++ r.claims.map (·.item), welt := [], arrays := [], feeds := [] }

/-- The progress records of a kept command. -/
def progressOf (first : Nat) (e0 : Entry) : List PRec :=
  let e := { e0 with run := keptRun e0.run }
  let r := e.run
  let blocks := r.commits.foldl (fun m b => max m (b + 1)) 0
  let rest : List PRec :=
    (if r.started then [⟨2, e.stage, natBytes ([r.items, blocks] ++ bitWords r.items (r.done.map (·.item)) ++ bitWords r.items r.adds ++
      bitWords blocks r.commits)⟩] else []) ++
    r.red.map (fun p => ⟨3, p.key, natBytes (p.vals.map (toTwos 64) ++ [p.sat, p.under])⟩) ++
    (if e.handover = [] then [] else [⟨4, e.stage - 1, e.handover⟩]) ++
    (if r.outBuf = [] then [] else [⟨4, e.stage, r.outBuf⟩]) ++
    (if e.ret = [] then [] else [⟨4, 16, e.ret⟩]) ++
    r.seams.map (fun x => ⟨5, x.entry * 2 ^ 32 + x.chunk,
      natBytes ([b2n x.arrived, toTwos 64 x.carry.a, x.carry.cnt, x.carry.pos] ++ x.carry.v.map (toTwos 64))⟩) ++
    r.gates.map (fun g => ⟨6, g.entry * 2 ^ 32 + g.pos, natBytes (g.col :: g.vals)⟩) ++
    r.sweeps.map (fun x => ⟨7, x.1, natBytes [x.2.1, x.2.2]⟩) ++
    r.scores.map (fun x => ⟨8, x.grp * 2 ^ 32 + x.page, natBytes (x.row :: x.vals)⟩)
  ⟨1, e.stage, natBytes (stageWords first rest.length e)⟩ :: rest

/-- A kept command: header and payload as fetched, then its progress records. -/
def commandBytes (first : Nat) (e : Entry) : List Byte :=
  wordsBytes e.pkt.hdr ++ padTo 64 e.pkt.payload ++ padTo 64 ((progressOf first e).flatMap PRec.bytes)

/-! ### Sections (Table 14.5) -/

/-- What the image says of one ring. -/
structure RingImg where
  head : Nat
  tail : Nat
  state : Nat
  sh : Nat
  chain : Nat
  depth : Nat
  deriving DecidableEq, Repr

/-- A ring's 16 bytes. -/
def RingImg.bytes (r : RingImg) : List Byte :=
  leBytes 8 (r.head % 2 ^ 32 * 2 ^ 32 + r.tail % 2 ^ 32) ++
  leBytes 8 (r.state * 2 ^ 61 + r.chain % 2 ^ 22 * 2 ^ 39 + r.depth % 2 ^ 7 * 2 ^ 32 + r.sh % 2 ^ 32)

/-- What the image says of one slot: kind 0 state, 1 snapshot; kind 2 is a handle whose parked state lies in another
handle's image, named in pos. -/
structure SlotImg where
  handle : Nat
  kind : Nat
  d : Nat
  a : Int
  since : Nat
  pos : Nat
  refs : List Nat
  vals : List Int
  deriving DecidableEq, Repr

/-- A slot's bytes. -/
def SlotImg.bytes (x : SlotImg) : List Byte :=
  natBytes [x.handle % 2 ^ 32 * 2 ^ 32 + x.kind, x.refs.length * 2 ^ 32 + x.d % 2 ^ 32, toTwos 16 x.a * 2 ^ 48 + x.since % 2 ^ 24,
    x.pos] ++ x.refs.flatMap (fun h => leBytes 4 h) ++ x.vals.flatMap fun v => leBytes 8 (toTwos 64 v)

/-- A pending record: 64-byte header with irq and the teardown that follows it in word 7, and payload. -/
def recordBytes (r : Record) : List Byte :=
  wordsBytes (r.words ++ [BitVec.ofNat 64 (b2n r.irq + (match r.tear with
    | some c => (c + 1) * 2 ^ 8
    | none => 0))]) ++ padTo 64 r.payload

/-- The contents of an image. -/
structure Img where
  tick : Nat
  cls : Nat
  discard : Bool
  budget : Nat
  rings : List RingImg
  recs : List Record
  cmds : List (Packet × List PRec)
  slots : List SlotImg

/-- The bytes of an image (Table 14.5); the count of pending records stands in word 3 [63:40]. -/
def imageOf (tick cls : Nat) (discard : Bool) (budget first : Nat) (rings : List RingImg) (recs : List Record)
    (cmds : List Entry) (slots : List SlotImg) : List Byte :=
  let body := padTo 64 (rings.flatMap RingImg.bytes) ++ recs.flatMap recordBytes ++ cmds.flatMap (commandBytes first) ++
    padTo 64 (slots.flatMap SlotImg.bytes)
  natBytes [0x43545853 * 2 ^ 32 + 2 ^ 16, 64 + body.length,
    tick % 2 ^ 32 * 2 ^ 32 + rings.length * 2 ^ 13 + cls * 2 ^ 12 + b2n discard * 2 ^ 11, recs.length * 2 ^ 40 + budget % 2 ^ 40,
    cmds.length * 2 ^ 32 + slots.length, 0, 0, 0] ++ body

/-! ### Reading an image -/

/-- A reader of bytes that gives a value and the rest. -/
abbrev Cut (α : Type) := List Byte → Option (α × List Byte)

/-- n values of a cut, one after another. -/
def cutN {α : Type} (g : Cut α) : Nat → Cut (List α)
  | 0, bs => some ([], bs)
  | n + 1, bs => (g bs).bind fun x => (cutN g n x.2).map fun y => (x.1 :: y.1, y.2)

/-- n bytes, then the fill to a multiple of m. -/
def cutBytes (n m : Nat) : Cut (List Byte) := fun bs =>
  if bs.length < roundUp n m then none else some (bs.take n, bs.drop (roundUp n m))

/-- A progress record. -/
def cutPRec : Cut PRec := fun bs => (cutBytes 16 16 bs).bind fun h =>
  (cutBytes (bits (wnat h.1 0) 55 0) 16 h.2).map fun b => (⟨bits (wnat h.1 0) 63 56, wnat h.1 1, b.1⟩, b.2)

/-- A command: its packet, its STAGE record and the records that one counts; then the fill to 64 bytes. -/
def cutCommand : Cut (Packet × List PRec) := fun bs => (cutBytes 64 64 bs).bind fun h =>
  let hdr := headerOf h.1
  (cutBytes (fld (hdr.getD 0 0) 18 0) 64 h.2).bind fun p => (cutPRec p.2).bind fun r =>
    if r.1.type ≠ 1 then none
    else (cutN cutPRec (wnat r.1.body 0) r.2).map fun rs =>
      let used := p.2.length - rs.2.length
      ((⟨hdr, p.1, wnat r.1.body 2⟩, r.1 :: rs.1), rs.2.drop (roundUp used 64 - used))

/-- A pending record. -/
def cutRecord : Cut Record := fun bs => (cutBytes 64 64 bs).bind fun h =>
  let w := headerOf h.1
  (cutBytes (fld (w.getD 0 0) 18 0) 64 h.2).map fun p =>
    let t := fld (w.getD 7 0) 63 8
    (⟨0, w.take 7, p.1, decide (fld (w.getD 7 0) 0 0 = 1), if t = 0 then none else some (t - 1)⟩, p.2)

/-- A slot. -/
def cutSlot : Cut SlotImg := fun bs => (cutBytes 32 32 bs).bind fun h =>
  let w1 := wnat h.1 1
  let w2 := wnat h.1 2
  let d := bits w1 31 0
  let n := bits w1 63 32
  let kind := bits (wnat h.1 0) 31 0
  let nv := if kind = 2 then 0 else d
  (cutBytes (4 * n) 4 h.2).bind fun r => (cutBytes (8 * nv) 8 r.2).map fun v =>
    (⟨bits (wnat h.1 0) 63 32, kind, d, sext 16 (bits w2 63 48), bits w2 23 0, wnat h.1 3,
      (List.range n).map (fun i => leNat ((r.1.drop (4 * i)).take 4)), imageVals nv v.1⟩, v.2)

/-- A ring. -/
def cutRing : Cut RingImg := fun bs => (cutBytes 16 16 bs).map fun h =>
  let w0 := wnat h.1 0
  let w1 := wnat h.1 1
  (⟨bits w0 63 32, bits w0 31 0, bits w1 63 61, bits w1 31 0, bits w1 60 39, bits w1 38 32⟩, h.2)

/-- An image whose magic and format are right, read from its bytes. -/
def readImg (bs : List Byte) : Option Img :=
  let w0 := wnat bs 0
  let w2 := wnat bs 2
  let w3 := wnat bs 3
  let w4 := wnat bs 4
  let n := bits w2 31 13
  if bits w0 63 32 ≠ 0x43545853 ∨ bits w0 31 16 ≠ 1 ∨ wnat bs 1 ≠ bs.length then none
  else (cutN cutRing n (bs.drop 64)).bind fun r =>
    (cutN cutRecord (bits w3 63 40) (r.2.drop (roundUp (16 * n) 64 - 16 * n))).bind fun p =>
    (cutN cutCommand (bits w4 63 32) p.2).bind fun c => (cutN cutSlot (bits w4 31 0) c.2).map fun x =>
      ⟨bits w2 63 32, bits w2 12 12, decide (bits w2 11 11 = 1), bits w3 39 0, r.1, p.1, c.1, x.1⟩

/-! ### A kept command read back -/

/-- The array number of items finished before the save: no array of the part. -/
abbrev goneArray : Nat := 2 ^ 16

/-- Numbers whose bit is set in words. -/
def wordBits (n : Nat) (ws : List Nat) : List Nat := maskList n (limbsNat ws)

/-- A pointer-list entry. -/
def getPtr : Get PtrEntry :=
  Get.next getW fun x => Get.next getW fun w => Get.next getW fun y => Get.next getW fun l => Get.next getW fun en =>
    Get.pure ⟨x, w, y, l, decide (en = 1)⟩

/-- The progress a STAGE record's words hold, from the counters on, and the pointer list of the stage before. -/
def getRun (started : Bool) (items : Nat) : Get (StageRun × List PtrEntry) :=
  Get.next (getList getW) fun counters => Get.next (getList getW) fun reissue =>
  Get.next (getList getInt) fun anchors =>
  Get.next (getList getPtr) fun ptrs =>
  Get.next (getList getW) fun aux =>
  Get.next (getList (Get.next getNat fun a => Get.next getNat fun b => Get.next getNat fun c => Get.next getNat fun d =>
    Get.next getNat fun e => Get.next getNat fun f => Get.next getNat fun g => Get.pure (⟨a, b, c, d, e, f, g⟩ : StatAcc))) fun stats =>
  Get.next (getList (Get.next getW fun e => Get.next getW fun p => Get.next getInt fun n => Get.next getNat fun d =>
    Get.next getW fun i => Get.pure (⟨e, p, n, d, i⟩ : Cand))) fun cands =>
  Get.next (getList (Get.next (getList getW) fun ws => Get.next getInt fun n => Get.next getNat fun d =>
    Get.next (getList getInt) fun rs => Get.next (getList getInt) fun cs => Get.next getW fun eta => Get.next getW fun lam =>
    Get.pure (⟨ws.map (BitVec.ofNat 64), n, d, rs, cs, eta, lam⟩ : GroupRun))) fun groups =>
  Get.next (getList getPtr) fun src =>
  Get.next (getList (Get.next getW fun k => Get.next (getList getInt) fun vs => Get.next getNat fun a => Get.next getNat fun b =>
    Get.pure (⟨k, vs, a, b⟩ : Partial))) fun parts =>
  Get.next (getList getW) fun acq => Get.next getW fun lap => Get.next getW fun peak =>
  Get.pure ({ StageRun.idle with
    started := started, items := items, counters := counters, reissue := reissue, anchors := anchors, ptrs := ptrs
    aux := aux.map (BitVec.ofNat 64), stats := stats, cands := cands, groups := groups, parts := parts, acq := acq
    blocks := if lap = 1 then [(2, 0, 0)] else [], peaks := [(0, peak)] }, src)

/-- Add what another progress record holds. -/
def addRec (stage : Nat) (e : Entry) (r : PRec) : Entry :=
  let ws := bytesNat r.body
  let run := e.run
  if r.type = 2 then
    let n := ws.getD 0 0
    let k := ceilDiv n 64
    { e with run := { run with
      done := (wordBits n ((ws.drop 2).take k)).map fun i => ⟨goneArray, i⟩
      adds := wordBits n ((ws.drop (2 + k)).take k)
      commits := wordBits (ws.getD 1 0) (ws.drop (2 + 2 * k)) } }
  else if r.type = 3 then
    let n := ws.length - 2
    { e with run := { run with red := run.red ++ [⟨r.key, (ws.take n).map (sext 64), ws.getD n 0, ws.getD (n + 1) 0⟩] } }
  else if r.type = 4 then
    if r.key = 16 then { e with ret := r.body }
    else if r.key = stage then { e with run := { run with outBuf := r.body } }
    else { e with handover := r.body }
  else if r.type = 5 then
    { e with run := { run with seams := run.seams ++ [⟨r.key / 2 ^ 32, r.key % 2 ^ 32,
      ⟨(ws.drop 4).map (sext 64), sext 64 (ws.getD 1 0), ws.getD 2 0, ws.getD 3 0⟩, decide (ws.getD 0 0 = 1)⟩] } }
  else if r.type = 7 then { e with run := { run with sweeps := run.sweeps ++ [(r.key, ws.getD 0 0, ws.getD 1 0)] } }
  else if r.type = 6 then
    { e with run := { run with gates := run.gates ++ [⟨r.key / 2 ^ 32, r.key % 2 ^ 32, ws.headD 0, ws.drop 1⟩] } }
  else if r.type = 8 then
    { e with run := { run with scores := run.scores ++ [⟨r.key / 2 ^ 32, r.key % 2 ^ 32, ws.headD 0, ws.drop 1⟩] } }
  else e

/-- The entry a kept command becomes: number id, context n with first ring `first`, bound to the current interval (R372). -/
def readEntry (id n part first tick : Nat) (p : Packet) : List PRec → Option Entry
  | [] => none
  | st :: rest =>
    let ws := bytesNat st.body
    let fl := ws.getD 3 0
    let stage := ws.getD 4 0
    (getNat (ws.drop 6)).bind fun sp => (getNat sp.2).bind fun co =>
      let m := co.2
      (getRun (fl.testBit 4) (m.getD 3 0) (m.drop 4)).map fun r =>
        rest.foldl (addRec stage)
          { id := id, ctx := n, ring := first + ws.getD 1 0, part := part, pkt := p, lc := fl.testBit 0, admitTick := tick,
            held := none, begun := fl.testBit 1, stage := stage, run := { r.1.1 with startTick := tick }, handover := [], srcPtrs := r.1.2, space := [], ret := [],
            under := fl.testBit 2, sat := fl.testBit 3, spills := sp.1, core := co.1, seeded := true, paged := true, seed := m.getD 0 0, step0 := m.getD 1 0,
            edges := ws.getD 5 0, detail := m.getD 2 0, recvd := [], stagedVals := [], stagedRaw := [], done := false }

end Sys2Proof.Machine
end

