-- ==== Sys2Proof/Machine/Migration.lean ====
section
/-!
DEFINITION. Memory's own commands (11_memory_tiers.md): BAR4 accesses, class changes, invalidations, the free-frame stacks,
MIGRATE and the migration engine, refresh, the patrol scrubber, margining, recalibration, and the KV pool of a context
(R211).
-/
namespace Sys2Proof.Machine

/-- Function fn acts for partition p: its own function or the physical function (R356). -/
def State.actsFor (s : State) (fn p : Nat) : Bool := s.fnOn fn && decide (fn = 0 ∨ s.hol.cur.partOfFn fn = some p)

/-- A 2 MiB frame: its size, its number, its first address. -/
abbrev frameSize : Nat := 2 ^ 21
@[inherit_doc frameSize] def frameOf (pa : Nat) : Nat := pa / frameSize
@[inherit_doc frameSize] def frameAddr (f : Nat) : Nat := f * frameSize

/-! ### BAR4 (R276, R294) -/

/-- The partition whose memory holds every byte from pa to pa + n − 1, within one 4 KiB page. -/
def State.ownerOfRange (s : State) (pa n : Nat) : Option Nat :=
  if s.hol.cur.ownerOf pa = s.hol.cur.ownerOf (pa + n - 1) then s.hol.cur.ownerOf pa else none

/-- Function fn reaches n bytes at pa through BAR4: below its BAR's size, in backed memory, a virtual function only in its
own partition; memory that is unavailable is not reached (log entry 21). -/
def State.bar4Reach (s : State) (fn pa n : Nat) : Option Nat :=
  match s.ownerOfRange pa n with
  | none => none
  | some p =>
    if s.live ∧ pa + n ≤ 2 ^ (s.fn fn).bar4Log ∧ s.actsFor fn p ∧ s.reachOk pa n then some p else none

/-- A BAR4 read that is made now (R276, R286, R292 to R294). -/
def bar4Get (s : State) (fn addr len : Nat) : State := match s.bar4Reach fn addr len with
  | none => respond (logAer s (.unsupportedRequest fn addr)) .unsupportedRequest
  | some p =>
    let s1 := readPhys s p addr len none
    match s.badUnit addr len with
    | some (u, _) => respond (logAer s1 (.uncorrectableInternal fn u)) .completerAbort
    | none => respond s1 (.data (s.phys addr len))

/-- A BAR4 write that is made now (R171, R198, R208, R257, R276, R291, R294, R353). -/
def bar4Put (s : State) (fn addr : Nat) (bytes : List Byte) : State := match s.bar4Reach fn addr bytes.length with
  | none => logAer s (.unsupportedRequest fn addr)
  | some p =>
    let s0 := hostWrote s (storePhys s p addr bytes none) [(addr, bytes.length)] none
    let s1 := (s.packetOwners addr bytes.length).foldl (fun s c => unpredictable s (.ctx c)) s0
    match s.refusesUnit addr bytes.length with
    | some (u, _) => logAer s1 (.uncorrectableInternal fn u)
    | none => s1

/-- A BAR4 access waits for a clear (R289). -/
def barWaits (s : State) (w : BarWait) : State := s.putMem { s.mem with waiting := s.mem.waiting ++ [w] }

/-- BAR4_READ: zeros in BOOT and TRAIN (R408); a frame being cleared makes it wait (R289). -/
def execBar4Read (fn addr len : Nat) (s : State) : Out State :=
  .next (
    if s.devState < 2 then s
    else if s.devState < 4 then respond s (.data (zeros len))
    else if s.clears addr len then barWaits s ⟨fn, addr, len, none⟩
    else bar4Get s fn addr len)

/-- BAR4_WRITE: ignored in BOOT and TRAIN (R408); a frame being cleared makes it wait (R289). -/
def execBar4Write (fn addr : Nat) (bytes : List Byte) (s : State) : Out State :=
  .next (
    if s.devState < 4 then s
    else if s.clears addr bytes.length then barWaits s ⟨fn, addr, bytes.length, some bytes⟩
    else bar4Put s fn addr bytes)

/-- The BAR4 accesses that no clear holds any longer are made, in the order they came. -/
def barResume (s : State) : State :=
  let free (w : BarWait) : Bool := !s.clears w.addr w.len
  (s.mem.waiting.filter free).foldl (fun s w => match w.write with
    | some bs => bar4Put s w.fn w.addr bs
    | none => bar4Get s w.fn w.addr w.len) (s.putMem { s.mem with waiting := s.mem.waiting.filter fun w => !free w })

/-! ### Class changes (R289, R308, R309) -/

/-- A table of n entries at tbl, whose leaves map 2^shift bytes, reaches frame f (Table 11.6). -/
def tableReaches (s : State) (f : Nat) : List Nat → Nat → Nat → Bool
  | [], _, _ => false
  | shift :: rest, tbl, n => (List.range n).any fun i =>
    let e := s.physNat (tbl + 8 * i)
    let addr := bits e 47 12 * 4096
    e.testBit 63 && decide (bits e 47 39 = 0) &&
      (if e.testBit 62 then overlaps addr (2 ^ shift) (frameAddr f) frameSize else tableReaches s f rest addr 512)

/-- Context c's translations reach frame f (R296). -/
def State.ctxReaches (s : State) (c f : Nat) : Bool :=
  tableReaches s f [39, 30, 21, 12] (s.fldR (Reg.CTX_PT_ROOT c) 51 16 * 2 ^ 16) 8192

/-- An admitted command can reach frame f (R289). -/
def State.frameReached (s : State) (f : Nat) : Bool :=
  s.flight.any fun e => !e.done && s.ctxReaches e.ctx f

/-- The class register and bit of a frame. -/
def classPlace (pa : Nat) : Nat × Nat :=
  if pa < nearTop then
    let f := pa % vaultSize / frameSize
    (Reg.MEM_CLASS (pa / vaultSize) (f / 32), 2 * (f % 32))
  else
    let f := (pa - bulkBase) / frameSize
    (Reg.BLK_CLASS (f / 32), 2 * (f % 32))

/-- Set the class of a frame. -/
def setClass (s : State) (pa cls : Nat) : State :=
  s.setF (classPlace pa).1 ((classPlace pa).2 + 1) (classPlace pa).2 cls

/-- Change the class of the frame at pa: 0b11 and the class it has do nothing; another class clears the frame under it
(R289). Doing so to a frame an admitted command can reach is a host error within its partition. -/
def changeClass (s : State) (pa cls : Nat) : State :=
  if cls = 3 ∨ s.classOf pa = cls then s
  else
    let s1 := clearPhys (setClass (dropPagesWritten s (pagesIn pa frameSize)) pa cls) pa (pa + frameSize)
    let s2 := s1.putMem { s1.mem with clearing := s1.mem.clearing.filter (fun f => decide (f ≠ frameOf pa)) ++ [frameOf pa] }
    match s.hol.cur.ownerOf pa with
    | some p => if s.frameReached (frameOf pa) then unpredictable s2 (.part p) else s2
    | none => s2

/-- Write the 32 class fields of the frames from pa on. -/
def writeClasses (s : State) (pa : Nat) (value : Word) : State :=
  (List.range 32).foldl (fun s f => changeClass s (pa + f * frameSize) (fld value (2 * f + 1) (2 * f))) s

/-- MEM_CLASS_WRITE (R289, R308, Table 11.13). -/
def execMemClassWrite (fn vault index : Nat) (value : Word) (s : State) : Out State :=
  .next (
    if !s.live ∨ 64 ≤ vault ∨ 48 ≤ index then s
    else if fn = 0 ∨ (s.hol.cur.partOfFn fn).isSome ∧ s.hol.cur.partOfCore vault = s.hol.cur.partOfFn fn then
      writeClasses s (vault * vaultSize + index * 32 * frameSize) value
    else s)

/-- BLK_CLASS_WRITE (R289, R309). -/
def execBlkClassWrite (fn index : Nat) (value : Word) (s : State) : Out State :=
  let pa := bulkBase + index * 32 * frameSize
  .next (
    if !s.live ∨ 4096 ≤ index then s
    else if fn = 0 ∨ (s.hol.cur.partOfFn fn).isSome ∧ s.hol.cur.sliceOf pa = s.hol.cur.partOfFn fn then writeClasses s pa value
    else s)

/-- CLASS_CLEAR_COMPLETE: the clear of a frame ends, and the accesses that waited for it are made (R289). -/
def execClassClearComplete (frame : Nat) (s : State) : Out State :=
  .next (barResume (s.putMem { s.mem with clearing := s.mem.clearing.filter fun f => decide (f ≠ frame) }))

/-! ### Invalidations (R298, R310) -/

/-- MIG_INVAL: the write starts an invalidation; COUNT zero with ALL clear is nothing (Table 11.15). -/
def execMigInval (fn : Nat) (value : Word) (s : State) : Out State :=
  let c := fld value 63 52
  let all := decide (fld value 51 51 = 1)
  .next (
    if !s.live ∨ !s.mayAct fn c ∨ (!all ∧ fld value 7 0 = 0) then s
    else (s.putMig { s.mig with inval := s.mig.inval ++ [(c, all, fld value 47 8, fld value 7 0)] }))

/-- MIG_INVAL_COMPLETE: the oldest invalidation completes, and the retained ranges it covers are dropped (R298). -/
def execMigInvalComplete (s : State) : Out State :=
  .next (match s.mig.inval with
    | [] => s
    | (c, all, vpn, n) :: rest =>
      let s1 := s.putMig { s.mig with inval := rest }
      if all then dropRetained s1 c 0 (2 ^ 52) else dropRetained s1 c (vpn * 4096) (n * 4096))

/-! ### The free-frame stacks (R304, Tables 11.19 to 11.21) -/

/-- Frames on a stack (tier 0 near, 1 bulk) of partition p. -/
def State.stackLen (s : State) (p t : Nat) : Nat :=
  if t = 0 then s.fldR (Reg.MIG_COUNT p) 63 32 else s.fldR (Reg.MIG_COUNT p) 31 0

/-- Set it. -/
def setStackLen (s : State) (p t n : Nat) : State :=
  if t = 0 then s.setF (Reg.MIG_COUNT p) 63 32 n else s.setF (Reg.MIG_COUNT p) 31 0 n

/-- Address of entry i of a stack. -/
def State.stackVa (s : State) (p t i : Nat) : Nat := s.fldR (Reg.MIG_STACK p t) 47 3 * 8 + 8 * i

/-- Entry i lies in class C memory of the partition that can be reached (R304). -/
def State.stackOk (s : State) (p t i : Nat) : Bool :=
  let a := s.stackVa p t i
  decide (s.hol.cur.ownerOf a = some p) && decide (s.classOf a = 0) && s.physOk a

/-- The frame addresses on a stack, bottom first; an entry holds the frame's address (log entry 22). -/
def State.stackFrames (s : State) (p t : Nat) : List Nat :=
  (List.range (s.stackLen p t)).map fun i => frameAddr (bits (s.physNat (s.stackVa p t i)) 38 21)

/-- Push a frame: beyond CAP it is ignored and PUSH_REJECT set; a stack outside class C memory of its partition is a host
error within it. -/
def pushFrame (s : State) (p t pa : Nat) : State :=
  let n := s.stackLen p t
  if s.fldR (Reg.MIG_STACK p t) 63 48 ≤ n then s.setF Reg.MIG_STAT 62 62 1
  else if !s.stackOk p t n then unpredictable s (.part p)
  else setStackLen (storePhys s p (s.stackVa p t n) (leBytes 8 pa) none) p t (n + 1)

/-- Pop the top frame of a stack: an empty stack holds whoever needs it, as a stack in unavailable memory does; a stack outside class C
memory of its partition is a host error; an entry that cannot be read is an error of its data, which has no virtual address
(a free value). -/
def popFrame (s : State) (p t : Nat) : Except MErr (State × Nat) :=
  let n := s.stackLen p t
  let a := s.stackVa p t (n - 1)
  if n = 0 then .error .unavail
  else if s.clears a 8 then .error .wait
  else if s.hol.cur.ownerOf a = some p ∧ !s.physOk a then .error .unavail
  else if !s.stackOk p t (n - 1) then .error .host
  else match s.badUnit a 8 with
    | some (_, st) => .error (.data st (Config.freeNat s.free % 2 ^ 52))
    | none => .ok (setStackLen (readPhys s p a 8 none) p t (n - 1), frameAddr (bits (s.physNat a) 38 21))

/-- The accounting of a pop that failed: the entry's error, and the free value its address took. -/
def popFailed (s : State) (p t : Nat) : State := (readPhys s p (s.stackVa p t (s.stackLen p t - 1)) 8 none).putFree (s.free + 1)

/-- Pop n frames, top first. -/
def popFrames (s : State) (p t : Nat) : Nat → Except MErr (State × List Nat)
  | 0 => .ok (s, [])
  | n + 1 => match popFrame s p t with
    | .error x => .error x
    | .ok x => (popFrames x.1 p t n).map fun y => (y.1, x.2 :: y.2)

/-- A frame is in use: already on a stack of the partition, or mapped by an open context of it (R304). -/
def State.frameInUse (s : State) (p pa : Nat) : Bool :=
  (s.stackFrames p 0 ++ s.stackFrames p 1).contains pa ||
  s.openCtxs.any fun c => decide (s.ctxPart c = p) && s.ctxReaches c (frameOf pa)

/-- MIG_PUSH (R304, R310): a frame outside the partition or of the wrong tier is ignored and sets PUSH_REJECT; pushing a
frame in use is a host error within the partition. -/
def execMigPush (fn part : Nat) (value : Word) (s : State) : Out State :=
  let t := fld value 63 63
  let pa := frameAddr (fld value 38 21)
  .next (
    if !s.live ∨ 16 ≤ part ∨ !s.actsFor fn part then s
    else if s.hol.cur.ownerOf pa ≠ some part ∨ s.hol.cur.ownerOf (pa + frameSize - 1) ≠ some part ∨ isBulk pa ≠ decide (t = 1) then
      s.setF Reg.MIG_STAT 62 62 1
    else
      let s1 := pushFrame s part t pa
      if s.frameInUse part pa then unpredictable s1 (.part part) else s1)

/-! ### Moves (R300 to R303) -/

/-- The page table's address field replaced (Table 11.6). -/
def withAddr (entry pa : Nat) : Nat := entry - bits entry 47 12 * 2 ^ 12 + pa

/-- Move one frame's bytes: the target takes the source's class and contents, errors of the target replaced (R302). -/
def copyFrame (s : State) (src dst : Nat) : State :=
  let s1 := clearPhys (setClass s dst (s.classOf src)) dst (dst + frameSize)
  let moved := s.mem.cells.filter fun c => decide (src ≤ c.1 ∧ c.1 < src + frameSize)
  s1.putMem { s1.mem with cells := moved.foldl (fun m c => spSet 0 m (c.1 - src + dst) c.2) s1.mem.cells }

/-- The cache lines of a frame, when it is a bulk frame. -/
def touchLines (s : State) (p pa : Nat) (write : Bool) (ctx : Nat) : State :=
  if isBulk pa then (List.range 4096).foldl (fun s i => cacheLine s p (pa / 512 + i) write write (some ctx)) s else s

/-- A line is dropped without a write-back: what its storage holds is what is left, of a dirty line older contents, which are free
values (R302). -/
def dropLine (s : State) (c : CacheLine) : State :=
  let rest := s.mem.cache.filter fun d => decide (d.line ≠ c.line)
  if c.dirty then
    (s.putMem { s.mem with
          cache := rest
          cells := storeBytes s.mem.cells (512 * c.line) ((List.range 512).map fun i => BitVec.ofNat 8 (Config.freeNat (s.free + i))) }).putFree
      (s.free + 512)
  else evict s c

/-- Drop the cache lines of a frame. -/
def dropLines (s : State) (pa : Nat) : State :=
  (s.mem.cache.filter fun c => decide (c.line / 4096 = frameOf pa)).foldl dropLine s

/-- Take a move from the queue. -/
def dropMove (s : State) (m : Move) : State := s.putMig { s.mig with queue := s.mig.queue.erase m }

/-- Tier code of a move's target. -/
def Move.tier (m : Move) : Nat := b2n m.toBulk

/-- A move is abandoned: its target is pushed back and ABANDONED counts it (R302, R303). -/
def abandonMove (s : State) (m : Move) (target : Nat) : State :=
  (pushFrame (dropMove s m) m.part m.tier target).addF Reg.MIG_STAT 31 0 1

/-- A MIGRATE whose moves have all gone completes OK. -/
def finishMigrate (s : State) (id : Nat) : State :=
  if s.mig.queue.any fun x => decide (x.cmd = some id) then s else finishControl s s id { status := 0 }

/-- The MIGRATE of a move completes with its last move. -/
def settleMigrate (s : State) (m : Move) : State := match m.cmd with
  | some id => finishMigrate s id
  | none => s

/-- A MIGRATE whose move met an error fails: its moves left are dropped and their targets pushed back (R300, R303). -/
def failMigrate (s : State) (m : Move) (status va : Nat) : State := match m.cmd with
  | some id =>
    let rest := s.mig.queue.filter fun x => decide (x.cmd = some id)
    let s1 := rest.foldl (fun s x => pushFrame s x.part x.tier (x.target.getD 0))
      (s.putMig { s.mig with queue := s.mig.queue.filter fun x => decide (x.cmd ≠ some id) })
    complete s1 id { status := status, addr := va }
  | none => s

/-- A move that meets an error its reads cannot correct is abandoned; the MIGRATE it belongs to fails (R303). -/
def moveError (s : State) (m : Move) (dst st va : Nat) : State := failMigrate (abandonMove s m dst) m st va

/-- The move once its target is taken: checked, copied, the leaf rewritten, invalidated, the source pushed (R302). -/
def runMove (s : State) (m : Move) (dst : Nat) : State :=
  let s0 := readPhys s m.part m.entryPa 8 (some m.ctx)
  if (s.badUnit m.entryPa 8).isSome then moveError s0 m dst 4 m.va
  else if s.physNat m.entryPa ≠ m.entryVal then settleMigrate (abandonMove s0 m dst) m
  else
    let s1 := noteRead (touchLines s0 m.part m.src false m.ctx) m.src frameSize (some m.ctx)
    match s.badUnit m.src frameSize with
    | some (u, st) => moveError s1 m dst st (m.va + (u - m.src))
    | none =>
      let s2 := copyFrame (touchLines (dropPagesWritten s1 (pagesIn dst frameSize)) m.part dst true m.ctx) m.src dst
      let s3 := storePhys s2 m.part m.entryPa (leBytes 8 (withAddr m.entryVal dst)) (some m.ctx)
      let s4 := dropLines (dropRetained s3 m.ctx m.va frameSize) m.src
      let s5 := s4.putMem { s4.mem with leaves := s4.mem.leaves.filter fun x => decide (x.1 ≠ frameOf m.src) }
      let s6 := pushFrame (dropMove s5 m) m.part (1 - m.tier) m.src
      let s7 := if m.toBulk then s6.addF Reg.MIG_MOVES 31 0 1 else s6.addF Reg.MIG_MOVES 63 32 1
      settleMigrate s7 m

/-- The frame a move takes when it starts: the one its MIGRATE took at admission, or the top of the target stack (R300, R301). -/
def moveTarget (s : State) (m : Move) : Except MErr (State × Nat) := match m.target with
  | some pa => .ok (s, pa)
  | none => popFrame s m.part m.tier

/-- A move that cannot take its target: an empty stack drops it, as does an entry in error; one outside class C memory is a host
error; a clear is waited for (R289, R301, R304). -/
def moveDropped (s : State) (m : Move) : MErr → State
  | .wait => s
  | .data .. => dropMove (popFailed s m.part m.tier) m
  | .host => unpredictable (dropMove s m) (.part m.part)
  | _ => dropMove s m

/-- MIGRATION_MOVE: the first queued move of a partition runs; one whose target stack is empty is dropped, one that meets
unavailable memory or a frame being cleared waits (R280, R289, R301 to R303). -/
def execMigrationMove (part : Nat) (s : State) : Out State :=
  .next (match s.mig.queue.find? fun m => decide (m.part = part) with
    | none => s
    | some m =>
      if !s.live ∨ !s.partOn part then s
      else match moveTarget s m with
        | .error x => moveDropped s m x
        | .ok (s1, dst) =>
          if s.clears m.src frameSize ∨ s.clears dst frameSize ∨ s.clears m.entryPa 8 then s
          else if s.reachOk m.src frameSize ∧ s.reachOk dst frameSize ∧ s.physOk m.entryPa then runMove s1 m dst
          else match m.cmd with
            | some id => holdEntry s id
            | none => s)

/-- The page of a MIGRATE at va: the move it needs, none when the page lies in the target tier already. A page that is
not a 2 MiB leaf is a host error. -/
def migratePage (s : State) (e : Entry) (va : Nat) : Except MErr (Option Move) :=
  match translate s e.ctx va false with
  | .error x => .error x
  | .ok l =>
    let bulk := decide (fld (e.pkt.w 5) 0 0 = 1)
    let src := bits l.entry 47 12 * 4096
    if l.shift ≠ 21 then .error .host
    else if isBulk src = bulk then .ok none
    else .ok (some ⟨e.part, e.ctx, va, l.entryPa, l.entry, src, bulk, none, some e.id⟩)

/-- The moves a MIGRATE needs, from its first page up. -/
def migratePlan (s : State) (e : Entry) : Except MErr (List Move) :=
  let va := fld (e.pkt.w 4) 51 0 / frameSize * frameSize
  (List.range e.pkt.count).foldl (fun acc i => match acc with
    | .error x => .error x
    | .ok ms => match migratePage s e (va + i * frameSize) with
      | .error x => .error x
      | .ok none => .ok ms
      | .ok (some m) => .ok (ms ++ [m])) (.ok [])

/-- MIGRATE takes its target frames and queues its moves, or is held while the stack holds too few (R300). -/
def migrateTake (s : State) (id : Nat) : State :=
  match s.entry id with
  | none => s
  | some e =>
    if e.pkt.op ≠ opcMigrate ∨ e.done ∨ !s.partOn e.part then s
    else if e.begun then finishMigrate s id
    else match migratePlan s e with
      | .error x => failEntry s id none x
      | .ok [] => finishControl s s id { status := 0 }
      | .ok (m :: ms) => match popFrames s e.part m.tier (ms.length + 1) with
        | .error .wait => s
        | .error .host => unpredCommandIn s id (.part e.part)
        | .error (.data st a) => complete (popFailed s e.part m.tier) id { status := st, addr := a }
        | .error _ => holdEntry s id
        | .ok (s1, fs) =>
          let q := ((m :: ms).zip fs).map fun x => { x.1 with target := some x.2 }
          (s1.putMig { s1.mig with queue := s1.mig.queue ++ q }).updEntry id fun e => { e with begun := true, held := none }

/-- MIGRATE (R300): its admission took the frames; a held one tries again here, and so does one whose moves are made and whose draw
could not be advanced (R257). -/
def execMigrate (id : Nat) (s : State) : Out State := .next (migrateTake s id)

/-! ### The engine's epoch (R301) -/

/-- An auto frame the engine knows: its leaf as recorded, while the entry still maps it. -/
def autoMove (s : State) (p : Nat) (x : Nat × Nat × Nat × Nat) : Option Move :=
  let f := x.1
  let c := x.2.1
  let e := s.physNat x.2.2.1
  if s.ctxState c ≠ 0 ∧ s.ctxPart c = p ∧ e.testBit 63 ∧ e.testBit 62 ∧ e.testBit 60 ∧ bits e 47 12 * 4096 = frameAddr f then
    some ⟨p, c, x.2.2.2, x.2.2.1, e, frameAddr f, !isBulk (frameAddr f), none, none⟩
  else none

/-- Access count of a move's source frame. -/
def State.frameCount (s : State) (m : Move) : Nat := spGet 0 s.mem.counts (frameOf m.src)

/-- Frames to promote: bulk, count at or above HOT, count descending, address ascending. -/
def hotMoves (s : State) (p : Nat) : List Move :=
  let l := (s.mem.leaves.filterMap (autoMove s p)).filter fun m => !m.toBulk && decide (s.effF (Reg.MIG_PART_CFG p) 55 40 ≤ s.frameCount m)
  sortBy (fun a b => decide (s.frameCount b < s.frameCount a ∨ (s.frameCount a = s.frameCount b ∧ a.src ≤ b.src))) l

/-- Frames to demote: near, count at or below COLD, count ascending, address ascending. -/
def coldMoves (s : State) (p : Nat) : List Move :=
  let l := (s.mem.leaves.filterMap (autoMove s p)).filter fun m => m.toBulk && decide (s.frameCount m ≤ s.effF (Reg.MIG_PART_CFG p) 39 24)
  sortBy (fun a b => decide (s.frameCount a < s.frameCount b ∨ (s.frameCount a = s.frameCount b ∧ a.src ≤ b.src))) l

/-- The plan of R301. -/
def planMoves (empty : Bool) (maxMoves : Nat) : List Move → List Move → List Move → List Move
  | [], _, acc => acc
  | f :: hot, cold, acc =>
    if maxMoves ≤ acc.length then acc
    else if !empty then planMoves empty maxMoves hot cold (acc ++ [f])
    else match cold with
      | [] => acc
      | c :: cs =>
        if acc.length + 1 = maxMoves then acc ++ [c] else planMoves empty maxMoves hot cs (acc ++ [c, f])

/-- MIGRATION_EPOCH: at the edge that ends an epoch of EPOCH ticks the engine drops what is left of the last plan, plans
anew, and halves the partition's counts (R301). -/
def execMigrationEpoch (part : Nat) (s : State) : Out State :=
  let n := s.effF (Reg.MIG_PART_CFG part) 63 56
  .next (
    if !s.live ∨ 16 ≤ part ∨ n = 0 ∨ s.mig.epoch.getD part 0 < n then s
    else
      let plan := planMoves (decide (s.stackLen part 0 = 0)) (s.effF (Reg.MIG_PART_CFG part) 23 16) (hotMoves s part) (coldMoves s part) []
      let half (c : Nat × Nat) : Nat × Nat := if s.hol.cur.ownerOf (frameAddr c.1) = some part then (c.1, c.2 / 2) else c
      (s
          |>.putMig { s.mig with
            queue := (s.mig.queue.filter fun m => decide (m.part ≠ part ∨ m.cmd ≠ none)) ++ plan
            epoch := updAt s.mig.epoch part fun _ => 0 }
          |>.putMem { s.mem with counts := (s.mem.counts.map half).filter fun c => decide (c.2 ≠ 0) }))

/-! ### Refresh, scrubbing, margining, recalibration (R282, R305, R307, R428) -/

/-- A DRAM upset at an address of the refreshed channel: a unit of class C takes a correctable (even) or uncorrectable
(odd) error, a unit of class D a detected one, a byte of class N the value given, under the line that caches it (R287, R290; log entry 23). -/
def upset (s : State) (u : Nat × Nat) : State :=
  let cls := s.classOf u.1
  let a := u.1 / unitBytes cls * unitBytes cls
  let b : Byte := BitVec.ofNat 8 u.2
  if 2 ≤ cls then match s.mem.lineOf u.1 with
    | some l => s.putMem { s.mem with cache := s.mem.cache.map fun c => if c.line = l.line ∧ !c.dirty then { c with under := c.under ++ [(u.1, b)] } else c }
    | none => s.putMem { s.mem with cells := spSet 0 s.mem.cells u.1 b }
  else
    let k := if cls = 0 ∧ u.2 % 2 = 0 then UnitError.correctable else UnitError.bad
    if (a, UnitError.bad) ∈ s.mem.errs then s
    else s.putMem { s.mem with errs := (a, k) :: s.mem.errs.filter fun e => decide (e.1 ≠ a) }

/-- An upset of the cache's own storage that its code cannot correct: a clean line is a miss from then on, a dirty line is bad
(R288; log entry 23). -/
def upsetLine (s : State) (line : Nat) : State := match s.mem.cache.find? fun c => decide (c.line = line) with
  | none => s
  | some c =>
    if c.dirty then s.putMem { s.mem with cache := s.mem.cache.map fun d => if d.line = line then { d with bad := true } else d }
    else evict s c

/-- An error of an eyelet slot's storage that its code cannot correct (R219; log entry 23). -/
def upsetSlot (s : State) (num : Nat) : State :=
  s.putKv { s.kv with slots := s.kv.slots.map fun k => if k.num = num then { k with bad := true } else k }

/-- REFRESH: it changes no byte; errors the cells have developed stand from here on, and so do those of the cache, as values of
256 to 511 at a line's home vault, and those of the eyelet buffer, as values of 512 and more at a slot's number (R219, R282, R288,
R290; log entry 23). -/
def execRefresh (tier vault channel : Nat) (upsets : List (Nat × Nat)) (s : State) : Out State :=
  let here (u : Nat × Nat) : Bool := match s.hol.cur.ownerOf u.1 with
    | none => false
    | some p =>
      if tier = 0 then decide (u.1 < nearTop ∧ (s.hol.cur.nearPlace p u.1).1 = vault ∧ (s.hol.cur.nearPlace p u.1).2.1 = channel)
      else isBulk u.1 && decide ((s.hol.cur.bulkPlace p u.1).1 = channel)
  let cached (u : Nat × Nat) : Bool := decide (tier = 0 ∧ u.1 / 512 % 64 = vault) && isBulk u.1
  .next (if s.live then
      (upsets.filter fun u => if 512 ≤ u.2 then true else if 256 ≤ u.2 then cached u else here u).foldl
        (fun s u => if 512 ≤ u.2 then upsetSlot s u.1 else if 256 ≤ u.2 then upsetLine s (u.1 / 512) else upset s u) s
    else s)

/-- The scrubber reads a stored unit: corrected, or noted and left as stored (R292, R305). -/
def scrubUnit (s : State) (u : Nat) : State :=
  let cls := s.classOf u
  if (u, UnitError.bad) ∈ s.mem.errs then noteBadUnit s u (errStatus cls) none
  else if cls = 0 ∧ (u, UnitError.correctable) ∈ s.mem.errs then correctUnit s u none else s

/-- PATROL_SCRUB: units of owned memory of class C and D are read in their storage, corrected and logged; the last range of a pass
counts it (R305). -/
def execPatrolScrub (addr len : Nat) (last : Bool) (s : State) : Out State :=
  .next (
    if !s.live ∨ s.fldR (s.memCfg addr) 31 16 = 0 then s
    else
      let s1 := (pieces addr len).foldl (fun s pc =>
        let cls := s.classOf pc.1
        if (s.hol.cur.ownerOf pc.1).isSome ∧ s.reachOk pc.1 pc.2 ∧ cls < 2 ∧ s.mem.errs ≠ [] then
          (unitsOf cls pc.1 pc.2).foldl scrubUnit s else s) s
      if last then s1.addF (s.memStat addr) 31 0 1 else s1)

/-- A margin START in a MEM, BLK or PLK block: its fields are written; outside SAFE, while a run is in progress or with PD29
off the write is ignored and REJECT set (R307, R336, Table 15.21). -/
def marginStart (s : State) (reg stat res busyBit rejectBit : Nat) (rw value : Word) : State :=
  if fld value 63 63 = 0 then s.setReg reg ((s.reg reg &&& ~~~rw) ||| (value &&& rw))
  else if s.devState ≠ stSafe ∨ s.fldR stat busyBit busyBit = 1 ∨ !s.domReady 29 then s.setF stat rejectBit rejectBit 1
  else ((s.setReg reg ((s.reg reg &&& ~~~rw) ||| (value &&& rw))).setF stat busyBit busyBit 1).setF res 0 0 0

/-- MEM_MARGIN_START (R307, R308, Table 11.11). -/
def execMemMarginStart (fn vault : Nat) (value : Word) (s : State) : Out State :=
  .next (
    if !s.live ∨ fn ≠ 0 ∨ 64 ≤ vault then s
    else marginStart s (Reg.MEM_MARGIN vault) (Reg.MEM_STAT vault) (Reg.MEM_MARGIN_RES vault) 50 49
      (maskOf 59 54 ||| maskOf 47 40) value)

/-- BLK_MARGIN_START (R307, R309). -/
def execBlkMarginStart (fn : Nat) (value : Word) (s : State) : Out State :=
  .next (
    if !s.live ∨ fn ≠ 0 then s
    else marginStart s Reg.BLK_MARGIN Reg.BLK_STAT Reg.BLK_MARGIN_RES 50 49 (maskOf 61 54 ||| maskOf 47 40) value)

/-- A margin run ends: ERRORS, saturating, and DONE (R307, R336). -/
def marginDone (s : State) (stat res busyBit errors : Nat) : State :=
  if s.fldR stat busyBit busyBit = 0 then s
  else ((s.setF stat busyBit busyBit 0).setF res 63 32 (min errors (2 ^ 32 - 1))).setF res 0 0 1

/-- MARGIN_DONE of vault 0 to 63, or of the bulk tier (64). -/
def execMarginDone (unit errors : Nat) (s : State) : Out State :=
  .next (
    if unit < 64 then marginDone s (Reg.MEM_STAT unit) (Reg.MEM_MARGIN_RES unit) 50 errors
    else marginDone s Reg.BLK_STAT Reg.BLK_MARGIN_RES 50 errors)

/-- BULK_RECALIBRATION: a ZQ latch or WCK2DQ retraining takes channel time and changes no state (R283, R428). -/
def execBulkRecalibration (_channel : Nat) (_retrain : Bool) (s : State) : Out State := .next s

/-! ### The KV pool (R211, Table 8.16) -/

/-- Pages that lists of the context hold, slots included: neither free nor only reserved for commands (R211; log entry 76). -/
def State.poolHeld (s : State) (c : Nat) : Nat :=
  let p := s.pool c
  p.1 - p.2.length - ((s.kv.reserved.filter fun r => decide (r.2.1 = c)).map (·.2.2.length)).foldl (· + ·) 0

/-- The write is a host error: an undefined page size, a page size changed while a list holds a page, or a pool cut below a record in
use. -/
def kvCfgBad (s : State) (c kib size : Nat) : Bool :=
  let p := s.pool c
  !([16, 32, 64, 128, 256].contains kib) ||
  decide (kib ≠ s.fldR (Reg.KV_CTX_CFG c) 63 55 ∧ s.poolHeld c ≠ 0) ||
  decide (size < p.1 ∧ (p.2.filter fun i => decide (size ≤ i)).length ≠ p.1 - size)

/-- Each record of a free list with the one it names next, none at the end (Table 8.4). -/
def links (l : List Nat) : List (Nat × Nat) := l.zip (l.drop 1 ++ [2 ^ 32 - 1])

/-- Write `next` of the records of a free list whose successor is not the one they had (R211, Table 8.4). -/
def linkPool (s : State) (c : Nat) (old new : List Nat) : M :=
  foldM (fun s x => wr64 s c (s.poolVa c x.1 + 8) x.2) s ((links new).filter fun x => !(links old).contains x)

/-- The newly covered records that are free: those the host has zeroed, their refs 0 (log entry 24). -/
def freshPages (s : State) (c lo n : Nat) : Except MErr (List Nat) :=
  (mapE (fun i => (readRefs s c (lo + i)).map fun r => (lo + i, r)) (List.range n)).map fun l =>
    (l.filter fun x => decide (x.2 = 0)).map (·.1)

/-- The free list after KV_CTX_CFG_WRITE: without the records no longer covered, and with the newly covered ones in ascending index
(R211). -/
def kvPool (s : State) (ctx size : Nat) : State :=
  let p := s.pool ctx
  let kept := p.2.filter fun i => decide (i < size)
  let s0 := vtouch s ctx (s.poolVa ctx p.1) (16 * (size - p.1))
  match freshPages s ctx p.1 (size - p.1) with
  | .error x => ownFails (s.setPool ctx (size, kept)) s0 ctx 6 x
  | .ok fresh =>
    let s1 := s0.setPool ctx (size, kept ++ fresh)
    match linkPool s1 ctx p.2 (kept ++ fresh) with
    | (s2, none) => s2
    | (s2, some x) => ownFails s1 s2 ctx 6 x

/-- KV_CTX_CFG_WRITE (R211, R234). -/
def execKvCtxCfgWrite (fn ctx : Nat) (value : Word) (s : State) : Out State :=
  let kib := fld value 63 55
  let size := fld value 31 0
  .next (
    if !s.live ∨ 4096 ≤ ctx ∨ !s.mayAct fn ctx then s
    else
      let s1 := s.setReg (Reg.KV_CTX_CFG ctx)
        ((s.reg (Reg.KV_CTX_CFG ctx) &&& ~~~(maskOf 63 55 ||| maskOf 31 0)) ||| (value &&& (maskOf 63 55 ||| maskOf 31 0)))
      if kvCfgBad s ctx kib size then unpredictable s1 (.ctx ctx) else afterClears s1 fun s => kvPool s ctx size)

end Sys2Proof.Machine
end

