-- ==== Sys2Proof/Machine/Contexts.lean ====
section
/-!
DEFINITION. Operations on contexts (14_contexts_and_scheduling.md R358 to R373): OPEN, CLOSE, SAVE and its image, RESTORE,
TEARDOWN.
-/
namespace Sys2Proof.Machine

/-! ### CTX_CMD_STATUS (Table 14.2) -/

/-- Operation codes of CTX_CMD (Table 14.9). -/
abbrev opOpen : Nat := 1
@[inherit_doc opOpen] abbrev opClose : Nat := 2
@[inherit_doc opOpen] abbrev opSave : Nat := 3
@[inherit_doc opOpen] abbrev opRestore : Nat := 4
@[inherit_doc opOpen] abbrev opTeardown : Nat := 5

/-- RESULT codes. -/
abbrev resOk : Nat := 0
@[inherit_doc resOk] abbrev resState : Nat := 1
@[inherit_doc resOk] abbrev resFunction : Nat := 2
@[inherit_doc resOk] abbrev resPartition : Nat := 3
@[inherit_doc resOk] abbrev resRings : Nat := 4
@[inherit_doc resOk] abbrev resSaveArea : Nat := 5
@[inherit_doc resOk] abbrev resFormat : Nat := 6
@[inherit_doc resOk] abbrev resSlots : Nat := 7
@[inherit_doc resOk] abbrev resEntries : Nat := 8
@[inherit_doc resOk] abbrev resBusy : Nat := 9
@[inherit_doc resOk] abbrev resUnavailable : Nat := 10

/-- Record the latest operation, its context and its result. -/
def ctxResult (s : State) (op n res : Nat) : State :=
  ((s.setF Reg.CTX_CMD_STATUS 59 56 op).setF Reg.CTX_CMD_STATUS 55 44 n).setF Reg.CTX_CMD_STATUS 43 40 res

/-- An operation is in progress. -/
def State.ctxBusy (s : State) : Bool := decide (s.fldR Reg.CTX_CMD_STATUS 63 63 = 1)

/-- The checks every operation but OPEN shares: BUSY, a context that is not FREE, its owner (R356, R358). -/
def State.opRefusal (s : State) (fn n : Nat) : Nat :=
  if s.ctxBusy then resBusy
  else if s.ctxState n = 0 then resState
  else if !s.mayAct fn n then resFunction
  else resOk

/-! ### OPEN (R358, R359) -/

/-- The partition an OPEN names: the physical function's choice, or the writer's own (R356, Table 14.9). -/
def State.openPart (s : State) (fn part : Nat) : Option Nat :=
  if fn = 0 then some part else if s.fnOn fn then s.hol.cur.partOfFn fn else none

/-- A ring of the range lies in another context's range. -/
def State.rangeTaken (s : State) (first count : Nat) : Bool :=
  s.openCtxs.any fun n => overlaps first count (s.ctx n).first (s.ctx n).count && decide (count ≠ 0 ∧ (s.ctx n).count ≠ 0)

/-- The result of an OPEN's checks. -/
def State.openResult (s : State) (fn part n count first : Nat) : Nat :=
  if s.ctxBusy then resBusy
  else if s.ctxState n ≠ 0 then resState
  else match s.openPart fn part with
    | none => resFunction
    | some p =>
      if !(s.part p).defined then resPartition
      else if ¬(s.devState = stReady ∨ s.devState = stRun ∨ (s.devState = stSafe ∧ fn = 0)) then resState
      else if s.fldR Reg.HOL_STATUS 10 10 = 1 ∨ s.hol.pendFull.isSome ∨
          (s.hol.draining && s.hol.pendFrag.any fun i => decide (i.header.target = p)) then resState
      else if (s.part p).maxCtx ≤ (s.openCtxs.filter fun m => decide (s.ctxPart m = p)).length then resPartition
      else if 262144 < first + count ∨ s.rangeTaken first count then resRings
      else resOk

/-- The registers OPEN sets: class, core mask, address registers, budget, return ring (R359); the KV pool starts empty. -/
def openRegs (s : State) (n : Nat) (cls : Nat) : State :=
  let z (s : State) (off : Nat) : State := s.setBoth off (regReset off)
  let s1 := [Reg.CTX_CORES n, Reg.CTX_PT_ROOT n, Reg.CTX_SPILL n, Reg.CTX_SAVE n, Reg.CTX_STATE_TBL n, Reg.CTX_KEY_TBL n,
    Reg.TCK_CTX_BUDGET n, Reg.RING_RET_STATUS n, Reg.KV_CTX_CFG n].foldl z (dropWhere s fun r => decide (r.ctx = n))
  ((s1.setBoth (Reg.CTX_CFG n) (setFld 0 61 61 cls)).setF (Reg.RING_RET_CFG n) 63 63 0).setPool n (0, [])

/-- Open context n in partition p. -/
def openCtx (s : State) (p n count first : Nat) : State :=
  let s1 := openRegs (applyDiscards s fun m => decide (m = n)) n (s.part p).frag.defClass
  runOnOpen (s1.setCtx n { Ctx.free with state := 1, part := p, fn := (s.part p).fn, first := first, count := count, idle := 256 })

/-- CTX_OPEN (R6, R69, R70, R72, R356, R358, R359). -/
def execCtxOpen (fn part ctx count first : Nat) (s : State) : Out State :=
  .next (
    if !s.live ∨ 4096 ≤ ctx then s
    else
      let res := s.openResult fn part ctx count first
      let s1 := if res = resOk then openCtx s ((s.openPart fn part).getD 0) ctx count first else s
      ctxResult s1 opOpen ctx res)

/-! ### CLOSE and TEARDOWN (R360, R373) -/

/-- CLOSE an OPEN context: every ring closes, and it becomes FREE with the last (R82, R360). -/
def closeCtx (s : State) (n : Nat) : State :=
  let c := s.ctx n
  let s1 := s.setCtx n { c with closing := true }
  settleCtx ((ringRange c.first c.count).foldl closeRing s1) n

/-- CTX_CLOSE (R360, R361). -/
def execCtxClose (fn ctx : Nat) (s : State) : Out State :=
  let res := s.opRefusal fn ctx
  .next (
    if !s.live ∨ 4096 ≤ ctx then s
    else if res ≠ resOk then ctxResult s opClose ctx res
    else if s.ctxState ctx = 1 then
      (if (s.ctx ctx).closing then ctxResult s opClose ctx resBusy else ctxResult (closeCtx s ctx) opClose ctx resOk)
    else if s.ctxState ctx = 2 ∨ s.ctxState ctx = 4 then ctxResult s opClose ctx resBusy
    else ctxResult (freeCtx s ctx) opClose ctx resOk)

/-- CTX_TEARDOWN (R373): an OPEN or SAVING context is torn down; a SAVE under way ends with it. -/
def execCtxTeardown (fn ctx : Nat) (s : State) : Out State :=
  .next (
    if !s.live ∨ 4096 ≤ ctx then s
    else if s.ctxState ctx = 0 then ctxResult s opTeardown ctx resState
    else if !s.mayAct fn ctx then ctxResult s opTeardown ctx resFunction
    else if s.ctxBusy ∧ s.ctxState ctx ≠ 2 then ctxResult s opTeardown ctx resBusy
    else if s.ctxState ctx = 3 ∨ s.ctxState ctx = 5 then ctxResult s opTeardown ctx resState
    else ctxResult (teardown s ctx 3) opTeardown ctx resOk)

/-! ### SAVE (R368 to R370) -/

/-- Address and size of the save area (Table 14.7). -/
def State.saveBase (s : State) (n : Nat) : Nat := s.fldR (Reg.CTX_SAVE n) 63 24 * 4096
@[inherit_doc State.saveBase] def State.saveSize (s : State) (n : Nat) : Nat := s.fldR (Reg.CTX_SAVE n) 23 0 * 4096

/-- Some byte of [va, va + len) of context n lies in unavailable memory, or its translation does (R450). -/
def State.rangeUnavail (s : State) (n va len : Nat) : Bool := (pieces va len).any fun pc => match translate s n pc.1 false with
  | .ok l => !s.reachOk l.pa pc.2
  | .error x => decide (x = .unavail)

/-- The handles whose table entries a save of context n names: of its slots, its parked images and its live streams. -/
def State.saveHandles (s : State) (n : Nat) : List Nat :=
  ((s.slots.filter fun x => decide (x.ctx = n)).map (·.handle)) ++ ((s.images.filter fun x => decide (x.1 = n)).map (·.2.1)) ++
    (ringRange (s.ctx n).first (s.ctx n).count).filterMap fun r => (s.ring r).stream.map (·.sh)

/-- The save area, or the state table or the key table where it holds the entries of these handles, lies in unavailable memory
(R371, R450). Entry 0 of each table counts with them. -/
def State.saveUnavail (s : State) (n : Nat) (hs : List Nat) : Bool :=
  s.rangeUnavail n (s.saveBase n) (s.saveSize n) ||
    (0 :: hs).any fun h => s.rangeUnavail n (s.stateVa n h) 32 || s.rangeUnavail n (s.keyVa n h) 16

/-- CTX_SAVE: fetching stops and the stages yield (R368 steps 1 to 3). -/
def execCtxSave (fn ctx : Nat) (discard : Bool) (s : State) : Out State :=
  let res := s.opRefusal fn ctx
  .next (
    if !s.live ∨ 4096 ≤ ctx then s
    else if res ≠ resOk then ctxResult s opSave ctx res
    else if s.ctxState ctx ≠ 1 then ctxResult s opSave ctx resState
    else if (s.ctx ctx).closing then ctxResult s opSave ctx resBusy
    else if s.saveUnavail ctx (s.saveHandles ctx) then ctxResult s opSave ctx resUnavailable
    else
      let s1 := s.setCtx ctx { s.ctx ctx with state := 2, saving := some discard }
      (ctxResult s1 opSave ctx resOk).setF Reg.CTX_CMD_STATUS 63 63 1)

/-- The context is quiet: no control command runs but TICK_FENCEs, no item is held, no transfer or discard is under way
(R368 steps 2 and 3). -/
def State.quiet (s : State) (n : Nat) : Bool :=
  ((s.ctxFlight n).all fun e => e.done || decide (e.pkt.op = opcTickFence) || (isCompute e.pkt.op && decide (e.run.claims = []))) &&
  ((ringRange (s.ctx n).first (s.ctx n).count).all fun r => !(s.ring r).transfer) &&
  !(s.tick.discards.any fun x => decide (x.1 = n))

/-- DISCARD: each admitted compute command completes with PREEMPTED (R368, Table 3.13). -/
def preempt (s : State) (n : Nat) : State :=
  ((s.ctxFlight n).filter fun e => !e.done && isCompute e.pkt.op).foldl (fun s e =>
    releaseReserved (complete (dropAcquired s e) e.id { status := 6 }) e.id) s

/-- Chain numbers of the context's streams, each once. -/
def State.chainsOf (s : State) (n : Nat) : List Nat :=
  dedup ((ringRange (s.ctx n).first (s.ctx n).count).filterMap fun r => (s.ring r).stream.map (·.chain))

/-- A ring as the image has it: an unadmitted packet is fetched again, so the head names it. -/
def ringImg (s : State) (chains : List Nat) (r : Nat) : RingImg :=
  let g := s.ring r
  let head := match g.fetched with
    | some p => p.index
    | none => g.head
  match g.stream with
  | some x => ⟨head, g.tail, g.state, x.sh, chains.findIdx (fun c => decide (c = x.chain)) + 1, x.depth⟩
  | none => ⟨head, g.tail, g.state, 0, 0, 0⟩

/-- The slots a save keeps: states and snapshots, then the handles parked in another's image. -/
def slotImgs (s : State) (n : Nat) : Except MErr (List SlotImg) :=
  let kept := s.slots.filter fun x => decide (x.ctx = n ∧ x.kind ≠ 2)
  let refs := (s.images.filter fun x => decide (x.1 = n)).map fun x => (⟨x.2.1, 2, 0, 0, 0, x.2.2, [], []⟩ : SlotImg)
  (mapE (fun (x : Slot) => (readSEnt s n x.handle).map fun t =>
    (⟨x.handle, x.kind, x.d, t.anchor, t.since, t.pos, x.refs, x.vals⟩ : SlotImg)) kept).map fun l => l ++ refs

/-- A record's ring number as an offset from the first ring, and back (R370). -/
def relRecord (first : Nat) (r : Record) : Record :=
  { r with words := updAt r.words 2 fun w => setFld w 17 0 (fld w 17 0 - first) }
@[inherit_doc relRecord] def absRecord (first : Nat) (r : Record) : Record :=
  { r with words := updAt r.words 2 fun w => setFld w 17 0 (fld w 17 0 + first) }

/-- The image of a quiet context. -/
def saveImage (s : State) (n : Nat) (discard : Bool) : Except MErr (List Byte) :=
  let c := s.ctx n
  (slotImgs s n).map fun sl =>
    imageOf s.tickNum (s.ctxClass n) discard (s.effF (Reg.TCK_CTX_BUDGET n) 39 0) c.first
      ((ringRange c.first c.count).map (ringImg s (s.chainsOf n))) (c.recs.map (relRecord c.first))
      ((s.ctxFlight n).filter fun e => !e.done) sl

/-- A SAVE ends without an image: the context returns to OPEN and its work goes on (R369). -/
def endSave (s : State) (n res : Nat) : State :=
  ctxResult ((s.setCtx n { s.ctx n with state := 1, saving := none }).setF Reg.CTX_CMD_STATUS 63 63 0) opSave n res

/-- A SAVE whose own access fails: unavailable memory leaves the context as it was in state `s0` (R450). -/
def saveFails (s0 s1 : State) (n : Nat) : MErr → State
  | .unavail | .wait => endSave s0 n resUnavailable
  | x => ownFails s0 s1 n 6 x

/-- Every ring of the context reads CLOSED without the discard of R82, its descriptor written back (R80, R368 step 5). -/
def closeSaved (s : State) (n : Nat) : State :=
  dropRings (((s.rings.filter fun r => decide ((s.ctx n).first ≤ r.1 ∧ r.1 < (s.ctx n).first + (s.ctx n).count)).map (·.1)).foldl
    (fun s r => setRingState s r 0) s) n

/-- After the image is written: slots released, rings CLOSED without the discard of R82, the context SAVED (R368 step 5). -/
def saved (s : State) (n : Nat) : State :=
  let ids := (s.ctxFlight n).map (·.id)
  let s1 := ids.foldl releaseReserved s
  let s2 := closeSaved (releaseCtx s1 n) n
  let s3 := s2.putPrefetched (s2.prefetched.filter fun x => !ids.contains x.id)
  if s3.ctxState n ≠ 2 then s3
  else
    ctxResult ((s3.setCtx n { s3.ctx n with state := 3, saving := none, recs := [], unsignalled := 0 }).setF Reg.CTX_CMD_STATUS 63 63 0)
      opSave n resOk

/-- Write the image of a quiet context whose slots are flushed; `s0` is the state before. -/
def writeImage (s0 s : State) (n : Nat) (discard : Bool) : State :=
  match saveImage s n discard with
  | .error x => saveFails s0 (noteErr s n x) n x
  | .ok bs =>
    if s.saveSize n < bs.length then endSave s n resSaveArea
    else match vwrite s n (s.saveBase n) bs with
      | (s1, none) => saved s1 n
      | (s1, some x) => saveFails s0 s1 n x

/-- The save of a quiet context: its compute commands that DISCARD ends, its flushes, its image. -/
def saveNow (s : State) (n : Nat) (discard : Bool) : State :=
  let s1 := if discard then preempt s n else s
  if (s1.ctx n).saving = none then s1
  else match flushAll s1 (s1.ctxSlots n) 15 0 with
  | (s2, some x) => saveFails s (noteErr s2 n x) n x
  | (s2, none) => writeImage s (dropWhere s2 fun r => decide (r.ctx = n)) n discard

/-- SAVE_IMAGE_WRITE (R368 steps 3 to 5, R369, R370, R450). -/
def execSaveImageWrite (ctx : Nat) (s : State) : Out State :=
  .next (match (s.ctx ctx).saving with
    | none => s
    | some discard =>
      if !s.live ∨ !s.quiet ctx then s
      else if s.saveUnavail ctx (s.saveHandles ctx) then endSave s ctx resUnavailable
      else afterClears s fun s => saveNow s ctx discard)

/-! ### RESTORE (R371, R372) -/

/-- The image in the save area of context n: its bytes, or the RESULT that refuses it, or a failing access. -/
def readImage? (s : State) (n : Nat) : Except MErr (Option (List Byte)) :=
  match vread s n (s.saveBase n) 64 with
  | .error x => .error x
  | .ok h =>
    let len := wnat h 1
    if len < 64 ∨ s.saveSize n < len then .ok none else (vread s n (s.saveBase n) len).map some

/-- Place snapshots in free slots of the partition, in image order. -/
def placeSnapshots (s : State) (n : Nat) (l : List SlotImg) : Option State :=
  l.foldl (fun acc x => acc.bind fun s => (placeSlot s n x.handle 1 x.d x.vals x.refs).map (·.1)) (some s)

/-- The RESULT of a RESTORE's checks on an image (R371). -/
def State.restoreResult (s : State) (n : Nat) (i : Img) : Nat :=
  let p := s.ctxPart n
  if i.rings.length ≠ (s.ctx n).count then resState
  else if i.slots.any fun x => decide (x.kind ≠ 2 ∧ 65536 * (s.part p).frag.accTiles < x.d) then resFormat
  else if (placeSnapshots s n (i.slots.filter fun x => decide (x.kind = 1))).isNone then resSlots
  else if 1024 * popcount 16 (s.part p).quadMask < (s.partFlight p).length + i.cmds.length ∨
      16384 < s.flight.length + i.cmds.length then resEntries
  else resOk

/-- Place a snapshot and rewrite core and slot in the entries of the streams that reference it (R372 step 1). -/
def restoreSnapshot (n : Nat) (s : State) (x : SlotImg) : M :=
  match placeSlot s n x.handle 1 x.d x.vals x.refs with
  | none => (s, some .unavail)
  | some (s1, core, unit) =>
    foldM (fun s h => readingSEnt s n h fun s t => writeSEnt s n h { t with wh := whSnapshot, core := core, slot := unit }) s1 x.refs

/-- Place a state, or write it to its image and mark it parked (R372 steps 1 and 2). -/
def restoreState (n : Nat) (s : State) (x : SlotImg) : M :=
  readingSEnt s n x.handle fun s t =>
    let t1 := { t with anchor := x.a, dim := x.d, since := x.since, pos := x.pos }
    match placeSlot s n x.handle 0 x.d x.vals [] with
    | some (s1, core, unit) => writeSEnt s1 n x.handle { t1 with wh := whResident, core := core, slot := unit }
    | none =>
      (wrB s n t.image (imageBytes x.vals)).next fun s =>
      (writeSEnt s n x.handle { t1 with wh := whParked, core := 0, slot := 0 }).next fun s =>
        (s.setCtx n { s.ctx n with restoreParked := (s.ctx n).restoreParked + 1 }, none)

/-- Every slot of the image. -/
def restoreSlots (s : State) (n : Nat) (l : List SlotImg) : M :=
  (foldM (restoreSnapshot n) s (l.filter fun x => decide (x.kind = 1))).next fun s =>
  (foldM (restoreState n) s (l.filter fun x => decide (x.kind = 0))).next fun s =>
    ((s.putImages ((l.filter fun x => decide (x.kind = 2)).map (fun x => (n, x.handle, x.pos)) ++ s.images)), none)

/-- The stream of a saved ring is parked: it was, or the restore has parked its state. -/
def ringParked (s : State) (n : Nat) (r : RingImg) : Bool :=
  decide (r.state = 4) || (decide (r.sh ≠ 0) && (match readSEnt s n r.sh with
    | .ok t => decide (t.wh = whParked)
    | .error _ => false))

/-- The state a saved ring opens in: PARKED if its stream's state is parked, FETCHING if it waited (R372, R91). -/
def restoredState (parked : Bool) (r : RingImg) : Nat :=
  if (r.state = 2 ∨ r.state = 3) ∧ parked then 4 else if r.state = 3 then 2 else r.state

/-- Open one saved ring, its descriptor read again (R81, R372 step 3). A CLOSED one stays CLOSED. -/
def restoreRing (n base : Nat) (s : State) (x : RingImg × Nat) : M :=
  if x.1.state = 0 then (s, none)
  else
    let r := (s.ctx n).first + x.2
    let va := s.descVa n r
    let parked := ringParked s n x.1
    reading s n va 32 (vread s n va 32) fun s bs =>
      let st : Option Stream := if x.1.chain = 0 then none else some ⟨x.1.sh, 0, base + x.1.chain, x.1.depth⟩
      let g : Ring := { Ring.closed with owner := n, w0 := wordAt bs 0, w1 := wordAt bs 1, w2 := wordAt bs 2, descVa := va, state := restoredState parked x.1, head := x.1.head, tail := x.1.tail, stream := st, parked := parked, discardDue := decide (x.1.state = 5) && st.isSome }
      (writeBack (s.setRing r g) r, none)

/-- The slots that a kept stage had taken and not committed are taken again; where there is no room for them the stage begins anew (R199,
R372; log entry 49). -/
def retakeSlots (s : State) (e : Entry) : State :=
  match e.run.acq.foldl (fun o h => o.bind fun s => (placeSlot s e.ctx h 2 e.desc.scD [] []).map (·.1)) (some s) with
  | some s1 => s1
  | none => updRun s e.id fun _ => StageRun.idle

/-- The hand-over data of a kept command, and the bitmap of its stage, take their places again (R154, R159, R167). -/
def placeKept (s : State) (e : Entry) : M :=
  let core := e.run.arrays.headD 0
  let w := stageWork s e e.desc
  let s1 := match w with
    | .ok w => if e.run.started then placeBitmap s e e.run.arrays w else s
    | .error _ => s
  (takePlace s1 e.id e.ctx core .activation activationHalf .handover (e.stage - 1) e.handover.length).next fun s =>
    if e.desc.outDst = 1 then takePlace s e.id e.ctx core .activation activationHalf .handover e.stage e.run.outBuf.length else (s, none)

/-- A kept command goes on: its slots, its data, its halos (R157, R165, R372). -/
def goOn (s : State) (id : Nat) : State := match s.entry id with
  | none => s
  | some e => rehome (stageAct (retakeSlots s e) e (placeKept (retakeSlots s e) e)) id

/-- Re-admit one kept command: its entry, the pages it reserves again, its data and its halos (R165, R372 step 4). -/
def readmit (n : Nat) (s : State) (c : Packet × List PRec) : M :=
  match readEntry s.nextId n (s.ctxPart n) (s.ctx n).first s.tickNum c.1 c.2 with
  | none => (s, some .host)
  | some e0 =>
    let arrays := if e0.run.started then s.stageArrays e0 e0.desc else []
    let e := { e0 with run := { e0.run with arrays := arrays, peaks := e0.run.peaks.map fun p => (arrays.headD 0, p.2) } }
    let g := s.ring e.ring
    let s1 := s.setRing e.ring { g with stream := g.stream.map fun x => if x.kh = 0 then { x with kh := e.pkt.kh } else x }
    let s2 := s1 |>.putFlight (s1.flight ++ [e]) |>.putNextId (s1.nextId + 1)
    match takeReserve s2 e with
    | (s3, none) => (goOn s3 e.id, none)
    | (_, some .unavail) => (goOn (s2.updEntry e.id fun x => { x with paged := false }) e.id, none)
    | (_, some x) => (s2, some x)

/-- The restore itself (R372). -/
def restoreAll (s : State) (n : Nat) (i : Img) : M :=
  let s0 := s.setCtx n { s.ctx n with restoreParked := 0 }
  (restoreSlots s0 n i.slots).next fun s =>
  let base := s.nextId
  (foldM (restoreRing n base) (s.putNextId (s.nextId + i.rings.length + 1)) i.rings.zipIdx).next fun s =>
  (foldM (readmit n) s i.cmds).next fun s =>
    let s1 := s.setBoth (Reg.TCK_CTX_BUDGET n) (setFld 0 39 0 i.budget)
    let s2 := s1.setBoth (Reg.CTX_CFG n) (setFld 0 61 61 i.cls)
    let recs := i.recs.zipIdx.map fun x => { absRecord (s2.ctx n).first x.1 with entry := s2.nextId + x.2 }
    (purgeRecords ((s2.setCtx n { s2.ctx n with recs := (s2.ctx n).recs ++ recs }).putNextId (s2.nextId + recs.length)) n, none)

/-- RESTORE on an OPEN context that passes the checks of its rings. -/
def restoreCtx (s : State) (n : Nat) : State :=
  match readImage? s n with
  | .error .unavail => ctxResult s opRestore n resUnavailable
  | .error x => ctxResult (ownFails s (noteErr s n x) n 6 x) opRestore n resFormat
  | .ok none => ctxResult (vtouch s n (s.saveBase n) 64) opRestore n resFormat
  | .ok (some bs) => match readImg bs with
    | none => ctxResult (vtouch s n (s.saveBase n) bs.length) opRestore n resFormat
    | some i =>
      let res := s.restoreResult n i
      let s0 := vtouch s n (s.saveBase n) bs.length
      if res ≠ resOk then ctxResult s0 opRestore n res
      else if s.saveUnavail n (i.slots.map (·.handle) ++ i.rings.map (·.sh)) then ctxResult s opRestore n resUnavailable
      else match restoreAll s0 n i with
        | (s1, none) => ctxResult (if i.cmds = [] then s1 else withdrawReady s1) opRestore n resOk
        | (_, some .unavail) => ctxResult s opRestore n resUnavailable
        | (s1, some x) => ctxResult (ownFails s (noteErr s1 n x) n 6 x) opRestore n resOk

/-- CTX_RESTORE (R371, R372). -/
def execCtxRestore (fn ctx : Nat) (s : State) : Out State :=
  let res := s.opRefusal fn ctx
  let c := s.ctx ctx
  .next (
    if !s.live ∨ 4096 ≤ ctx then s
    else if res ≠ resOk then ctxResult s opRestore ctx res
    else if s.ctxState ctx ≠ 1 ∨ (ringRange c.first c.count).any (fun r => decide ((s.ring r).state ≠ 0)) ∨ s.ctxFlight ctx ≠ [] then
      ctxResult s opRestore ctx resState
    else if c.closing then ctxResult s opRestore ctx resBusy
    else if s.saveUnavail ctx [] then ctxResult s opRestore ctx resUnavailable
    else afterClears s fun s => restoreCtx s ctx)

end Sys2Proof.Machine
end

