-- ==== Sys2Proof/Machine/Collectives.lean ====
section
/-!
DEFINITION. Collectives (13_collectives_and_scale.md R338 to R354): COLLECTIVE's operations, their messages, exact
reduction, aborts and the receive store.
-/
namespace Sys2Proof.Machine

/-! ### Operands (Table 13.1) -/

/-- The operands of a COLLECTIVE; n is its count. -/
structure Coll where
  op : Nat
  group : Nat
  src : Nat
  fmt : Nat
  dst : Nat
  seq : Nat
  anchor : Int
  peer : Nat
  cap : Nat
  eb : Nat
  n : Nat
  deriving DecidableEq, Repr

/-- Read them. -/
def collOf (p : Packet) : Coll :=
  ⟨fld (p.w 4) 63 60, fld (p.w 4) 59 52, fld (p.w 4) 51 0, fld (p.w 5) 63 60, fld (p.w 5) 51 0, fld (p.w 6) 63 32,
    sext 16 (fld (p.w 6) 31 16), fld (p.w 6) 15 0, fld (p.w 7) 63 32, fld (p.w 7) 31 12, p.count⟩

/-- Operations of Table 13.2. -/
abbrev coAllreduce : Nat := 0
@[inherit_doc coAllreduce] abbrev coReduceScatter : Nat := 1
@[inherit_doc coAllreduce] abbrev coAllgather : Nat := 2
@[inherit_doc coAllreduce] abbrev coBroadcast : Nat := 3
@[inherit_doc coAllreduce] abbrev coAlltoall : Nat := 4
@[inherit_doc coAllreduce] abbrev coSend : Nat := 5
@[inherit_doc coAllreduce] abbrev coRecv : Nat := 6
@[inherit_doc coAllreduce] abbrev coAnchor : Nat := 7

/-- A reduction. -/
def Coll.reduces (c : Coll) : Bool := decide (c.op ≤ 1)

/-- Elements of this rank's source. -/
def Coll.srcElems (c : Coll) (g : Group) : Nat :=
  if c.op = coReduceScatter then c.n * g.size
  else if c.op = coRecv ∨ (c.op = coBroadcast ∧ g.rank ≠ c.peer) then 0
  else c.n

/-- Bytes of this rank's source. -/
def Coll.srcBytes (c : Coll) (g : Group) : Nat :=
  if c.reduces then 8 * c.srcElems g
  else if c.op = coAnchor then (if isMx c.fmt then c.n else ceilDiv (inBits c.fmt * c.n) 8)
  else c.eb * c.srcElems g

/-- Bytes of this rank's destination; ANCHOR's are the exponents it gathers (Table 13.2, R350, R352). -/
def Coll.dstBytes (c : Coll) (g : Group) : Nat :=
  if c.reduces then c.n * outBytes c.fmt
  else if c.op = coAllgather then c.n * g.size * c.eb
  else if c.op = coBroadcast ∨ c.op = coRecv then c.n * c.eb
  else if c.op = coAlltoall then g.size * c.cap * c.eb + 4 * g.size
  else if c.op = coAnchor then 2 * g.size
  else 0

/-- Route i of an ALLTOALL (R350). -/
def routeAt (p : Packet) (i : Nat) : Nat := leNat ((p.payload.drop (2 * i)).take 2)

/-- Operands the spec calls host errors or leaves undefined (Tables 13.1 and 13.2, R350). -/
def collBad (p : Packet) (c : Coll) (g : Group) : Bool :=
  (c.reduces && decide (7 ≤ c.fmt)) || (decide (c.op = coAnchor) && decide (12 ≤ c.fmt)) ||
  (decide (2 ≤ c.op ∧ c.op ≤ 6) && decide (c.eb = 0)) ||
  (decide (c.op = coBroadcast ∨ c.op = coSend ∨ c.op = coRecv) && decide (g.size ≤ c.peer)) ||
  (decide (c.op = coAlltoall) && (decide (p.payload.length < 2 * c.n ∨ 1048544 < c.cap * c.eb) ||
    (List.range c.n).any fun i => decide (routeAt p i ≠ 0xFFFF ∧ g.size ≤ routeAt p i)))

/-! ### What a rank sends (R345, R346, R350, R352, R354) -/

/-- [lo, lo + n) cut into runs of at most k: (first, length). -/
def cuts (lo n k : Nat) : List (Nat × Nat) := (List.range (ceilDiv n k)).map fun i => (lo + i * k, min k (n - i * k))

/-- A message a rank sends: receiving rank, contributors, first element, data. -/
structure Outgoing where
  rank : Nat
  contributors : Nat
  first : Nat
  data : List Byte
  deriving DecidableEq, Repr

/-- Block s of a reduction's elements, for the direct exchange: n elements each, or an even cut for ALLREDUCE (log entry
27). -/
def Coll.block (c : Coll) (g : Group) (s : Nat) : Nat × Nat :=
  if c.op = coReduceScatter then (s * c.n, c.n)
  else
    let b := ceilDiv c.n g.size
    (min c.n (s * b), min b (c.n - s * b))

/-- The pieces of a byte source from element `lo` on: whole elements, at most 1,048,544 bytes a message. -/
def byteCuts (eb lo n : Nat) : List (Nat × Nat) := cuts lo n (max 1 (1048544 / eb))

/-- Elements of an ALLTOALL routed to rank d, ascending. -/
def routedTo (p : Packet) (n d : Nat) : List Nat := (List.range n).filter fun i => decide (routeAt p i = d)

/-- The exponent a rank without a nonzero value gives (log entry 28). -/
abbrev noExponent : Int := -32768

/-- E of R352. -/
def exponentOf (c : Coll) (bs : List Byte) : Int :=
  if isMx c.fmt then
    (bs.take c.n).foldl (fun a b => if b.toNat = 255 then a else max a ((b.toNat : Int) - 127 + eMax c.fmt)) noExponent
  else
    (List.range c.n).foldl (fun a i =>
      let v := (readIn c.fmt (elemAt bs (inBits c.fmt) i)).1
      if v.num = 0 then a else max a v.clog2) noExponent

/-- Every message of a rank, its own share among them, from its source bytes. -/
def outgoing (p : Packet) (c : Coll) (g : Group) (bs : List Byte) : List Outgoing :=
  let part (eb first len : Nat) : List Byte := (bs.drop (eb * first)).take (eb * len)
  let ranks := List.range g.size
  if c.reduces then
    if g.algo = 0 then (cuts 0 (c.srcElems g) 4096).map fun x => ⟨g.rank, 1, x.1, part 8 x.1 x.2⟩
    else ranks.flatMap fun r =>
      (cuts (c.block g r).1 (c.block g r).2 4096).map fun x => ⟨r, 1, x.1, part 8 x.1 x.2⟩
  else if c.op = coAllgather then
    ranks.flatMap fun r => (byteCuts c.eb 0 c.n).map fun x => ⟨r, 0, x.1, part c.eb x.1 x.2⟩
  else if c.op = coBroadcast then
    if g.rank ≠ c.peer then []
    else ranks.flatMap fun r => (byteCuts c.eb 0 c.n).map fun x => ⟨r, 0, x.1, part c.eb x.1 x.2⟩
  else if c.op = coAlltoall then
    ranks.map fun d =>
      let l := (routedTo p c.n d).take c.cap
      ⟨d, l.length, 0, l.flatMap fun i => part c.eb i 1⟩
  else if c.op = coSend then (byteCuts c.eb 0 c.n).map fun x => ⟨c.peer, 0, x.1, part c.eb x.1 x.2⟩
  else if c.op = coAnchor then ranks.map fun r => ⟨r, 0, 0, leBytes 2 (toTwos 16 (exponentOf c bs))⟩
  else []

/-- Elements an ALLTOALL drops (R351). -/
def dropped (p : Packet) (c : Coll) (g : Group) : Nat :=
  if c.op ≠ coAlltoall then 0
  else (List.range g.size).foldl (fun n d => n + ((routedTo p c.n d).length - c.cap)) 0

/-! ### What a rank has received (R347) -/

/-- The first element at or past which nothing covers, walking runs (first, length) in ascending order. -/
def coveredTo (lo : Nat) (runs : List (Nat × Nat)) : Nat :=
  (sortBy (fun a b => decide (a.1 ≤ b.1)) runs).foldl (fun pos r => if r.1 ≤ pos then max pos (r.1 + r.2) else pos) lo

/-- Add two vectors of A64 values (R122). -/
def addVals (a b : List Int) : List Int := if a = [] then b else (a.zip b).map fun x => wrap64 (x.1 + x.2)

/-- Contributions received for the range from `first`. -/
def Entry.contribs (e : Entry) (first : Nat) : Nat := ((e.recvd.find? fun x => decide (x.1 = first)).map (·.2)).getD 0

/-- The sum so far of the range from `first`. -/
def Entry.sumAt (e : Entry) (first : Nat) : List Int := ((e.stagedVals.find? fun x => decide (x.1 = first)).map (·.2)).getD []

/-- Take a reduction's message. -/
def takeSum (e : Entry) (contributors first : Nat) (data : List Byte) : Entry :=
  let vs := imageVals (data.length / 8) data
  { e with
    recvd := (first, e.contribs first + contributors) :: e.recvd.filter fun x => decide (x.1 ≠ first)
    stagedVals := (first, addVals (e.sumAt first) vs) :: e.stagedVals.filter fun x => decide (x.1 ≠ first) }

/-- Where the bytes of a sender from its element `first` on lie in the destination. -/
def Coll.place (c : Coll) (rank first : Nat) : Nat :=
  if c.op = coAllgather then (rank * c.n + first) * c.eb
  else if c.op = coAlltoall then rank * c.cap * c.eb
  else if c.op = coAnchor then 2 * rank
  else first * c.eb

/-- Take any other message: its bytes go to their place in the destination, and its sender is noted. -/
def takeBytes (e : Entry) (c : Coll) (rank contributors first : Nat) (data : List Byte) : Entry :=
  let at_ := c.place rank first
  { e with
    recvd := (rank, contributors) :: e.recvd.filter fun x => decide (x.1 ≠ rank)
    stagedRaw := (at_, data) :: e.stagedRaw.filter fun x => decide (x.1 ≠ at_) }

/-- The ranges every member has contributed to (R346). -/
def Entry.accepted (e : Entry) (g : Group) : List (Nat × List Int) :=
  e.stagedVals.filter fun x => decide (g.size ≤ e.contribs x.1)

/-- Everything of this COLLECTIVE has arrived; a SEND waits for acknowledgements instead. -/
def collArrived (e : Entry) (c : Coll) (g : Group) : Bool :=
  if c.reduces then
    let lo := if c.op = coReduceScatter then g.rank * c.n else 0
    decide (lo + c.n ≤ coveredTo lo ((e.accepted g).map fun x => (x.1, x.2.length)))
  else if c.op = coAlltoall ∨ c.op = coAnchor then decide (e.recvd.length = g.size)
  else decide (c.dstBytes g ≤ coveredTo 0 (e.stagedRaw.map fun x => (x.1, x.2.length)))

/-- The summed value of element i. -/
def sumOf (l : List (Nat × List Int)) (i : Nat) : Int :=
  ((l.find? fun x => decide (x.1 ≤ i ∧ i < x.1 + x.2.length)).map fun x => x.2.getD (i - x.1) 0).getD 0

/-- The outputs of a reduction: bytes, and whether any was limited or rounded to zero (R345). -/
def reduceOut (e : Entry) (c : Coll) (g : Group) : List Byte × VFlags :=
  let lo := if c.op = coReduceScatter then g.rank * c.n else 0
  let l := e.accepted g
  (List.range c.n).foldr (fun i (acc : List Byte × VFlags) =>
    let v := sumOf l (lo + i)
    if c.fmt = 6 then (leBytes 8 (toTwos 64 v) ++ acc.1, acc.2)
    else
      let r := roundOut (a64Val v c.anchor) c.fmt false fun _ => 0
      (leBytes (outBytes c.fmt) r.1 ++ acc.1, acc.2.or r.2)) ([], {})

/-- Bytes of ranges laid over zeros. -/
def overlay (n : Nat) (l : List (Nat × List Byte)) : List Byte := l.foldl (fun b x => patch b x.1 x.2) (zeros n)

/-- The destination bytes (Table 13.2, R345, R350). -/
def collOut (e : Entry) (c : Coll) (g : Group) : List Byte × VFlags :=
  if c.reduces then reduceOut e c g
  else if c.op = coAlltoall then
    (overlay (g.size * c.cap * c.eb) e.stagedRaw ++ (List.range g.size).flatMap (fun r => leBytes 4 (e.contribs r)), {})
  else (overlay (c.dstBytes g) e.stagedRaw, {})

/-- The largest exponent gathered. -/
def Entry.topExponent (e : Entry) : Int := e.stagedRaw.foldl (fun a x => max a (sext 16 (leNat x.2))) noExponent

/-! ### Completion and failure (R347 to R351) -/

/-- (KEY, coll_seq) of a COLLECTIVE. -/
def State.collKey (s : State) (e : Entry) : Nat × Nat := ((s.group (collOf e.pkt).group).key, (collOf e.pkt).seq)

/-- A COLLECTIVE's own access fails: a source error in the data aborts it on every member, and so does the teardown that a
translation fault brings (R349). -/
def collFail (s : State) (e : Entry) (source : Bool) (m : MErr) : State := match m with
  | .trans _ => failEntry (sendAborts s e) e.id none m
  | .data .. => failEntry (if source then sendAborts s e else s) e.id none m
  | _ => failEntry s e.id none m

/-- Complete with OK, and the draw of the handle it names advanced (R257), or DROPPED_OVERFLOW after drops (R351). `s0` is the state
before its act. -/
def collOk (s0 s1 : State) (e : Entry) (fl : VFlags) : State :=
  let s2 := s1.updEntry e.id fun x => { x with sat := x.sat || fl.sat, under := x.under || fl.under }
  if e.detail = 0 then finishControl s0 s2 e.id { status := 0 } else complete s2 e.id { status := 7 }

/-- ANCHOR adds the largest exponent to the field at its destination, if any member has one (R352). -/
def anchorOut (s : State) (e : Entry) (c : Coll) : State :=
  let top := e.topExponent
  let a := c.dst / 8 * 8
  if top = noExponent then collOk s s e {}
  else match vread64 s e.ctx a with
    | .error x => collFail s e false x
    | .ok v => match wr64 (vtouch s e.ctx a 8) e.ctx a (v / 2 ^ 16 * 2 ^ 16 + toTwos 16 ((v : Int) + top)) with
      | (s1, none) => collOk s s1 e {}
      | (_, some x) => collFail s e false x

/-- The destination is written in one pass once everything has arrived (R347). -/
def collSettle (s : State) (id : Nat) : State := match s.entry id with
  | none => s
  | some e =>
    let c := collOf e.pkt
    let g := s.group c.group
    if e.pkt.op ≠ opcCollective ∨ !e.begun ∨ e.done ∨ c.op = coSend ∨ !collArrived e c g then s
    else if c.op = coAnchor then anchorOut s e c
    else
      let out := collOut e c g
      match wrB s e.ctx c.dst out.1 with
      | (s1, none) => collOk s s1 e out.2
      | (_, some x) => collFail s e false x

/-- A message of a SEND of this device and collective. -/
def isSendOf (s : State) (k : Nat × Nat) (m : FabMsg) : Bool := match m.body with
  | .coll op key _ _ abort _ _ _ => decide (op = coSend ∧ (key, m.tag) = k ∧ m.src = s.devId) && !abort
  | _ => false

/-- Messages not yet acknowledged on their first link (R315, R354). -/
def State.unacked (s : State) : List FabMsg :=
  s.fab.ports.flatMap (fun p => p.replay.map (·.2)) ++ s.fab.held.map fun h => h.2.2

/-- A SEND none of whose messages waits for an acknowledgement, and none of which was lost, completes OK (R354). -/
def settleSends (s : State) : State :=
  (s.flight.filter fun e => decide (e.pkt.op = opcCollective ∧ (collOf e.pkt).op = coSend) && e.begun && !e.done &&
    decide (e.recvd = [])).foldl (fun s e =>
      if s.unacked.any (isSendOf s (s.collKey e)) then s else collOk s s e {}) s

/-- Mark the SENDs whose messages were lost with a replay buffer or had no route (R315, R318, R354). -/
def markLost (s : State) (ms : List FabMsg) : State :=
  s.putFlight (s.flight.map fun e =>
      if e.pkt.op = opcCollective ∧ (collOf e.pkt).op = coSend ∧ ms.any (isSendOf s (s.collKey e)) then { e with recvd := [(0, 0)] } else e)

/-! ### Arrival (R340, R346 to R349) -/

/-- The admitted COLLECTIVE a message belongs to: same KEY and coll_seq; what a SEND sends is its peer's RECV's. -/
def State.collMatch (s : State) (key seq op : Nat) (abort : Bool) : Option Entry :=
  s.flight.find? fun e => decide (e.pkt.op = opcCollective) && !e.done && decide (s.collKey e = (key, seq)) &&
    (abort || (decide ((collOf e.pkt).op ≠ coSend ∨ op ≠ coSend) && (e.begun)))

/-- An ALLREDUCE of the direct exchange sends on a range of its own block once it is summed (R346). -/
def passOn (s : State) (c : Coll) (g : Group) (e : Entry) (first before : Nat) : State :=
  let b := c.block g g.rank
  if c.op = coAllreduce ∧ g.algo = 1 ∧ before < g.size ∧ g.size ≤ e.contribs first ∧ b.1 ≤ first ∧ first < b.1 + b.2 then
    let data := (e.sumAt first).flatMap fun v => leBytes 8 (toTwos 64 v)
    (List.range g.size).foldl (fun s r => if r = g.rank then s
      else sendRank s g r c.seq (.coll c.op g.key g.rank g.size false first (toTwos 16 c.anchor) data)) s
  else s

/-- A message agrees with this member's op, n, anchor and elem_bytes as far as it shows them (R342, R345). -/
def collAgrees (e : Entry) (c : Coll) (g : Group) (op rank first anchor len : Nat) : Bool :=
  decide (op = c.op ∨ (op = coSend ∧ c.op = coRecv)) && decide (rank < g.size) &&
  (if c.reduces then decide (anchor = toTwos 16 c.anchor ∧ len % 8 = 0) &&
      (decide (e.sumAt first = []) || decide ((e.sumAt first).length = len / 8))
    else if c.op = coAlltoall then decide (len ≤ c.cap * c.eb)
    else decide (c.place rank first + len ≤ c.dstBytes g))

/-- Take one message into its COLLECTIVE. A member that disagrees is a host error (R342, R345). -/
def collTake (s : State) (id op rank contributors first anchor : Nat) (data : List Byte) : State := match s.entry id with
  | none => s
  | some e =>
    let c := collOf e.pkt
    let g := s.group c.group
    if !collAgrees e c g op rank first anchor data.length then unpredCommand s id
    else if c.op = coRecv ∧ rank ≠ c.peer then s
    else if c.reduces then
      let before := e.contribs first
      let e1 := takeSum e contributors first data
      let s1 := s.updEntry id fun _ => e1
      if contributors < g.size then passOn s1 c g e1 first before else s1
    else s.updEntry id fun _ => takeBytes e c rank contributors first data

/-- Bytes the receive store holds. -/
def State.storeBytes (s : State) : Nat := s.fab.store.foldl (fun n m => n + bodyLength m.body) 0

/-- One collective message: discarded for a collective that failed, kept until its COLLECTIVE runs, taken, or an abort that
completes it at once (R347 to R349). A full store returns no credits, so the message has not been sent. -/
def collArrive (s : State) (m : FabMsg) : State := match m.body with
  | .coll op key rank contributors abort first anchor data =>
    if s.fab.dead.contains (key, m.tag) then s
    else match s.collMatch key m.tag op abort with
      | some e =>
        if abort then
          let s1 := s.putFab { s.fab with dead := (key, m.tag) :: s.fab.dead, store := dropStored (key, m.tag) s.fab.store }
          complete s1 e.id { status := 1 }
        else collSettle (collTake s e.id op rank contributors first anchor data) e.id
      | none =>
        if 4 * 2 ^ 20 < s.storeBytes + bodyLength m.body then s
        else s.putFab { s.fab with store := s.fab.store ++ [m] }
  | _ => s

/-- The stored messages of a COLLECTIVE that now runs are taken, in their order of arrival. -/
def drainStore (s : State) (k : Nat × Nat) : State :=
  let mine (m : FabMsg) : Bool := match m.body with
    | .coll _ key .. => decide ((key, m.tag) = k)
    | _ => false
  (s.fab.store.filter mine).foldl collArrive (s.putFab { s.fab with store := s.fab.store.filter fun m => !mine m })

/-! ### Issuing (R339 to R343) -/

/-- Send one message of a COLLECTIVE, or take it here when it is this rank's own. In a switch reduction every message goes
to the switch (R346; log entry 29). -/
def collSend (c : Coll) (g : Group) (id : Nat) (s : State) (o : Outgoing) : State :=
  let body := FabBody.coll c.op g.key g.rank o.contributors false o.first (if c.reduces then toTwos 16 c.anchor else 0) o.data
  if g.size = 1 ∨ (o.rank = g.rank ∧ ¬(c.reduces ∧ g.algo = 0)) then
    if c.op = coSend then collArrive s ⟨s.devId, s.devId, false, c.seq, 0, body⟩
    else collTake s id c.op g.rank o.contributors o.first (toTwos 16 c.anchor) o.data
  else
    let dst := g.members.getD o.rank 0
    let direct := decide (g.algo = 1)
    let s1 := if c.op = coSend ∧ (s.egress direct dst body).isNone then s.updEntry id fun e => { e with recvd := [(0, 0)] } else s
    sendRank s1 g o.rank c.seq body

/-- A COLLECTIVE that passes its checks reads its source and sends its messages. -/
def collIssue (s : State) (e : Entry) (c : Coll) (g : Group) : State :=
  match vread s e.ctx c.src (c.srcBytes g) with
  | .error x => collFail (vtouch s e.ctx c.src (c.srcBytes g)) e true x
  | .ok bs =>
    let n := dropped e.pkt c g
    let k := (g.key, c.seq)
    let s1 := (vtouch s e.ctx c.src (c.srcBytes g)).addF Reg.CLX_COLL_DROP 63 0 n
    let s2 := s1.updEntry e.id fun x => { x with
      begun := true, held := none, detail := n, space := [⟨0, .area, .staging, 0, c.dstBytes g⟩] }
    let s3 := s2.putFab { s2.fab with dead := s2.fab.dead.filter fun x => decide (x ≠ k) }
    let s4 := (outgoing e.pkt c g bs).foldl (collSend c g e.id) s3
    settleSends (collSettle (drainStore s4 k) e.id)

/-- Start a COLLECTIVE: the group must be VALID and of the issuing context's partition (R340), hold this device at its rank
(R339), and the context's spill area must have room for its destination beside what it holds (R159, R347). -/
def collStart (s : State) (e : Entry) : State :=
  let c := collOf e.pkt
  let g := s.group c.group
  if !g.valid ∨ g.part ≠ e.part ∨ g.size = 0 ∨ collBad e.pkt c g then unpredCommand s e.id
  else if g.members.getD g.rank 65536 ≠ s.devId then
    complete (unpredictable s (.part e.part)) e.id { status := Config.unpredStatus s.free % 256 }
  else if s.spillSize e.ctx < s.areaHeld e.ctx + c.dstBytes g then
    collFail s e false (.trans (s.spillBase e.ctx + s.spillSize e.ctx))
  else collIssue s e c g

/-- An operation's command: it starts, or, once running, completes if it could not before. -/
def runColl (s : State) (id op : Nat) : State := match s.entry id with
  | none => s
  | some e =>
    if e.pkt.op ≠ opcCollective ∨ e.done ∨ (collOf e.pkt).op ≠ op ∨ !s.live ∨ !s.partOn e.part then s
    else if e.begun then settleSends (collSettle s id)
    else collStart s e

/-- ALLREDUCE (R342, R345, R346). -/
def execAllreduce (id : Nat) (s : State) : Out State := .next (runColl s id coAllreduce)

/-- REDUCE_SCATTER (R342, R345, R346). -/
def execReduceScatter (id : Nat) (s : State) : Out State := .next (runColl s id coReduceScatter)

/-- ALLGATHER (R342). -/
def execAllgather (id : Nat) (s : State) : Out State := .next (runColl s id coAllgather)

/-- BROADCAST (R342). -/
def execBroadcast (id : Nat) (s : State) : Out State := .next (runColl s id coBroadcast)

/-- ALLTOALL (R350, R351). -/
def execAlltoall (id : Nat) (s : State) : Out State := .next (runColl s id coAlltoall)

/-- SEND (R354). -/
def execSend (id : Nat) (s : State) : Out State := .next (runColl s id coSend)

/-- RECV (R354). -/
def execRecv (id : Nat) (s : State) : Out State := .next (runColl s id coRecv)

/-- ANCHOR (R352). -/
def execAnchor (id : Nat) (s : State) : Out State := .next (runColl s id coAnchor)

/-- COLLECTIVE_DATA (R346, R347). -/
def execCollectiveData (port : Nat) (m : FabMsg) (s : State) : Out State :=
  .next (if !s.takesVc12 port m then s else match m.body with
    | .coll _ _ _ _ abort _ _ _ => if abort then s else collArrive s m
    | _ => s)

/-- COLLECTIVE_ABORT (R349). -/
def execCollectiveAbort (port : Nat) (m : FabMsg) (s : State) : Out State :=
  .next (if !s.takesVc12 port m then s else match m.body with
    | .coll _ _ _ _ abort _ _ _ => if abort then collArrive s m else s
    | _ => s)

end Sys2Proof.Machine
end

