-- ==== Sys2Proof/Machine/Power.lean ====
section
/-!
DEFINITION. Power input, loops, steps and energy (15_power_and_thermal.md, 19_electrical_and_mechanical.md). Domains that
switch at an edge are in Apply.lean.
-/
namespace Sys2Proof.Machine

/-! ### Quad groups, modes and steps -/

/-- The quads of group g (R65, R384). -/
def State.groupQuads (s : State) (g : Nat) : List Nat :=
  (List.range 16).filter fun q => decide (s.hol.cur.groups.getD (8 + q) 0 % 16 = g)

/-- The group of a core. -/
def State.groupOfCore (s : State) (c : Nat) : Nat := s.hol.cur.groups.getD (8 + quadOf c) 0 % 16

/-- Loop state of group g, and a change of it. -/
def State.loop (s : State) (g : Nat) : GroupLoop := s.pwr.groups.getD g GroupLoop.none
@[inherit_doc State.loop] def State.setLoop (s : State) (g : Nat) (f : GroupLoop → GroupLoop) : State :=
  s.putPwr { s.pwr with groups := updAt s.pwr.groups g f }

/-- The mode in force: the most restrictive of PWR_CFG.MODE, the BMC's mode and Capped in ride-through, BOOT and TRAIN
(R388, Table 15.8). -/
def State.modeInForce (s : State) : Nat :=
  let base := max (min 2 (s.effF Reg.PWR_CFG 63 62)) (s.effF Reg.PWR_STAT 49 48)
  if s.fldR Reg.PWR_STAT 60 60 = 1 ∨ s.devState = stBoot ∨ s.devState = stTrain then 2 else min 2 base

/-- Sustained and excursion limits of a mode, 0.1 W (Table 15.5). -/
def sustained (mode : Nat) : Nat := if mode = 0 then 8000 else if mode = 1 then 5500 else 3500
@[inherit_doc sustained] def excursion (mode : Nat) : Nat := if mode = 0 then 9600 else if mode = 1 then 6600 else 4200

/-- The part is a lock follower (R395). -/
def State.follower (s : State) : Bool :=
  decide (s.effF Reg.CLX_CFG 61 61 = 1 ∧ s.fldR Reg.CLX_STAT 62 62 = 1)

/-- The terms of the effective step in listed order: (step, LIMIT code) (R386, Table 15.16). -/
def State.stepTerms (s : State) (g : Nat) : List (Nat × Nat) :=
  let r := Reg.PWR_GROUP g
  let l := s.loop g
  let req := if s.follower then (s.effF Reg.PWR_FLOCK 58 55, 4) else (max (s.effF r 63 60) (s.effF r 59 56), 0)
  [req, (s.effF r 55 52, 1), (s.effF Reg.PWR_CFG 61 58, 2), (s.effF Reg.PWR_STAT 53 50, 3), (l.power, 5),
   (l.junction, 6), (l.dram, 7), (l.input, if s.fldR Reg.PWR_STAT 58 58 = 1 then 9 else 8)]

/-- The first of the lowest terms. -/
def lowestTerm : List (Nat × Nat) → Nat × Nat
  | [] => (15, 0)
  | t :: ts => ts.foldl (fun a b => if b.1 < a.1 then b else a) t

/-- The activity ceiling of a group: the lowest of its loops' and the ramp's (R390). -/
def GroupLoop.act (l : GroupLoop) : Nat := min (min l.actPower l.actJunction) (min l.actInput l.actRamp)

/-- A lock follower reports the step its limits allow to the manager; the manager keeps its own reports (R334, R395,
R396). -/
def reportDrop (s : State) (step term : Nat) : State :=
  if s.isManager then s.putFab { s.fab with drops := s.fab.drops ++ [(step, 0)] }
  else fabSend s false (s.fldR Reg.CLX_MGR 63 48) 0 (.flockDrop step term)

/-- The highest step the ceilings and loops allow, and the term that sets it: the lowest over the groups, the request apart (R395). -/
def State.heldTerm (s : State) : Nat × Nat :=
  lowestTerm ((List.range 16).map fun g => lowestTerm ((s.stepTerms g).drop 1))

/-- Recompute group g: EFF, LIMIT, ACT_CEIL; count steps a safety loop lowered; flag a floor overridden (R394). -/
def settleGroup (s : State) (g : Nat) : State :=
  let r := Reg.PWR_GROUP g
  let old := s.fldR r 51 48
  let t := lowestTerm (s.stepTerms g)
  let floor := s.effF r 59 56
  let s1 := ((s.setF r 51 48 t.1).setF r 47 44 t.2).setF r 43 39 (s.loop g).act
  let safety := decide (5 ≤ t.2)
  let s2 := if safety ∧ t.1 < old then s1.addF Reg.PWR_STAT 31 0 (old - t.1) else s1
  if safety ∧ t.1 < old ∧ t.1 < floor ∧ !s.follower then
    let s' := signalPwr (s2.setF Reg.PWR_STAT 56 56 1)
    platformEvent (s'.putPwr { s'.pwr with overrides := s'.pwr.overrides ++ [(g, t.2, t.1, floor)] }) 3 g
  else s2

/-- A safety loop has lowered a group of a lock follower below the locked step between two states (R334, R395). -/
def State.fellTo (s t : State) : Bool :=
  s.follower && (List.range 16).any fun g =>
    let r := Reg.PWR_GROUP g
    decide (5 ≤ t.fldR r 47 44 ∧ t.fldR r 51 48 < s.fldR r 51 48 ∧ t.fldR r 51 48 < s.effF Reg.PWR_FLOCK 58 55)

/-- Recompute every group, the mode in force and the BMC disagreement of modes; a drop below the lock is reported once (R334, R386,
R388, R395). -/
def settlePower (s : State) : State :=
  let s0 := (List.range 16).foldl settleGroup s
  let s1 := if s.fellTo s0 then reportDrop (s0.setF Reg.CLX_STAT 55 55 1) s0.heldTerm.1 s0.heldTerm.2 else s0
  let s2 := s1.setF Reg.PWR_STAT 63 62 s1.modeInForce
  s2.setF Reg.PWR_STAT 55 55 (b2n (decide (min 2 (s2.fldR Reg.PWR_CFG 63 62) ≠ s2.fldR Reg.PWR_STAT 49 48)))

/-- Lower the power loop's limit of group g by one step below the step in force. During ride-through the loop leaves the steps, which
stand at F0 (R379). -/
def stepDownPower (s : State) (g : Nat) : State :=
  if s.fldR Reg.PWR_STAT 60 60 = 1 then s
  else s.setLoop g fun l => { l with power := min l.power (s.fldR (Reg.PWR_GROUP g) 51 48 - 1) }

/-! ### The input (R378 to R381) -/

/-- Every item is abandoned: claims return to the reissue lists (R380). -/
def abandonItems (s : State) : State :=
  s.putFlight (s.flight.map fun e =>
      { e with run := { e.run with reissue := sortBy (fun a b => decide (a ≤ b)) (e.run.reissue ++ e.run.claims.map (·.item))
                                   claims := [] } })

/-- BOOT, TRAIN, READY, RUN or SAFE. -/
def State.working (s : State) : Bool := decide (2 ≤ s.devState ∧ s.devState ≤ 6)

/-- The power-fail sequence starts (R380). -/
def startPowerFail (s : State) : State :=
  let s1 := signalPwr (s.setF Reg.PWR_STAT 58 58 1)
  let s2 := platformEvent (abandonItems s1) 2 0
  let s3 := s2.putOut { s2.out with alert := true }
  settlePower (s3.putPwr { s3.pwr with groups := s3.pwr.groups.map fun l => { l with input := 0, actInput := 1 } })

/-- Ride-through starts: Capped, F0, ceilings at 12/16, the event, the interrupt (R379). -/
def startRide (s : State) : State :=
  let s1 := signalPwr ((s.setF Reg.PWR_STAT 60 60 1).setF Reg.PWR_STAT 59 59 1)
  let s2 := platformEvent s1 1 0
  let gs := s2.pwr.groups.map fun l => { l with input := 0, actInput := min l.actInput 12 }
  settlePower (s2.putPwr { s2.pwr with rideEdge := false, groups := gs })

/-- The sampled input into PWR_INPUT and the duration counts (R378). -/
def sampleInput (s : State) (v a p10 p1000 p100k : Nat) : State :=
  let s1 := (((s.setF Reg.PWR_INPUT 63 48 (min v 65535)).setF Reg.PWR_INPUT 47 32 (min a 65535)).setF Reg.PWR_INPUT 31 16
    (min p1000 65535)).maxF Reg.PWR_INPUT 15 0 p10
  let s1 := tallyMax s1 telPowerMax p10
  let w := s1.pwr
  let us40 := if 4000 ≤ v then w.us40 + 1 else 0
  s1.putPwr { w with
        volts := v
        avg := p100k
        us40 := us40
        usRide := (if 3600 ≤ v ∧ v < 4000 then w.usRide + 1 else 0)
        us41 := (if 4100 ≤ v then w.us41 + 1 else 0)
        usOv := (if 6000 < v ∧ v ≤ 7200 then w.usOv + 1 else 0)
        holdUp := w.holdUp || decide (100000 ≤ us40) }

/-- The excursion count and flag (R389). -/
def sampleExcursion (s : State) (p1000 : Nat) : State :=
  if p1000 ≤ sustained s.modeInForce then
    ((s.putPwr { s.pwr with usExc := 0, excAt := 10000 }).setF Reg.PWR_STAT 57 57 0)
  else
    let s1 := if s.fldR Reg.PWR_STAT 57 57 = 0 then (s.setF Reg.PWR_STAT 57 57 1).satF Reg.PWR_STAT 47 32 1 else s
    s1.putPwr { s1.pwr with usExc := s1.pwr.usExc + 1 }

/-- The power loop at one sample: the sustained limit on the busiest group, the excursion limit on every group, and
groups whose droop responses exceed 25% (R389). -/
def samplePower (s : State) (p10 p100k busiest : Nat) (droops : List Nat) : State :=
  let ride := decide (s.fldR Reg.PWR_STAT 60 60 = 1)
  let floorAll := (List.range 16).all fun g => decide (s.fldR (Reg.PWR_GROUP g) 51 48 = 0)
  let lowerAct (d : Nat) (s : State) : State :=
    s.putPwr { s.pwr with groups := s.pwr.groups.map fun l => { l with actPower := max 1 (l.act - d) } }
  let s1 :=
    if p100k ≤ sustained s.modeInForce then s
    else if ride ∨ floorAll then lowerAct 1 s
    else stepDownPower s busiest
  let s2 := if p10 < excursion s.modeInForce then s1
    else lowerAct 2 ((List.range 16).foldl stepDownPower s1)
  settlePower (droops.foldl stepDownPower s2)

/-- INPUT_SAMPLE, every 1 µs: voltage in 10 mV, current in 10 mA, the 10 µs, 1 ms and 100 ms average powers in 0.1 W, the
busiest group, the groups whose droop responses exceed 25% of a 100 µs window (R378, R379, R380, R389). Above 72 V the
spec gives no behaviour. -/
def execInputSample (volts amps p10 p1000 p100k busiest : Nat) (droops : List Nat) (s : State) : Out State :=
  if 7200 < volts then .fault .aboveAbsoluteMaximum
  else .next (
    if s.devState = stOff then s
    else
      let s1 := sampleInput s volts amps p10 p1000 p100k
      if s.devState = stStandby ∨ s.devState = stFault then (if volts < 3000 then powerDown s1 stOff false else s1)
      else if s1.fldR Reg.PWR_STAT 58 58 = 1 then s1
      else if volts < 3600 then startPowerFail s1
      else
        let s2 := if volts < 4000 ∧ s1.fldR Reg.PWR_STAT 60 60 = 0 then startRide s1 else s1
        samplePower (sampleExcursion s2 p1000) p10 p100k busiest droops)

/-- RIDE_THROUGH_TIMEOUT: ride-through has reached 20 ms (R378, R380). -/
def execRideThroughTimeout (s : State) : Out State :=
  .next (
    if s.working ∧ s.fldR Reg.PWR_STAT 60 60 = 1 ∧ 20000 ≤ s.pwr.usRide ∧ s.fldR Reg.PWR_STAT 58 58 = 0 then startPowerFail s
    else s)

/-- RIDE_THROUGH_END: at the first edge after 1 ms at 41 V or more, or at the 1 ms mark where no tick runs (R379). -/
def execRideThroughEnd (s : State) : Out State :=
  .next (
    if s.fldR Reg.PWR_STAT 60 60 = 1 ∧ s.fldR Reg.PWR_STAT 58 58 = 0 ∧ 1000 ≤ s.pwr.us41 ∧ (s.pwr.rideEdge ∨ !s.tick.running) then
      let s1 := s.setF Reg.PWR_STAT 60 60 0
      let gs := s1.pwr.groups.map fun l => { l with actInput := 16 }
      settlePower (s1.putPwr { s1.pwr with rideEdge := false, groups := gs })
    else s)

/-- POWER_FAIL_SHUTDOWN: 2 ms into the sequence the log is in flash and every domain but PD00 goes off: STANDBY at 30 V or
more, OFF otherwise (R380, R425). -/
def execPowerFailShutdown (s : State) : Out State :=
  .next (
    if s.fldR Reg.PWR_STAT 58 58 = 0 then s
    else
      let s1 := ((snapshotLog s).setF Reg.PWR_STAT 58 58 0).setF Reg.PWR_STAT 60 60 0
      let s2 := powerDown s1 (if 3000 ≤ s.pwr.volts then stStandby else stOff) false
      (s2
          |>.putOut { s2.out with alert := decide (s2.mgt.events ≠ []) }
          |>.putPwr { s2.pwr with holdUp := false, groups := s2.pwr.groups.map fun _ => GroupLoop.none }))

/-- INPUT_OV_TIMEOUT: 60 V to 72 V for 100 µs (Table 15.1). -/
def execInputOvTimeout (s : State) : Out State :=
  .next (
    if s.devState ≠ stOff ∧ s.devState ≠ stFault ∧ 100 ≤ s.pwr.usOv then enterFault s srcPower causeInputOv else s)

/-- EXCURSION_TIMEOUT: at 10 ms every group is forced down one step, then every 100 µs (R389). -/
def execExcursionTimeout (s : State) : Out State :=
  .next (
    if s.fldR Reg.PWR_STAT 57 57 = 1 ∧ s.pwr.excAt ≤ s.pwr.usExc then
      let s1 := (List.range 16).foldl stepDownPower s
      settlePower (s1.putPwr { s1.pwr with excAt := s1.pwr.usExc + 100 })
    else s)

/-- INPUT_STAGE_CHARGED: from OFF to STANDBY once the input stage is charged and the input has stood at 40 V or more for
10 ms; PD00 powers, SLOT_ID is read and sets the member number (R440, R444, R319). -/
def execInputStageCharged (volts slot : Nat) (s : State) : Out State :=
  .next (
    if s.devState ≠ stOff ∨ volts < 4000 then s
    else
      let s1 := enterState s stStandby
      let s2 := (s1.setReg Reg.MGT_STAT (regReset Reg.MGT_STAT)).setF Reg.CLX_ID 9 0 (slot % 8)
      (s2
          |>.putDev { s2.dev with slotId := slot % 8, bmcOff := false, onWaiting := false, safeBoot := false }
          |>.putPwr { State.reset.pwr with on := 1, ready := 1, volts := volts, us40 := 10000 }))

/-- INPUT_REMOVED: to OFF; PD00 loses its state too (Table 0.6, R441, R275). -/
def execInputRemoved (s : State) : Out State :=
  .next (
    if s.devState = stOff then s
    else
      let s1 := powerDown s stOff false
      (s1
          |>.putRegs (s1.regs.filter fun r => decide (r.1 = Reg.GLB_STATE))
          |>.putEff []
          |>.putPwr { State.reset.pwr with on := 0, ready := 0 }
          |>.putMgt { State.reset.mgt with snapshots := s1.mgt.snapshots, erases := s1.mgt.erases, trims := s1.mgt.trims }
          |>.putOut { s1.out with alert := false }))

/-! ### Droop, junction and DRAM loops (R391 to R393) -/

/-- DROOP_DETECT: 30 mV or more below the setpoint drops the clock (R391). -/
def execDroopDetect (group mv : Nat) (s : State) : Out State :=
  .next (
    if 16 ≤ group ∨ mv < 30 ∨ (s.loop group).drooped then s
    else (s.setLoop group fun l => { l with drooped := true }).addF Reg.PWR_DROOP 63 32 1)

/-- DROOP_RECOVERY: the clock returns; the core cycles spent at the droop clock are counted (R391). -/
def execDroopRecovery (group cycles : Nat) (s : State) : Out State :=
  .next (
    if (s.loop group).drooped then (s.setLoop group fun l => { l with drooped := false }).addF Reg.PWR_DROOP 31 0 cycles
    else s)

/-- A throttle flag is set or cleared; setting it is an event and an interrupt (R421, Table 15.13). -/
def setThrottle (s : State) (off b : Nat) (on : Bool) : State :=
  let was := s.fldR off b b
  let s1 := s.setF off b b (b2n on)
  if on ∧ was = 0 then signalPwr (platformEvent s1 4 b) else s1

/-- The hottest of the listed indices. -/
def hottest (l : List Int) (is : List Nat) : Int × Nat :=
  is.foldl (fun a i => if a.1 < l.getD i (-2000) then (l.getD i (-2000), i) else a) (-2000, 0)

/-- JL and DL: the registers' thresholds limited to their ranges (R392, R393, Table 15.18). -/
def State.jl (s : State) : Nat := clampNat 60 103 (s.effF Reg.THM_CFG 63 56)
@[inherit_doc State.jl] def State.dl (s : State) : Nat := clampNat 60 95 (s.effF Reg.THM_CFG 55 48)

/-- The junction loop on one group from its hottest core, in 1/16 °C (R392). -/
def junctionGroup (temps : List Int) (s : State) (g : Nat) : State :=
  let cores := (s.groupQuads g).flatMap quadCores
  if cores = [] then s
  else
    let t := (hottest temps cores).1
    let jl : Int := 16 * (s.jl : Int)
    let eff := s.fldR (Reg.PWR_GROUP g) 51 48
    let hot := if jl ≤ t then (s.loop g).hotSamples + 1 else 0
    let s1 := s.setLoop g fun l => { l with
      hotSamples := hot
      tripSamples := if 1760 ≤ t then l.tripSamples + 1 else 0
      coolSamples := if t ≤ jl - 48 then l.coolSamples + 1 else 0
      junction := if 1680 ≤ t then 0 else if jl ≤ t ∧ hot % 5 = 1 then min l.junction (eff - 1) else l.junction
      actJunction := if 1680 ≤ t then min l.actJunction 8 else l.actJunction }
    if 1680 ≤ t then
      let s2 := s1.setF Reg.THM_STAT 12 12 1
      if s.fldR Reg.THM_STAT 12 12 = 0 then signalPwr s2 else s2
    else s1

/-- JUNCTION_SAMPLE, every 10 µs: the 64 junctions in 1/16 °C (R392, Tables 15.19, 15.20). -/
def execJunctionSample (temps : List Int) (s : State) : Out State :=
  .next (
    if s.devState = stOff ∨ s.devState = stStandby then s
    else
      let s1 := (List.range 16).foldl (fun s q =>
        (List.range 4).foldl (fun s k =>
          s.setF (Reg.THM_QUAD q) (16 * k + 15) (16 * k) (toTwos 16 (temps.getD ((quadCores q).getD k 0) 0))) s) s
      let h := hottest temps (List.range 64)
      let s2 := (s1.setF Reg.THM_STAT 63 56 (toTwos 8 (h.1 / 16))).setF Reg.THM_STAT 55 50 h.2
      let s3 := settlePower ((List.range 16).foldl (junctionGroup temps) s2)
      setThrottle s3 Reg.THM_STAT 15 (s3.pwr.groups.any fun l => decide (l.junction < 15)))

/-- The refresh window of a vault at a reading: it shortens at once and lengthens after 1 s at 3 °C or more below the
threshold (R281, Table 11.3). -/
def refreshWindow (s : State) (v : Nat) (t : Int) : State :=
  let cur := s.fldR (Reg.MEM_STAT v) 55 54
  let want := if t ≤ 70 then 0 else if t ≤ 85 then 1 else 2
  let thr : Int := if cur = 1 then 70 else 85
  if cur < want then ((s.putPwr { s.pwr with winCool := updAt s.pwr.winCool v fun _ => 0 }).setF (Reg.MEM_STAT v) 55 54 want)
  else if cur = 0 ∨ thr - 3 < t then s.putPwr { s.pwr with winCool := updAt s.pwr.winCool v fun _ => 0 }
  else if 999 ≤ s.pwr.winCool.getD v 0 then
    ((s.putPwr { s.pwr with winCool := updAt s.pwr.winCool v fun _ => 0 }).setF (Reg.MEM_STAT v) 55 54 (cur - 1))
  else s.putPwr { s.pwr with winCool := updAt s.pwr.winCool v (· + 1) }

/-- The access-slot limit of a vault or package: tightened at once; each limit is released after 1 s at 3 °C or more below
its own threshold, 100 °C for 25%, 95 °C for the others (R393; log entry 62). -/
def slotLimit (lim cool want : Nat) (t : Int) : Nat × Nat :=
  if want < lim then (want, 0)
  else if want = lim then (lim, 0)
  else if t ≤ (if lim ≤ 25 then 97 else 92) then
    (if 999 ≤ cool then (if lim ≤ 25 then 75 else 100, 0) else (lim, cool + 1))
  else (lim, 0)

/-- The DRAM loop on one vault (R281, R282, R393). -/
def dramVault (temps : List Int) (s : State) (v : Nat) : State :=
  let t := temps.getD v 0
  let s1 := refreshWindow (s.setF (Reg.MEM_STAT v) 63 56 (toTwos 8 t)) v t
  let s2 := setThrottle s1 (Reg.MEM_STAT v) 53 (decide (95 < t))
  let want := if 100 ≤ t then 25 else if 95 < t then 75 else 100
  let r := slotLimit (s2.pwr.vaultLimit.getD v 100) (s2.pwr.vaultCool.getD v 0) want t
  s2.putPwr { s2.pwr with
        vaultLimit := updAt s2.pwr.vaultLimit v fun _ => r.1
        vaultCool := updAt s2.pwr.vaultCool v fun _ => r.2 }

/-- The DRAM loop on one group from the vaults above its cores (R393). -/
def dramGroup (temps : List Int) (s : State) (g : Nat) : State :=
  let cores := (s.groupQuads g).flatMap quadCores
  if cores = [] then s
  else
    let t := (hottest temps cores).1
    let dl : Int := s.dl
    let eff := s.fldR (Reg.PWR_GROUP g) 51 48
    s.setLoop g fun l => { l with
      dram := if 100 ≤ t then 0 else if dl ≤ t then min l.dram (eff - 1) else l.dram
      dramCool := if t ≤ dl - 3 then l.dramCool + 1 else 0 }

/-- The DRAM loop on one bulk package (R393). -/
def dramPackage (temps : List Int) (s : State) (k : Nat) : State :=
  let t := temps.getD k 0
  let r := slotLimit (s.pwr.pkgLimit.getD k 100) (s.pwr.pkgCool.getD k 0) (if 95 < t then 50 else 100) t
  s.putPwr { s.pwr with pkgLimit := updAt s.pwr.pkgLimit k fun _ => r.1, pkgCool := updAt s.pwr.pkgCool k fun _ => r.2 }

/-- DRAM_TEMP_SAMPLE, every 1 ms: top-tier temperatures of the 64 vaults, the 16 packages, and the MR4 derating (R281,
R393, Tables 11.9, 11.14, 15.19). -/
def execDramTempSample (vaults packages : List Int) (derate : Nat) (s : State) : Out State :=
  .next (
    if s.devState = stOff ∨ s.devState = stStandby then s
    else
      let s0 := s.putPwr { s.pwr with vaultTemp := vaults, pkgTemp := packages }
      let s1 := (List.range 64).foldl (dramVault vaults) s0
      let s2 := (List.range 16).foldl (dramGroup vaults) s1
      let s3 := (List.range 16).foldl (dramPackage packages) s2
      let hv := hottest vaults (List.range 64)
      let hp := hottest packages (List.range 16)
      let s4 := ((s3.setF Reg.THM_STAT 47 40 (toTwos 8 hv.1)).setF Reg.THM_STAT 39 34 hv.2).setF Reg.THM_STAT 31 24 (toTwos 8 hp.1)
      let s5 := ((s4.setF Reg.THM_STAT 23 20 hp.2).setF Reg.BLK_STAT 63 56 (toTwos 8 hp.1)).setF Reg.BLK_STAT 55 54 derate
      let s6 := settlePower (setThrottle s5 Reg.BLK_STAT 53 (decide (95 < hp.1)))
      let s7 := setThrottle s6 Reg.THM_STAT 14
        ((s6.pwr.groups.any fun l => decide (l.dram < 15)) || s6.pwr.vaultLimit.any fun n => decide (n < 100))
      setThrottle s7 Reg.THM_STAT 13 (s7.pwr.pkgLimit.any fun n => decide (n < 100)))

/-- THERMAL_TRIP: a junction at 110 °C for 1 ms, or a tier or package at 105 °C (R392, R393). -/
def execThermalTrip (s : State) : Out State :=
  .next (
    if s.devState ≠ stOff ∧ s.devState ≠ stFault ∧ ((s.pwr.groups.any fun l => decide (100 ≤ l.tripSamples)) ∨
        (s.pwr.vaultTemp.any fun t => decide (105 ≤ t)) ∨ s.pwr.pkgTemp.any fun t => decide (105 ≤ t)) then
      enterFault s srcThermal causeThermalTrip
    else s)

/-- A loop of a group has released: the power loop once the averages stand at or below the limit, the input loop once
ride-through is over, the thermal loops after their time below the threshold (R387, R389, R392, R393). -/
def State.released (s : State) (g : Nat) : LoopName → Bool
  | .power => decide (s.pwr.usExc = 0 ∧ s.pwr.avg ≤ sustained s.modeInForce)
  | .junction => decide (100 ≤ (s.loop g).coolSamples)
  | .dram => decide (1000 ≤ (s.loop g).dramCool)
  | .input => decide (s.fldR Reg.PWR_STAT 60 60 = 0 ∧ s.fldR Reg.PWR_STAT 58 58 = 0)

/-- Raise one loop's step limit by one; its activity ceiling is released with it. -/
def GroupLoop.rise (l : GroupLoop) : LoopName → GroupLoop
  | .power => { l with power := min 15 (l.power + 1), actPower := min 16 (l.actPower + 1) }
  | .junction => { l with junction := min 15 (l.junction + 1), actJunction := 16 }
  | .dram => { l with dram := min 15 (l.dram + 1) }
  | .input => { l with input := min 15 (l.input + 1) }

/-- LOOP_RELEASE_STEP_UP: one step per 100 µs or 1 ms (R387). -/
def execLoopReleaseStepUp (group : Nat) (loop : LoopName) (s : State) : Out State :=
  .next (
    if 16 ≤ group ∨ !s.released group loop then s
    else
      let s1 := settlePower (s.setLoop group fun l => l.rise loop)
      let s2 := s1.setF Reg.THM_STAT 15 15 (b2n (s1.pwr.groups.any fun l => decide (l.junction < 15)))
      s2.setF Reg.THM_STAT 14 14
        (b2n ((s2.pwr.groups.any fun l => decide (l.dram < 15)) || s2.pwr.vaultLimit.any fun n => decide (n < 100))))

/-- STEP_CHANGE_COMPLETE: rail and clock have reached the effective step (R387). -/
def execStepChangeComplete (group : Nat) (s : State) : Out State :=
  .next (s.setLoop group fun l => { l with atStep := s.fldR (Reg.PWR_GROUP group) 51 48 })

/-- ACTIVITY_RAMP, every RAMP/16: the ceiling follows demand by 1/16 (R390). -/
def execActivityRamp (group demand stall fill : Nat) (s : State) : Out State :=
  .next (
    if 16 ≤ group then s
    else
      let s1 := s.setLoop group fun l => { l with
        actRamp := if l.actRamp < demand then min 16 (l.actRamp + 1)
                   else if demand < l.actRamp then max 1 (l.actRamp - 1) else l.actRamp }
      let s2 := s1.setF (Reg.PWR_GROUP group) 43 39 (s1.loop group).act
      (s2.addF Reg.PWR_RAMP 63 32 stall).addF Reg.PWR_RAMP 31 0 fill)

/-- ENERGY_WINDOW, every 1 ms: dynamic energy to its contexts, the rest in proportion to core time, background and what no
context can take to PWR_UNATTR, all in µJ, so that the counters add up to the measured energy; a window in which no core time was charged
goes to PWR_UNATTR whole (R397). -/
def execEnergyWindow (total background : Nat) (dynamics times : List (Nat × Nat)) (s : State) : Out State :=
  let time := times.foldl (fun n x => n + x.2) 0
  let dynamic := if time = 0 then [] else dynamics
  let dyn := dynamic.foldl (fun n x => n + x.2) 0
  let rest := total - background - dyn
  let share (t : Nat) : Nat := if time = 0 then 0 else rest * t / time
  let given := times.foldl (fun n x => n + share x.2) 0
  let give (s : State) (n e : Nat) : State :=
    tally (s.addF (Reg.PWR_CTX_ENERGY n) 63 0 e) (telPart (s.ctxPart n) telPartEnergy) e
  let s1 := dynamic.foldl (fun s x => give s x.1 x.2) s
  let s2 := times.foldl (fun s x => give s x.1 (share x.2)) s1
  let s3 := tally (tally s2 telEnergy total) telUnattributed (background + (rest - given))
  .next (s3.addF Reg.PWR_UNATTR 63 0 (background + (rest - given)))

end Sys2Proof.Machine
end

