-- ==== Sys2Proof/Machine/Fabric.lean ====
section
/-!
DEFINITION. The Pelvas fabric (12_pelvas_fabric.md): ports and their link layer, discovery, election, membership, the
clasp, READY, frequency lock, fault injection and eye margining. What a membership change does at its edge stands here;
the edge itself is in Edge.lean.
-/
namespace Sys2Proof.Machine

/-! ### What this device says of itself -/

/-- CLX_CFG in effect: JOIN, ELIGIBLE, FABRIC, LEAD in 10 ns units (Table 12.17). -/
def State.joined (s : State) : Bool := decide (s.effF Reg.CLX_CFG 63 63 = 1)
@[inherit_doc State.joined] def State.eligible (s : State) : Bool := decide (s.effF Reg.CLX_CFG 62 62 = 1)
@[inherit_doc State.joined] def State.fabricMode (s : State) : Bool := decide (s.effF Reg.CLX_CFG 60 60 = 1)
@[inherit_doc State.joined] def State.lead (s : State) : Nat := clampNat 200 2000 (s.effF Reg.CLX_CFG 10 0)

/-- Another device holds this ID (R322). -/
def State.dupId (s : State) : Bool := decide (s.fldR Reg.CLX_STAT 57 57 = 1)

/-- Change the fabric unit. -/
def State.setFab (s : State) (f : Fab → Fab) : State := s.putFab (f s.fab)

/-- Name the manager, the standby, the root (Table 12.19). -/
def setManager (s : State) (o : Option Nat) : State :=
  (s.setF Reg.CLX_MGR 63 48 (o.getD 0)).setF Reg.CLX_MGR 15 15 (b2n o.isSome)
@[inherit_doc setManager] def setStandby (s : State) (o : Option Nat) : State :=
  (s.setF Reg.CLX_MGR 47 32 (o.getD 0)).setF Reg.CLX_MGR 14 14 (b2n o.isSome)
@[inherit_doc setManager] def setRoot (s : State) (o : Option Nat) : State :=
  (s.setF Reg.CLX_MGR 31 16 (o.getD 0)).setF Reg.CLX_MGR 13 13 (b2n o.isSome)

/-- CLX_STAT's role bits and CLX_MGR.MEMBERS follow from the members and the named manager and standby. -/
def settleRole (s : State) : State :=
  let mgr := s.inGroup && decide (s.manager = some s.devId)
  let sby := s.inGroup && decide (s.standby = some s.devId)
  ((s.setF Reg.CLX_STAT 61 61 (b2n mgr)).setF Reg.CLX_STAT 60 60 (b2n sby)).setF Reg.CLX_MGR 10 0 s.fab.members.length

/-- The other members. -/
def State.otherMembers (s : State) : List Nat := (s.fab.members.map (·.id)).filter fun i => decide (i ≠ s.devId)

/-- Send a control message to each of a list of devices. -/
def sendEach (s : State) (ids : List Nat) (body : FabBody) : State :=
  (ids.filter fun i => decide (i ≠ s.devId)).foldl (fun s i => fabSend s false i 0 body) s

/-- Eligibility of a device as HELLO told it. -/
def State.knownEligible (s : State) (id : Nat) : Bool :=
  if id = s.devId then s.eligible else s.fab.known.any fun k => decide (k.1 = id) && k.2.2

/-- The lowest of a list, and the lowest above it. -/
def lowest (l : List Nat) : Option Nat := (sortBy (fun a b => decide (a ≤ b)) l).head?
@[inherit_doc lowest] def second (l : List Nat) : Option Nat := ((sortBy (fun a b => decide (a ≤ b)) l).drop 1).head?

/-- IDs of the eligible members. -/
def eligibleOf (l : List Member) : List Nat := (l.filter (·.eligible)).map (·.id)

/-! ### Ports (R312 to R315) -/

/-- The port's domain is up and its port trained once. -/
def State.portOk (s : State) (p : Nat) : Bool := s.domReady (4 + p / 3) && !s.dev.badPorts.testBit p

/-- WIDTH of a port whose failed lanes are given: 3 all lanes, 1 lanes 0 and 1, 2 lanes 2 and 3, 0 none (R313). -/
def widthOf (bad : Nat) : Nat :=
  if bad % 16 = 0 then 3 else if bad % 4 = 0 then 1 else if bad / 4 % 4 = 0 then 2 else 0

/-- The link of a port goes DOWN: its replay buffer is lost (R315). A manager loses the member behind it, and a member its
manager (R324, R328). -/
def linkFall (s : State) (p : Nat) : State :=
  let r := Reg.PLK_STAT p
  let partner := s.fldR r 47 32
  let direct := (s.port p).partnerSeen && !s.portSwitch p
  let lost := (s.port p).replay.map (·.2)
  let s1 := if s.fldR r 63 62 = 2 then s.satF (Reg.PLK_ERR p) 3 0 1 else s
  let s2 := (s1.setF r 63 62 0).setF r 61 60 0
  let s3 := (markLost s2 lost).setPort p fun _ => Port.down
  if direct then updMember s3 partner fun m => { m with silent := max m.silent 30 } else s3

/-- Send through one port to its partner, or to whoever is there. -/
def sendPort (s : State) (p : Nat) (bcast : Bool) (body : FabBody) : State :=
  let dst := if bcast then 0 else s.fldR (Reg.PLK_STAT p) 47 32
  let q := nextMseq s (4 * if bcast then 65536 else dst)
  sendOn q.2 false p ⟨dst, s.devId, bcast, 0, q.1, body⟩

/-- This device's HELLO on a port (R321). -/
def sendHello (s : State) (p : Nat) : State :=
  sendPort s p true (.hello s.devId (s.reg Reg.GLB_SERIAL) p s.eligible false)

/-- A request that measures the delay of a port's link (R332; log entry 30). -/
def sendTime (s : State) (p : Nat) : State := sendPort s p false (.time 0 0)

/-- PORT_UP: a port that trained at width 4 or 2 comes UP, and sends HELLO and TIME; with both lane pairs failed it stays
DOWN (R312, R313, R321, R332). -/
def execPortUp (port badLanes : Nat) (s : State) : Out State :=
  let r := Reg.PLK_STAT port
  .next (
    if 12 ≤ port ∨ ¬(3 ≤ s.devState ∧ s.devState ≤ 6) ∨ !s.portOk port ∨ s.fldR (Reg.PLK_CTL port) 63 63 = 0 ∨
        2 ≤ s.fldR r 63 62 then s
    else if widthOf badLanes = 0 then (s.setF r 63 62 0).setF r 61 60 0
    else
      let s1 := ((s.setF r 63 62 2).setF r 61 60 (widthOf badLanes)).setPort port fun _ => Port.down
      sendTime (sendHello s1 port) port)

/-- The membership change a manager announces (R325): it applies at the named edge. -/
def announce (s : State) (edge id : Nat) (joins : Bool) : State :=
  let s1 := s.setFab fun f => { f with changes := f.changes ++ [(edge, id, joins)] }
  sendEach s1 (dedup (s1.otherMembers ++ [id])) (.member [(id, joins)] edge none s1.standby (s1.fldR Reg.CLX_STAT 15 0 + 1))

/-- The manager treats a member as lost: its READY is not waited for, and its departure is announced for the next edge
(R324). -/
def loseMember (s : State) (id : Nat) : State :=
  if s.fab.changes.any fun c => decide (c.2.1 = id) && !c.2.2 then s
  else announce (updMember s id fun m => { m with ready := true }) (s.tickNum + 1) id false

/-- The members a manager has lost: direct link DOWN, or 30 µs of silence (R324). -/
def loseSilent (s : State) : State :=
  if !s.isManager then s
  else ((s.fab.members.filter fun m => decide (m.id ≠ s.devId ∧ 30 ≤ m.silent)).map (·.id)).foldl loseMember s

/-- LINK_DOWN (R312, R315, R324). -/
def execLinkDown (port : Nat) (s : State) : Out State :=
  .next (if 12 ≤ port ∨ s.fldR (Reg.PLK_STAT port) 63 62 = 0 then s else loseSilent (linkFall s port))

/-- A retrain starts (R315). -/
def startRetrain (s : State) (p : Nat) : State :=
  ((s.setF (Reg.PLK_STAT p) 63 62 3).satF (Reg.PLK_ERR p) 7 4 1).setPort p fun q => { q with replays := 0 }

/-- RETRAIN_COMPLETE: the link stays up at the width its lanes give, or goes DOWN (R313, R315). -/
def execRetrainComplete (port badLanes : Nat) (s : State) : Out State :=
  .next (
    if 12 ≤ port ∨ s.fldR (Reg.PLK_STAT port) 63 62 ≠ 3 then s
    else if widthOf badLanes = 0 then loseSilent (linkFall s port)
    else (s.setF (Reg.PLK_STAT port) 63 62 2).setF (Reg.PLK_STAT port) 61 60 (widthOf badLanes))

/-- PLK_RETRAIN (R315, R337). -/
def execPlkRetrain (fn port : Nat) (s : State) : Out State :=
  .next (if !s.live ∨ fn ≠ 0 ∨ 12 ≤ port ∨ !s.portUp port then s else startRetrain s port)

/-- PLK_MARGIN_START (R336, Table 12.14). -/
def execPlkMarginStart (fn port : Nat) (value : Word) (s : State) : Out State :=
  .next (
    if !s.live ∨ fn ≠ 0 ∨ 12 ≤ port then s
    else marginStart s (Reg.PLK_MARGIN port) (Reg.PLK_STAT port) (Reg.PLK_MARGIN_RES port) 58 57
      (maskOf 59 57 ||| maskOf 47 16) value)

/-- PLK_MARGIN_DONE: a run with DWELL zero compared nothing (R336, Table 12.14). -/
def execPlkMarginDone (port errors : Nat) (s : State) : Out State :=
  .next (
    if 12 ≤ port then s
    else marginDone s (Reg.PLK_STAT port) (Reg.PLK_MARGIN_RES port) 58
      (if s.fldR (Reg.PLK_MARGIN port) 39 16 = 0 then 0 else errors))

/-- PELVAS_RECALIBRATION: packets wait and none is lost; no state changes (R315, R428). -/
def execPelvasRecalibration (_port _lane : Nat) (s : State) : Out State := .next s

/-! ### Discovery (R321, R322) -/

/-- A device of the fabric is learnt: its ID, serial and eligibility; another device with this ID sets DUP_ID (R322). -/
def learn (s : State) (id : Nat) (serial : Word) (elig : Bool) : State :=
  if serial = s.reg Reg.GLB_SERIAL then s
  else
    let s1 := s.setFab fun f => { f with
      known := f.known.filter (fun k => decide (k.2.1 ≠ serial)) ++ [(id, serial, elig)]
      members := f.members.map fun m => if m.id = id ∧ id ≠ s.devId then { m with eligible := elig } else m }
    if id = s.devId then s1.setF Reg.CLX_STAT 57 57 1 else s1

/-- A HELLO on a port: of the partner, which is recorded, or one that a switch floods (R321). -/
def onHello (s : State) (p id : Nat) (serial : Word) (pport : Nat) (elig switch : Bool) : State :=
  let r := Reg.PLK_STAT p
  if switch then
    let s1 := (((s.setF r 59 59 1).setF r 51 48 pport).setF r 47 32 0).setReg (Reg.PLK_PARTNER p) serial
    s1.setPort p fun q => { q with partnerSeen := true }
  else if (s.port p).partnerSeen && s.portSwitch p then learn s id serial elig
  else
    let s1 := (((s.setF r 59 59 0).setF r 51 48 pport).setF r 47 32 id).setReg (Reg.PLK_PARTNER p) serial
    learn (s1.setPort p fun q => { q with partnerSeen := true }) id serial elig

/-- HELLO_TIMER: every 1 ms each UP port repeats HELLO (R321). -/
def execHelloTimer (s : State) : Out State := .next (s.upPorts.foldl sendHello s)

/-! ### Election and joining (R323, R326) -/

/-- The lowest eligible ID this device knows among the devices electing: heard, or its own. -/
def State.bestKnown (s : State) : Option Nat :=
  lowest ((if s.eligible then [s.devId] else []) ++ s.fab.best.toList)

/-- JOIN has taken effect: the device sends ELECT with the lowest eligible ID it knows (R323, R326). A device that is not
eligible names the lowest eligible device of its domain it has heard of. -/
def startJoin (s : State) : State :=
  let heard := (s.fab.known.filter fun k => k.2.2 && decide (k.1 / 1024 = s.devId / 1024)).map (·.1)
  let b := match s.bestKnown with
    | some b => some b
    | none => lowest heard
  let s1 := s.setFab fun f => { f with best := b }
  match b with
  | some b => fabBroadcast s1 (.elect b)
  | none => s1

/-- The edge a change announced now applies at: the first scheduled after it (R323). -/
def State.nextOpenEdge (s : State) : Nat := match s.fab.sched with
  | some c => c.tick + 1
  | none => s.tickNum + 1

/-- A joining device is admitted by the manager: every member hears of it, and it hears of every member (R323; log entry
31). -/
def admitJoin (s : State) (id : Nat) : State :=
  if id = s.devId ∨ s.fab.members.any (fun m => decide (m.id = id)) ∨ s.fab.changes.any (fun c => decide (c.2.1 = id) && c.2.2) then s
  else
    let edge := s.nextOpenEdge
    let s1 := announce s edge id true
    let joining := (s1.fab.changes.filter fun c => c.2.2 && decide (c.2.1 ≠ id)).map (·.2.1)
    (s1.fab.members.map (·.id) ++ joining).foldl (fun s m =>
      fabSend s false id 0 (.member [(m, true)] edge none s.standby (s.fldR Reg.CLX_STAT 15 0 + 1))) s1

/-- An ELECT from a device: answered by a manager, else a lower ID is kept and forwarded (R323, R326). -/
def onElect (s : State) (src low : Nat) : State :=
  if s.dupId ∨ !s.joined then s
  else if s.leads then admitJoin s src
  else if s.manager.isSome then s
  else
    let s1 := s.setFab fun f => { f with members := if f.members.any fun m => decide (m.id = src) then f.members
      else f.members ++ [⟨src, 0, s.knownEligible src || decide (src = low), false⟩] }
    let lower := match s.bestKnown with
      | some b => decide (low < b)
      | none => true
    if lower then fabBroadcast (s1.setFab fun f => { f with best := some low }) (.elect low) else s1

/-- ELECTION_TIMEOUT: 100 µs without a lower ID, the device that holds the lowest declares itself manager; it and the devices it has
heard join at the group's first clasped edge, and till then it keeps its own ticks (R42, R325, R326; log entry 77). -/
def execElectionTimeout (s : State) : Out State :=
  .next (
    if s.dupId ∨ !s.joined ∨ !s.eligible ∨ s.manager.isSome ∨ s.inGroup ∨ s.bestKnown ≠ some s.devId then s
    else
      let heard := (s.fab.members.map (·.id)).filter fun i => decide (i ≠ s.devId)
      let s1 := s.setFab fun f => { f with members := [], changes := [(s.nextOpenEdge, s.devId, true)] }
      heard.foldl admitJoin (setManager s1 (some s.devId)))

/-! ### Domain time (R324, R332) -/

/-- A message of a member was heard. -/
def heard (s : State) (src : Nat) : State := updMember s src fun m => { m with silent := 0 }

/-- HEARTBEAT: liveness, and from the manager the domain time, corrected by the path's delay (R332). -/
def onHeartbeat (s : State) (p src time correction : Nat) : State :=
  let s1 := heard s src
  if s.manager = some src then s1.setFab fun f => { f with domainTime := time + correction + (s.port p).delay } else s1

/-- HEARTBEAT_TIMER, every 10 µs: a member sends HEARTBEAT to the manager, the manager to every member (R322, R324, R332). -/
def execHeartbeatTimer (s : State) : Out State :=
  .next (
    if !s.inGroup ∨ s.dupId then s
    else
      let s1 := s.setFab fun f => { f with
        domainTime := f.domainTime + 1000
        members := f.members.map fun m => if m.id = s.devId then m else { m with silent := m.silent + 10 } }
      let body := FabBody.heartbeat s1.fab.domainTime 0
      if s.isManager then sendEach s1 s1.otherMembers body else toManager s1 body)

/-- TIME: a request is answered; an answer gives the delay of the link, half the round trip less the residency (R332; log
entry 30). -/
def onTime (s : State) (p trip resid : Nat) : State :=
  if trip = 0 ∧ resid = 0 then
    let d := draw s
    sendPort d.2 p false (.time 0 (d.1 % 2 ^ 16 + 1))
  else s.setPort p fun q => { q with delay := (trip - resid) / 2 }

/-- TIME_TIMER: every 1 ms each link's delay is measured again (R332). -/
def execTimeTimer (s : State) : Out State := .next (s.upPorts.foldl sendTime s)

/-! ### READY (R331, R333) -/

/-- Commands of the current interval still outstanding, LC alone or of both classes (Table 1.2, R92; log entry 26). -/
def State.outstanding (s : State) (lcOnly : Bool) : Bool :=
  s.flight.any fun e => decide (e.admitTick = s.tickNum) && !e.done && !edgeBound e.pkt.op && (e.lc || !lcOnly)

/-- The tick configuration in force. -/
def State.tckWord (s : State) : Word := s.effReg Reg.TCK_CFG
@[inherit_doc State.tckWord] def State.tckMode (s : State) : Nat := tickMode s.tckWord
@[inherit_doc State.tckWord] def State.tckPeriod (s : State) : Nat := tickPeriod s.tckWord

/-- The latest length of an interval: the period in Fixed mode; with the stretch, at most 1 s, in Elastic; the period, or 1 s
when it is zero, in Free (Table 1.2). -/
def State.tckLimit (s : State) : Nat :=
  if s.tckMode = 0 then s.tckPeriod
  else if s.tckMode = 1 then min 100000000 (s.tckPeriod + fld s.tckWord 26 0)
  else if s.tckPeriod = 0 then 100000000 else s.tckPeriod

/-- Every member is READY; for the fabric root, every other domain too (R330, R333); for a manager whose group has not had its first
edge, its own work is complete. -/
def State.allReady (s : State) : Bool :=
  s.fab.members.all (·.ready) && s.fab.domains.all (·.2) && (s.inGroup || !s.outstanding (decide (s.tckMode = 1)))

/-- A domain manager whose domain is READY reports to the root (R333). -/
def domainReady (s : State) : State := match s.root with
  | some r => if s.isManager && s.fabricMode && decide (r ≠ s.devId) && s.allReady then fabSend s false r 0 (.ready s.tickNum) else s
  | none => s

/-- READY_SEND: the interval's work is complete, and the member says so (R322, R331). -/
def execReadySend (s : State) : Out State :=
  .next (
    if !s.inGroup ∨ s.dupId ∨ !s.tick.running ∨ s.fab.readySent ∨ s.tckMode = 0 ∨ s.outstanding (decide (s.tckMode = 1)) then s
    else
      let s1 := updMember (s.setFab fun f => { f with readySent := true }) s.devId fun m => { m with ready := true }
      domainReady (toManager s1 (.ready s.tickNum)))

/-- READY: of a member of the current interval, or of another domain (R331, R333). -/
def onReady (s : State) (src interval : Nat) : State :=
  if !s.isManager ∨ interval ≠ s.tickNum then s
  else if src / 1024 = s.devId / 1024 then domainReady (updMember s src fun m => { m with ready := true })
  else if s.fabricMode ∧ s.devId / 1024 < src / 1024 then
    s.setFab fun f => { f with domains := f.domains.filter (fun d => decide (d.1 ≠ src)) ++ [(src, true)] }
  else s

/-- UNREADY: the manager waits again, unless it has sent the CLASP (R331). -/
def onUnready (s : State) (src interval : Nat) : State :=
  if !s.isManager ∨ interval ≠ s.tickNum ∨ s.fab.sched.isSome then s
  else
    let s1 := updMember s src fun m => { m with ready := false }
    s1.setFab fun f => { f with domains := f.domains.map fun d => if d.1 = src then (d.1, false) else d }

/-! ### Membership (R323 to R328) -/

/-- The standby takes over: its role at once, the next standby named, MEMBER sent with the takeover and the old manager's
departure for the next edge (R328). -/
def takeOver (s : State) (old : Nat) : State :=
  let rest := (eligibleOf s.fab.members).filter fun i => decide (i ≠ old ∧ i ≠ s.devId)
  let s1 := settleRole (setStandby (setManager s (some s.devId)) (lowest rest))
  let s2 := s1.setFab fun f => { f with changes := f.changes ++ [(s.tickNum + 1, old, false)] }
  let s3 := updMember s2 old fun m => { m with ready := true }
  sendEach s3 (s3.otherMembers.filter fun i => decide (i ≠ old))
    (.member [(old, false)] (s.tickNum + 1) (some s.devId) s3.standby (s3.fldR Reg.CLX_STAT 15 0 + 1))

/-- STANDBY_TAKEOVER: the standby has lost the manager: its direct link DOWN, or 30 µs without CLASP or HEARTBEAT (R328). -/
def execStandbyTakeover (s : State) : Out State :=
  .next (match s.manager with
    | some m => if s.isStandby ∧ !s.dupId ∧ s.fab.members.any (fun x => decide (x.id = m ∧ 30 ≤ x.silent)) then takeOver s m else s
    | none => s)

/-- MEMBER_LOSS_TIMEOUT (R324). -/
def execMemberLossTimeout (id : Nat) (s : State) : Out State :=
  .next (
    if s.isManager ∧ !s.dupId ∧ id ≠ s.devId ∧ s.fab.members.any (fun m => decide (m.id = id ∧ 30 ≤ m.silent)) then loseMember s id else s)

/-- MEMBER: a change and its edge, from the manager, from a standby that takes over, or in answer to this device's own ELECT
(R323, R325, R328). After a takeover a READY already sent is sent to the new manager (log entry 31). -/
def onMember (s : State) (src : Nat) (changes : List (Nat × Bool)) (edge : Nat) (takeover standby : Option Nat) : State :=
  let mine := decide (s.manager = none) && s.joined && !s.dupId
  if ¬(s.manager = some src ∨ takeover = some src ∧ s.standby = some src ∨ mine) then s
  else
    let s1 := s.setFab fun f => { f with changes := f.changes ++ changes.map fun c => (edge, c.1, c.2) }
    let s2 := if mine then setManager (s1.setFab fun f => { f with members := [] }) (some src) else s1
    if takeover.isSome then
      let s3 := settleRole (setStandby (setManager s2 takeover) standby)
      if s3.fab.readySent then toManager s3 (.ready s3.tickNum) else s3
    else s2

/-- This device leaves its group and keeps its own ticks from here (R323). -/
def leaveGroup (s : State) : State :=
  let s1 := s.setFab fun f => { f with
    members := [], changes := [], sched := none, late := none, best := none, readySent := false, domains := [], rootSched := none, drops := [] }
  let s2 := settleRole (setRoot (setStandby (setManager (s1.setF Reg.CLX_STAT 62 62 0) none) none) none)
  (s2.setF Reg.TCK_STATUS 13 13 0).setF Reg.PWR_FLOCK 54 54 0

/-- One change of the members (R325). -/
def applyChange (s : State) (c : Nat × Bool) : State :=
  let s1 := s.addF Reg.CLX_STAT 15 0 1
  if !c.2 then
    (if c.1 = s.devId then leaveGroup s1 else s1.setFab fun f => { f with members := f.members.filter fun m => decide (m.id ≠ c.1) })
  else
    let s2 := s1.setFab fun f => { f with
      members := f.members.filter (fun m => decide (m.id ≠ c.1)) ++ [⟨c.1, 0, s.knownEligible c.1, false⟩] }
    if c.1 = s.devId then (s2.setF Reg.CLX_STAT 62 62 1).setF Reg.TCK_STATUS 13 13 1 else s2

/-- The changes due at edge t, in the order of R325: the manager's departure, other departures, joins. -/
def State.dueChanges (s : State) (t : Nat) : List (Nat × Bool) :=
  let due := (s.fab.changes.filter fun c => decide (c.1 ≤ t)).map (·.2)
  let gone := due.filter fun c => !c.2
  (gone.filter fun c => decide (s.manager = some c.1)) ++ (gone.filter fun c => !decide (s.manager = some c.1)) ++
    due.filter fun c => c.2

/-- The manager and standby that follow from the membership: lowest and next-lowest eligible IDs (R326, R327). -/
def rerole (s : State) : State :=
  if !s.inGroup then s
  else
    let l := eligibleOf s.fab.members
    let m := lowest l
    let s1 := if m ≠ s.manager then (setManager s m).addF Reg.CLX_STAT 15 0 1 else s
    settleRole (setStandby s1 (second l))

/-- Membership at edge t, in its 500 ns slot (R42, R325): this device leaves when JOIN is cleared or its ID is not unique, and
otherwise the due changes apply, to a device outside the group at an edge that was clasped (R323); JOIN newly in effect starts a join. A lock follower that joins below F15 reports it
(R395). -/
def applyMembers (s : State) (t : Nat) (clasped : Bool) : State :=
  let was := s.inGroup
  let s1 := if was ∧ (!s.joined ∨ s.dupId) then leaveGroup s
    else if !was ∧ s.leads ∧ !s.joined then leaveGroup s
    else if !was ∧ !clasped then s
    else
      let due := s.dueChanges t
      if due = [] then s
      else rerole ((due.foldl applyChange s).setFab fun f => { f with changes := f.changes.filter fun c => decide (t < c.1) })
  let s2 := s1.setF Reg.PWR_FLOCK 54 54 (b2n s1.follower)
  if !was ∧ s2.inGroup ∧ s2.follower ∧ s2.heldTerm.1 < 15 then reportDrop s2 s2.heldTerm.1 s2.heldTerm.2
  else if s2.joined ∧ !s2.inGroup ∧ s2.manager.isNone ∧ !s2.dupId ∧ s2.fab.best.isNone then startJoin s2
  else s2

/-- A manager with FABRIC set that follows no other root is its own (R333). -/
def settleRoot (s : State) : State :=
  if s.isManager ∧ s.fabricMode then (if s.root.isNone then setRoot s (some s.devId) else s)
  else if s.root.isSome then setRoot s none else s

/-! ### The clasp (R329, R330, R333, R396) -/

/-- The step a CLASP carries: TARGET, or a lower one reported in the last 2 ms (R396). -/
def State.lockStep (s : State) : Nat := s.fab.drops.foldl (fun n d => min n d.1) (s.effF Reg.PWR_FLOCK 62 59)

/-- The edge time the manager picks at domain time `now` and whether it is forced, or none yet (R330). -/
def State.pickEdge (s : State) (now : Nat) : Option (Nat × Bool) :=
  let e := s.fab.edgeAt
  let l := s.lead
  let x := e + s.tckLimit
  if s.tckMode = 0 then (if x ≤ now + l then some (x, false) else none)
  else if s.tckMode = 1 then
    if s.allReady then (if e + s.tckPeriod ≤ now + l then some (min x (max (e + s.tckPeriod) (now + l)), false) else none)
    else if x ≤ now + l then some (x, true) else none
  else if s.allReady then some (min x (max (e + 2000) (now + l)), false)
  else if x ≤ now + l then some (x, true) else none

/-- The schedule the manager sends: its own choice, or under a fabric root the root's (R330, R333). -/
def State.nextSched (s : State) (now : Nat) : Option Sched :=
  let t := s.tickNum + 1
  let after := rerole ((s.dueChanges t).foldl applyChange s)
  let fill (c : Sched) : Sched := { c with
    epoch := after.fldR Reg.CLX_STAT 15 0
    standby := (after.standby.getD 0)
    standbyValid := after.standby.isSome }
  if s.fabricMode ∧ s.root ≠ none ∧ s.root ≠ some s.devId then s.fab.rootSched.map fill
  else (s.pickEdge now).map fun p =>
    fill ⟨t, p.1, s.lockStep, decide (s.effF Reg.PWR_FLOCK 63 63 = 1), s.tckWord, 0, 0, false, p.2⟩

/-- The CLASP of a schedule (Table 12.5). -/
def claspOf (c : Sched) : FabBody := .clasp c.tick c.step c.stepValid c.edgeTime c.tck c.epoch c.standby c.standbyValid

/-- CLASP_SEND: the manager schedules the next edge once, and sends it to every member, those that join at it among them, and
as the fabric root to the other domain managers (R327, R329, R330, R333, R396). -/
def execClaspSend (now : Nat) (s : State) : Out State :=
  .next (
    if !s.leads ∨ !s.joined ∨ s.dupId ∨ !s.tick.running ∨ s.fab.sched.isSome then s
    else match s.nextSched now with
      | none => s
      | some c =>
        let joins := ((s.dueChanges c.tick).filter (·.2)).map (·.1)
        let s1 := s.setFab fun f => { f with sched := some c, domainTime := max f.domainTime now, rootSched := none }
        let s2 := if c.stepValid then s1.setF Reg.PWR_FLOCK 58 55 c.step else s1
        let others := if s.root = some s.devId then s.fab.domains.map (·.1) else []
        sendEach s2 (dedup (s2.otherMembers ++ joins ++ others)) (claspOf c))

/-- A CLASP from the manager schedules an edge, or is late for it (R329, R332). Of one for an edge already applied under holdover only
tck, step and epoch count, and they come into force at the next edge (R42, R332; log entry 78). -/
def takeClasp (s : State) (c : Sched) : State :=
  if c.tick ≤ s.tickNum ∧ s.inGroup then
    s.setFab fun f => { f with late := some c }
  else
    let s1 := s.setFab fun f => { f with sched := some c }
    if c.edgeTime < s.fab.domainTime then s1.setF Reg.CLX_STAT 58 58 1 else s1

/-- CLASP: from the manager (R329), or to a domain manager from the fabric root, the manager of the lowest-numbered domain
with FABRIC set (R333; log entry 32). -/
def onClasp (s : State) (src : Nat) (c : Sched) : State :=
  let s1 := heard s src
  if s.isManager ∧ s.fabricMode ∧ src / 1024 < s.devId / 1024 ∧ src ≤ (s.root.getD s.devId) then
    (setRoot s1 (some src)).setFab fun f => { f with rootSched := some c }
  else if s.manager = some src ∧ src ≠ s.devId then takeClasp s1 c
  else s

/-! ### Frequency lock (R334, R395, R396) -/

/-- FLOCK_DROP: the manager keeps the report; under a fabric root it forwards it (R334, R396). -/
def onFlockDrop (s : State) (step term : Nat) : State :=
  if !s.isManager then s
  else match s.root with
    | some r => if r ≠ s.devId ∧ s.fabricMode then fabSend s false r 0 (.flockDrop step term)
      else s.setFab fun f => { f with drops := f.drops ++ [(step, 0)] }
    | none => s.setFab fun f => { f with drops := f.drops ++ [(step, 0)] }

/-- FLOCK_DROP_TIMER, every 1 ms: reports older than 2 ms are forgotten, and a follower held below F15 reports again (R395,
R396). -/
def execFlockDropTimer (s : State) : Out State :=
  let s1 := s.setFab fun f => { f with drops := (f.drops.map fun d => (d.1, d.2 + 1)).filter fun d => decide (d.2 < 2) }
  .next (if s1.follower ∧ s1.heldTerm.1 < 15 then reportDrop s1 s1.heldTerm.1 s1.heldTerm.2 else s1)

/-! ### Messages as they arrive -/

/-- A message above the link layer acts by its body, if it is for this device. Elections and the tick group stand still while DUP_ID is set (R322). Any
control message shows a manager that its sender lives (R324). -/
def deliver (s0 : State) (p : Nat) (m : FabMsg) : State :=
  let s := if s0.isManager ∧ bodyVc false m.body = 0 then heard s0 m.src else s0
  if !s0.forMe m then s0 else match m.body with
  | .hello id serial pport elig sw => onHello s p id serial pport elig sw
  | .elect low => onElect s m.src low
  | .heartbeat t c => onHeartbeat s p m.src t c
  | .time trip resid => onTime s p trip resid
  | .clasp t st sv et tck ep sb sbv => if s.dupId then s else onClasp s m.src ⟨t, et, st, sv, tck, ep, sb, sbv, false⟩
  | .ready k => if s.dupId then s else onReady s m.src k
  | .unready k => if s.dupId then s else onUnready s m.src k
  | .member cs edge tk sb _ => if s.dupId then s else onMember s m.src cs edge tk sb
  | .flockDrop st term => if s.dupId then s else onFlockDrop s st term
  | .coll .. => if s.takesVc12 p m then collArrive s m else s
  | .ringBlock .. => match execRingKvBlock p m s with
    | .next s1 => s1
    | _ => s

/-- The message types a row takes: a message of another type leaves the part as it is. -/
def onPort (s : State) (p : Nat) (m : FabMsg) (ty : Nat) : State :=
  if 12 ≤ p ∨ !s.portUp p ∨ bodyType m.body ≠ ty then s else deliver s p m

/-- HELLO (R321, R322). -/
def execHello (port : Nat) (m : FabMsg) (s : State) : Out State := .next (onPort s port m 0x01)

/-- ELECT (R323, R326). -/
def execElect (port : Nat) (m : FabMsg) (s : State) : Out State := .next (onPort s port m 0x02)

/-- HEARTBEAT (R324, R332). -/
def execHeartbeat (port : Nat) (m : FabMsg) (s : State) : Out State := .next (onPort s port m 0x03)

/-- TIME (R332). -/
def execTime (port : Nat) (m : FabMsg) (s : State) : Out State := .next (onPort s port m 0x04)

/-- CLASP (R329, R332, R333). -/
def execClasp (port : Nat) (m : FabMsg) (s : State) : Out State := .next (onPort s port m 0x10)

/-- READY (R331, R333). -/
def execReady (port : Nat) (m : FabMsg) (s : State) : Out State := .next (onPort s port m 0x11)

/-- UNREADY (R331). -/
def execUnready (port : Nat) (m : FabMsg) (s : State) : Out State := .next (onPort s port m 0x12)

/-- MEMBER (R323, R325, R328). -/
def execMember (port : Nat) (m : FabMsg) (s : State) : Out State := .next (onPort s port m 0x13)

/-- FLOCK_DROP (R334, R396). -/
def execFlockDrop (port : Nat) (m : FabMsg) (s : State) : Out State := .next (onPort s port m 0x14)

/-! ### The link layer and fault injection (R315, R335) -/

/-- The VC of a received message; a reduction of a direct group came on VC2 (R346). -/
def rxVc (s : State) (m : FabMsg) : Nat := match m.body with
  | .coll _ key .. => bodyVc ((List.range 256).any fun g => (s.group g).valid && decide ((s.group g).key = key ∧ (s.group g).algo = 1)) m.body
  | b => bodyVc false b

/-- A packet of a port is replayed. -/
def countReplay (s : State) (p : Nat) : State := tally (s.satF (Reg.PLK_ERR p) 23 8 1) telReplays 1

/-- A received message passes the injection rules of its direction, and is delivered unless one holds or drops it (Tables 12.7,
12.8). A corrupted one has been replayed. -/
def receive (s : State) (p : Nat) (m : FabMsg) : State :=
  match fiStep s p 1 (rxVc s m) (bodyType m.body) with
  | (none, s1) =>
    let waiting := s1.fab.held.filter fun h => decide (h.2.1 = p ∧ s1.fldR (Reg.FI_RULE h.1) 62 61 = 2 ∧
      s1.fldR (Reg.FI_RULE h.1) 45 45 = 1 ∧ rxVc s1 h.2.2 = rxVc s1 m)
    let s2 := (deliver s1 p m).setFab fun f => { f with held := f.held.filter fun h => !(waiting.contains h) }
    waiting.foldl (fun s h => deliver s p h.2.2) s2
  | (some i, s1) =>
    let act := s1.fldR (Reg.FI_RULE i) 62 61
    if act = 0 then s1
    else if act = 1 then deliver (countReplay s1 p) p m
    else s1.setFab fun f => { f with held := f.held ++ [(i, p, m)] }

/-- The packets of a replay buffer an acknowledgement covers are dropped (R315). -/
def acked (ack : Nat) (l : List (Nat × FabMsg)) : List (Nat × FabMsg) :=
  l.filter fun x => decide (2 ^ 15 ≤ (ack + 2 ^ 16 - x.1) % 2 ^ 16)

/-- A packet in order: acknowledged, and its message, once whole, delivered. -/
def packetGood (s : State) (p seq ack : Nat) (msg : Option FabMsg) : State :=
  let s1 := s.setPort p fun q => { q with rxSeq := wrapAdd 16 seq 1, replays := 0, replay := acked ack q.replay }
  settleSends (match msg with
    | some m => receive s1 p m
    | none => s1)

/-- A packet that fails its CRC or FEC or breaks sequence is replayed; after eight replays in a row the port retrains. -/
def packetBadLink (s : State) (p : Nat) : State :=
  let s1 := (countReplay s p).setPort p fun q => { q with replays := q.replays + 1 }
  if 8 ≤ (s1.port p).replays then startRetrain s1 p else s1

/-- LINK_PACKET_RECEIVE (R314, R315, R335, R354). -/
def execLinkPacketReceive (port seq ack corrected : Nat) (crcOk fecOk : Bool) (msg : Option FabMsg) (s : State) : Out State :=
  .next (
    if 12 ≤ port ∨ !s.portUp port then s
    else
      let s1 := s.addF (Reg.PLK_ERR port) 63 32 corrected
      let s2 := if fecOk then s1 else s1.satF (Reg.PLK_ERR port) 31 24 1
      if crcOk ∧ fecOk ∧ seq = (s.port port).rxSeq then packetGood s2 port seq ack msg else packetBadLink s2 port)

/-- A held message goes on: out, or up on an UP port. -/
def releaseHeld (s : State) (h : Nat × Nat × FabMsg) : State :=
  if !s.portUp h.2.1 then markLost s [h.2.2]
  else if s.fldR (Reg.FI_RULE h.1) 45 45 = 1 then deliver s h.2.1 h.2.2
  else transmit s h.2.1 h.2.2

/-- FI_HOLD_RELEASE: the oldest message a rule holds goes on when its time is over (R335). -/
def execFiHoldRelease (rule : Nat) (s : State) : Out State :=
  .next (match s.fab.held.find? fun h => decide (h.1 = rule) with
    | none => s
    | some h => settleSends (releaseHeld (s.setFab fun f => { f with held := f.held.erase h }) h))

end Sys2Proof.Machine
end

