-- ==== Sys2Proof/Machine/Hollon.lean ====
section
/-!
DEFINITION. The HOL block (02_hollon_image.md): staging, verification, commit, store. Applying a committed image at its
edge is in Apply.lean.
-/
namespace Sys2Proof.Machine

/-- HOL_STATUS.STAGE codes (Table 2.13). -/
abbrev stgEmpty : Nat := 0
@[inherit_doc stgEmpty] abbrev stgLoaded : Nat := 1
@[inherit_doc stgEmpty] abbrev stgVerifying : Nat := 2
@[inherit_doc stgEmpty] abbrev stgFull : Nat := 3
@[inherit_doc stgEmpty] abbrev stgFragment : Nat := 4
@[inherit_doc stgEmpty] abbrev stgRejected : Nat := 5

/-- HOL_STATUS.STAGE. -/
def State.holStage (s : State) : Nat := s.fldR Reg.HOL_STATUS 26 24

/-- Set STAGE. -/
def setStage (s : State) (v : Nat) : State := s.setF Reg.HOL_STATUS 26 24 v

/-- Set REJECT_CODE, the code of the latest VERIFY, COMMIT or STORE. -/
def setReject (s : State) (v : Nat) : State := s.setF Reg.HOL_STATUS 23 16 v

/-- The HOL block and window can be written: by the physical function, in READY, RUN or SAFE (R68, R408). -/
def State.holWritable (s : State) (fn : Nat) : Bool := decide (fn = 0) && s.live

/-- The staged bytes: HOL_STAGE_LEN of them. -/
def State.staged (s : State) : List Byte :=
  (List.range (min (s.fldR Reg.HOL_STAGE_LEN 20 0) 0x100000)).map fun i => spGet 0 s.hol.window i

/-- The bytes that were verified: the image the window holds, as long as its own header says, which the check compared with
HOL_STAGE_LEN. -/
def State.verifiedBytes (s : State) : List Byte :=
  let byte (i : Nat) : Byte := spGet 0 s.hol.window i
  (List.range (min ((imgHeader ((List.range 64).map byte)).length + 7856) 0x100000)).map byte

/-- The key that verifies Hollon images: the owner key in force, else HOL_KEY (R406). -/
def State.holKeyInForce (s : State) : List Byte := s.sec.ownerInForce.getD s.sec.holKey

/-- HOL_ACTIVE_DIGEST as bytes. -/
def State.activeDigest (s : State) : List Byte := (List.range 4).flatMap fun i => leBytes 8 (s.reg (Reg.HOL_ACTIVE_DIGEST i)).toNat

/-- Set HOL_ACTIVE_DIGEST, which M3 mirrors (Table 2.15, R410). -/
def setDigest (s : State) (d : List Byte) : State :=
  (List.range 4).foldl (fun s i => (s.setReg (Reg.HOL_ACTIVE_DIGEST i) (wordAt d i)).setReg (Reg.SEC_MEAS 3 i) (wordAt d i)) s

/-- The result of verifying bytes: a code of Table 2.10 (R66, R67). -/
def State.verify (s : State) (bs : List Byte) (len : Nat) (base : Bool) : Nat :=
  verifyImage bs len (s.reg Reg.GLB_SERIAL) (s.fldR Reg.HOL_VERSION_FLOOR 31 0) s.activeDigest s.hol.cur
    (Config.slhVerify s.holKeyInForce (bs.take (imgHeader bs).length) (imgSignature bs)) base

/-- The stored image of a Hollon flash slot verifies as a full image. -/
def State.slotVerifies (s : State) (i : Nat) : Bool :=
  let bs := s.sec.holSlots.getD i []
  decide (s.verify bs bs.length false = 0) && decide ((imgHeader bs).kind = 1)

/-- The slot a STORE writes (R74): not the one that booted; without one, the slot that does not verify, A when neither
does, the lower version when both do. -/
def State.storeSlot (s : State) : Nat := match s.sec.bootedHol with
  | some b => 1 - b
  | none =>
    let a := s.slotVerifies 0
    let b := s.slotVerifies 1
    if !a then 0
    else if !b then 1
    else if (imgHeader (s.sec.holSlots.getD 1 [])).version < (imgHeader (s.sec.holSlots.getD 0 [])).version then 1 else 0

/-- HOL_STAGE_WRITE: aligned 4- or 8-byte writes inside the 1 MiB window return STAGE to LOADED; ignored while VERIFYING
and from a virtual function (R68, R436). -/
def execHolStageWrite (fn off : Nat) (bytes : List Byte) (s : State) : Out State :=
  .next (
    if !s.live then s
    else if ¬((bytes.length = 4 ∨ bytes.length = 8) ∧ off % bytes.length = 0 ∧ off + bytes.length ≤ 0x100000) then
      logAer s (.unsupportedRequest fn (0x1900000 + off))
    else if fn ≠ 0 ∨ s.holStage = stgVerifying then s
    else setStage (s.putHol { s.hol with window := storeBytes s.hol.window off bytes }) stgLoaded)

/-- HOL_VERIFY: the check starts, unless one runs (R68). -/
def execHolVerify (fn : Nat) (s : State) : Out State :=
  .next (if !s.holWritable fn ∨ s.holStage = stgVerifying then s else setStage s stgVerifying)

/-- HOL_VERIFY_DONE: VERIFIED_FULL, VERIFIED_FRAGMENT or REJECTED, with its code (R66, R67). HOL_STAGE_LEN counts as it stands when the
check ends (log entry 82). -/
def execHolVerifyDone (s : State) : Out State :=
  .next (
    if s.holStage ≠ stgVerifying then s
    else
      let bs := s.staged
      let code := s.verify bs (s.fldR Reg.HOL_STAGE_LEN 20 0) true
      setReject (setStage s (if code ≠ 0 then stgRejected else if (imgHeader bs).kind = 1 then stgFull else stgFragment)) code)

/-- Empty the staging window (R68, R69). -/
def emptyWindow (s : State) : State := setStage (s.putHol { s.hol with window := [] }) stgEmpty

/-- The code a COMMIT is refused with, or 0: STATE before BUSY where both apply (R68, R69; log entry 82). -/
def State.commitCode (s : State) : Nat :=
  if s.holStage ≠ stgFull ∧ s.holStage ≠ stgFragment then 0x0E
  else if s.holStage = stgFull ∧ ¬(s.devState = stReady ∨ (s.devState = stSafe ∧ s.openCtxs = [])) then 0x0C
  else if s.hol.pendFrag.isSome ∨ (s.holStage = stgFragment ∧ s.hol.pendFull.isSome) then 0x0D
  else 0

/-- HOL_COMMIT: the verified image moves out of the window and waits for its edge, or is refused (R69). DRAIN_TICKS is taken now (R72;
log entry 82). -/
def execHolCommit (fn : Nat) (s : State) : Out State :=
  .next (
    if !s.holWritable fn then s
    else
      let code := s.commitCode
      if code ≠ 0 then setReject s code
      else
        let img := readImage s.verifiedBytes
        let s1 := (setReject (emptyWindow s) 0).setF Reg.HOL_STATUS 11 11 1
        if s.holStage = stgFull then s1.putHol { s1.hol with pendFull := some img }
        else
          let s2 := s1.setF Reg.HOL_STATUS 15 12 img.header.target
          (s2.putHol { s2.hol with
                pendFrag := some img
                drainLeft := s2.fldR Reg.HOL_RELOAD_CFG 15 0
                draining := false
                expired := false }))

/-- HOL_DISCARD: the window empties, unless a check runs (R68). -/
def execHolDiscard (fn : Nat) (s : State) : Out State :=
  .next (if !s.holWritable fn ∨ s.holStage = stgVerifying then s else emptyWindow s)

/-- HOL_STORE: a verified full image starts into flash; otherwise NOT_VERIFIED, or BUSY while a STORE or a PLDM Hollon
component is being written (R68, R74, R423); NOT_VERIFIED where both apply (log entry 82). -/
def execHolStore (fn : Nat) (s : State) : Out State :=
  .next (
    if !s.holWritable fn then s
    else if s.holStage ≠ stgFull then setReject s 0x0E
    else if s.fldR Reg.HOL_STATUS 8 8 = 1 ∨ s.mgt.component = some 2 then setReject s 0x0D
    else
      let bs := s.verifiedBytes
      let s1 := (setReject s 0).setF Reg.HOL_STATUS 8 8 1
      (s1.putHol { s1.hol with storing := some (s.storeSlot, bs, (imgHeader bs).raiseFloor) }))

/-- A Hollon flash slot is written: its bytes, the boot record's latest slot, and the version floor if raised (R74). -/
def writeHolSlot (s : State) (slot : Nat) (bs : List Byte) (raise : Bool) : State :=
  let floor := max (s.fldR Reg.HOL_VERSION_FLOOR 31 0) (imgHeader bs).version
  let s1 := s.putSec { s.sec with
        holSlots := updAt s.sec.holSlots slot fun _ => bs
        boot := { s.sec.boot with holSlot := some slot, floor := if raise then max s.sec.boot.floor floor else s.sec.boot.floor } }
  if raise then s1.setF Reg.HOL_VERSION_FLOOR 31 0 floor else s1

/-- HOL_STORE_DONE: the slot is recorded, or STORE_FAIL is set and the previous contents stand (R74). -/
def execHolStoreDone (ok : Bool) (s : State) : Out State :=
  .next (match s.hol.storing with
    | none => s
    | some (slot, bs, raise) =>
      let s1 := (s.putHol { s.hol with storing := none }).setF Reg.HOL_STATUS 8 8 0
      if ok then writeHolSlot s1 slot bs raise else s1.setF Reg.HOL_STATUS 7 7 1)

/-- HOL_APPLY_COMPLETE: APPLYING clears once every powered domain is ready (R70). -/
def execHolApplyComplete (s : State) : Out State :=
  .next (
    if s.fldR Reg.HOL_STATUS 10 10 = 1 ∧ s.pwr.on &&& s.pwr.ready = s.pwr.on then s.setF Reg.HOL_STATUS 10 10 0 else s)

/-- A context of partition p is open (R361). -/
def State.partOpen (s : State) (p : Nat) : Bool := s.openCtxs.any fun n => decide (s.ctxPart n = p)

/-- FRAGMENT_ABANDON: after DRAIN_TICKS edges with a context still open the commit is abandoned (R72). -/
def execFragmentAbandon (s : State) : Out State :=
  .next (
    if s.hol.pendFrag.isSome ∧ s.hol.expired then
      let s1 := (s.setF Reg.HOL_STATUS 9 9 1).setF Reg.HOL_STATUS 11 11 0
      s1.putHol { s1.hol with pendFrag := none, draining := false, expired := false, drainLeft := 0 }
    else s)

end Sys2Proof.Machine
end

