-- ==== Sys2Proof/Machine/Boot.lean ====
section
/-!
DEFINITION. Boot, firmware acceptance, resets of functions, and the PCIe link (00_scope.md, 14_contexts_and_scheduling.md
R357, 16_boot_and_security.md). The end of TRAIN is in Edge.lean.
-/
namespace Sys2Proof.Machine

/-! ### Function resets and surprise-down (R5, R357) -/

/-- SURPRISE_DOWN: every open context is torn down unsaved, then STANDBY (R5, Table 0.6). -/
def execSurpriseDown (s : State) : Out State :=
  .next (if s.working ∧ s.dev.linkUp then powerDown (teardownAll s s.openCtxs 5) stStandby false else s)

/-- A function's configuration and MSI-X table at reset. -/
def resetFn (s : State) (fn : Nat) : State :=
  s |>.putFns (updAt s.fns fn fun _ => FnCfg.reset fn) |>.putMsix (s.msix.filter fun e => decide (e.1 / 2048 ≠ fn))

/-- Contexts of a function's partition. -/
def State.fnCtxs (s : State) (fn : Nat) : List Nat := s.openCtxs.filter fun n => decide (s.ctxFn n = fn)

/-- FUNCTION_LEVEL_RESET: a virtual function's contexts are torn down; the physical function's reset tears down every
context and resets every CTX register, and RUN becomes READY (R357). -/
def execFunctionLevelReset (fn : Nat) (s : State) : Out State :=
  .next (
    if 17 ≤ fn then s
    else if fn ≠ 0 then resetFn (teardownAll s (s.fnCtxs fn) 4) fn
    else
      let s1 := resetFn (teardownAll s s.openCtxs 4) 0
      let inCtx (r : Nat × Word) : Bool := decide (0x400000 ≤ r.1 ∧ r.1 < 0x800000)
      let s2 := s1
          |>.putRegs (s1.regs.filter (fun r => !inCtx r))
          |>.putEff (s1.eff.filter (fun r => !inCtx r))
          |>.putCtxs []
      if s2.devState = stRun then enterState s2 stReady else s2)

/-- VF_ENABLE_CLEAR: every context of every virtual function's partition is torn down (R357). -/
def execVfEnableClear (s : State) : Out State :=
  .next (
    let s1 := teardownAll s (s.openCtxs.filter fun n => decide (s.ctxFn n ≠ 0)) 4
    (s1.putFns (updAt s1.fns 0 fun f => { f with vfEnable := false })))

/-- PCIE_LINK_UP: with PD02 powered the link trains at 32, 16 or 8 GT/s and ×16, ×8 or ×4 (R433). -/
def execPcieLinkUp (speed width : Nat) (s : State) : Out State :=
  .next (
    if (s.working ∨ s.devState = stFault) ∧ (speed = 32 ∨ speed = 16 ∨ speed = 8) ∧ (width = 16 ∨ width = 8 ∨ width = 4) then
      s.putDev { s.dev with linkUp := true, linkSpeed := speed, linkWidth := width }
    else s)

/-! ### Entering BOOT (R381, R399, R403, R410) -/

/-- Measurement register i as bytes. -/
def State.meas (s : State) (i : Nat) : List Byte := (List.range 4).flatMap fun w => leBytes 8 (s.reg (Reg.SEC_MEAS i w)).toNat

/-- Set a 32-byte register array of four words. -/
def setBytes4 (s : State) (off : Nat → Nat) (bs : List Byte) : State :=
  (List.range 4).foldl (fun s w => s.setReg (off w) (wordAt bs w)) s

/-- Extend a measurement register with a digest (R410). -/
def extend (s : State) (i : Nat) (d : List Byte) : State := setBytes4 s (Reg.SEC_MEAS i) (sha256 (s.meas i ++ d))

/-- The boot record after the boot ROM has read it: a used trial falls back, a first trial is marked used (R403); whether
it fell back. -/
def trialStep (b : BootRecord) : BootRecord × Bool :=
  if b.trial ∧ b.trialUsed then ({ b with trial := false, trialUsed := false, preferred := 1 - b.preferred }, true)
  else if b.trial then ({ b with trialUsed := true }, false)
  else (b, false)

/-- Enter BOOT: PD00 to PD03 power, the fuses and the boot record are read, the owner key and version floor in force are
settled, M0 and M4 are extended, the newest log snapshot becomes readable, and a requested SAFE boot is noted (R399,
R403, R405, R406, R409, R410, R425). -/
def enterBoot (s : State) : State :=
  let t := trialStep { s.sec.boot with floor := s.sec.floorNext.getD s.sec.boot.floor }
  let s1 := enterState s stBoot
  let s2 := s1
      |>.putSec { s1.sec with
        bootRevoke := s1.sec.revoke
        bootRollback := s1.sec.rollback
        boot := t.1
        floorNext := none
        ownerInForce := s1.sec.ownerStored
        udsLocked := false
        bootedHol := none }
      |>.putDev { s1.dev with
        bmcOff := false
        onWaiting := false
        fwRunning := false
        safeBoot := decide (s1.fldR Reg.MGT_STAT 62 62 = 1) }
      |>.putPwr { s1.pwr with on := 0xF, ready := 0xF }
  let s3 := s2.setReg Reg.SEC_STAT (BitVec.ofNat 64 (0xFF * 2 ^ 56 + b2n t.2 * 2 ^ 53 + b2n s2.sec.ownerInForce.isSome * 2 ^ 51 +
    b2n s2.sec.certArea.isNone * 2 ^ 50 + 2 ^ 49 + s2.sec.bootRevoke % 4 * 2 ^ 47 + s2.sec.bootRollback % 128 * 2 ^ 32 +
    t.1.fails % 256 * 2 ^ 24))
  let s4 := ((s3.setF Reg.HOL_VERSION_FLOOR 31 0 t.1.floor).setF Reg.CLX_ID 15 0 s3.dev.slotId).setF Reg.MGT_STAT 62 62 0
  let s5 := setBytes4 s4 Reg.SEC_OWNER_PK (s4.sec.ownerInForce.getD (zeros 32))
  let s6 := extend (extend s5 0 Config.romDigest) 0
    (sha256 (Config.fuseReading (s5.sec.fwKeys.flatMap sha256 ++ sha256 s5.sec.holKey) s5.sec.bootRevoke s5.sec.bootRollback))
  let s7 := extend s6 4 (match s6.sec.ownerInForce with
    | some k => sha256 k
    | none => zeros 32)
  settlePower (s7.setF Reg.MGT_LOG_STAT 62 62 (b2n (decide (s7.mgt.snapshots ≠ []))))

/-- AUTO_BOOT_START: STANDBY leads to BOOT at 40 V or more when auto-boot is on and STANDBY was not entered by a BMC
power-off, or when a BMC power-on waits for the input (R381). -/
def execAutoBootStart (s : State) : Out State :=
  .next (
    if s.devState = stStandby ∧ 4000 ≤ s.pwr.volts ∧
        (s.dev.onWaiting ∨ (s.fldR Reg.MGT_STAT 63 63 = 1 ∧ !s.dev.bmcOff)) then enterBoot s
    else s)

/-! ### Firmware (R401, R402, R403, R411, R412) -/

/-- Firmware header fields (Table 16.3). -/
structure FwHeader where
  magic : Nat
  format : Nat
  part : Nat
  length : Nat
  svn : Nat
  key : Nat
  steppings : Nat
  version : Nat
  deriving DecidableEq, Repr

/-- The header of a firmware image. -/
def fwHeader (bs : List Byte) : FwHeader :=
  let w0 := wnat bs 0
  let w1 := wnat bs 1
  let w2 := wnat bs 2
  ⟨bits w0 63 32, bits w0 31 16, bits w0 15 0, bits w1 63 32, bits w1 31 24, bits w1 23 23, bits w2 63 48, bits w2 31 0⟩

/-- The result of examining a slot's bytes (Table 16.4), in order. -/
def State.fwResult (s : State) (bs : List Byte) : Nat :=
  let h := fwHeader bs
  if h.magic ≠ 0x4E46574D ∨ h.format ≠ 1 ∨ h.length % 64 ≠ 0 ∨ 2 ^ 24 < h.length + 7856 ∨ bs.length < h.length + 7856 then 1
  else if h.part ≠ 0x0101 ∨ !h.steppings.testBit 1 then 2
  else if s.sec.bootRevoke.testBit h.key then 3
  else if !Config.slhVerify (s.sec.fwKeys.getD h.key []) (bs.take h.length) ((bs.drop h.length).take 7856) then 4
  else if h.svn < s.sec.bootRollback then 5
  else 0

/-- Record a slot's result in SEC_STAT and SEC_SLOT (Tables 16.12, 16.13). -/
def recordSlot (s : State) (slot res : Nat) : State :=
  let h := fwHeader (s.sec.fwSlots.getD slot [])
  let s1 := if slot = 0 then s.setF Reg.SEC_STAT 63 60 res else s.setF Reg.SEC_STAT 59 56 res
  s1.setReg (Reg.SEC_SLOT slot) (BitVec.ofNat 64
    (b2n (decide (res = 0)) * 2 ^ 63 + h.key % 2 * 2 ^ 62 + h.svn % 128 * 2 ^ 48 + h.version % 2 ^ 32))

/-- Derive the identity and alias keys, issue the alias certificate and lock UDS (R411, R412). -/
def deriveIdentity (s : State) (svn : Nat) : State :=
  let serial := leBytes 8 (s.reg Reg.GLB_SERIAL).toNat
  let info (t : String) : List Byte := t.toList.map (fun c => BitVec.ofNat 8 c.toNat) ++ serial
  let idSeeds := hkdf48 s.sec.uds (zeros 32) (info "NGZ1-IDK")
  let m := s.meas 0 ++ s.meas 1 ++ s.meas 2
  let alSeeds := hkdf48 s.sec.uds m (info "NGZ1-ALIAS")
  let s1 := setBytes4 (setBytes4 s Reg.SEC_ID_PK (Config.slhPublic idSeeds)) Reg.SEC_ALIAS_PK (Config.slhPublic alSeeds)
  s1.putSec { s1.sec with
        aliasSeeds := alSeeds
        udsLocked := true
        aliasCert := Config.aliasCert idSeeds (Config.slhPublic alSeeds) m svn }

/-- Run an accepted slot: M1 and M2 extended, identity derived, BOOT to TRAIN with every domain powered (R402, R410,
Table 0.5). -/
def runSlot (s : State) (slot : Nat) : State :=
  let bs := s.sec.fwSlots.getD slot []
  let h := fwHeader bs
  let s1 := (((s.setF Reg.SEC_STAT 55 55 slot).setF Reg.SEC_STAT 54 54 (b2n (s.sec.boot.trial && decide (slot = s.sec.boot.preferred)))).setF Reg.SEC_STAT 46 46 h.key).setF
    Reg.SEC_STAT 45 39 h.svn
  let s2 := extend (extend s1 1 (sha256 (bs.take h.length))) 2 (sha256 (Config.slotIdentity slot h.svn h.key h.version))
  let s3 := deriveIdentity s2 h.svn
  let s4 := s3
      |>.putSec { s3.sec with runSlot := slot }
      |>.putDev { s3.dev with fwRunning := true }
      |>.putPwr { s3.pwr with on := 2 ^ 30 - 1, ready := 2 ^ 30 - 1 }
  settlePower (enterState s4 stTrain)

/-- FIRMWARE_ACCEPTED: the preferred slot, then the other; FAULT when neither passes (R402, R403, Table 0.6). -/
def execFirmwareAccepted (s : State) : Out State :=
  .next (
    if s.devState ≠ stBoot then s
    else
      let a := s.sec.boot.preferred
      let ra := s.fwResult (s.sec.fwSlots.getD a [])
      let s1 := recordSlot s a ra
      if ra = 0 then runSlot s1 a
      else
        let b := 1 - a
        let rb := s1.fwResult (s1.sec.fwSlots.getD b [])
        let s2 := recordSlot s1 b rb
        if rb = 0 then runSlot (s2.setF Reg.SEC_STAT 53 53 1) b
        else enterFault s2 srcBoot causeNoFirmware)

/-- BOOT_TIMEOUT: 15 s after entering BOOT without READY or SAFE; at 3 failures auto-boot turns off (R404). -/
def execBootTimeout (s : State) : Out State :=
  .next (
    if s.devState ≠ stBoot ∧ s.devState ≠ stTrain then s
    else
      let n := s.sec.boot.fails + 1
      let s1 := s.putSec { s.sec with boot := { s.sec.boot with fails := n } }
      let s2 := enterFault (s1.setF Reg.SEC_STAT 31 24 n) srcBoot causeBootTimeout
      if 3 ≤ n then s2.setF Reg.MGT_STAT 63 63 0 else s2)

end Sys2Proof.Machine
end

