-- ==== Sys2Proof/Machine/Mgmt.lean ====
section
/-!
DEFINITION. The management path (17_management_and_background.md): effecters, sensors, events, firmware update, error log,
MCTP control.
-/
namespace Sys2Proof.Machine

/-- PLDM completion codes (DSP0240, DSP0248, DSP0267; log entry 7). -/
abbrev ccSuccess : Nat := 0x00
@[inherit_doc ccSuccess] abbrev ccInvalidData : Nat := 0x02
@[inherit_doc ccSuccess] abbrev ccInvalidSensor : Nat := 0x80
@[inherit_doc ccSuccess] abbrev ccNotInUpdateMode : Nat := 0x80
@[inherit_doc ccSuccess] abbrev ccAlreadyInUpdateMode : Nat := 0x81
@[inherit_doc ccSuccess] abbrev ccRetryRequestUpdate : Nat := 0x8A
@[inherit_doc ccSuccess] abbrev ccVerifyError : Nat := 0x09

/-- A PLDM response. -/
def pldm (s : State) (cc : Nat) (body : List Nat) : State := respond s (.pldm cc body)

/-- The management path answers in every powered state (17, opening). -/
def State.powered (s : State) : Bool := decide (s.devState ≠ stOff)

/-- An effecter write: in range it acts and reports success, out of range it receives ERROR_INVALID_DATA (R420). -/
def effecter (s : State) (ok : Bool) (f : State → State) : State :=
  if !s.powered then s else if ok then pldm (f s) ccSuccess [] else pldm s ccInvalidData []

/-! ### Effecters (Table 17.1) -/

/-- DEVICE_POWER_ON: STANDBY to BOOT, at once at 40 V or more, else when the input reaches it (R381). -/
def execDevicePowerOn (s : State) : Out State :=
  .next (effecter s true fun s =>
    if s.devState ≠ stStandby then s
    else if 4000 ≤ s.pwr.volts then enterBoot s
    else (s.putDev { s.dev with onWaiting := true }))

/-- DEVICE_POWER_OFF: to STANDBY from every state but OFF and STANDBY; starts no boot (Table 0.6, R381). -/
def execDevicePowerOff (s : State) : Out State :=
  .next (effecter s true fun s => if s.devState = stStandby then s else powerDown (teardownAll s s.openCtxs 0) stStandby true)

/-- FAULT_RESET: FAULT to STANDBY (Table 0.6). -/
def execFaultReset (s : State) : Out State :=
  .next (effecter s true fun s => if s.devState = stFault then powerDown s stStandby false else s)

/-- AUTO_BOOT: 1 on, 2 off, held in PD00. -/
def execAutoBoot (value : Nat) (s : State) : Out State :=
  .next (effecter s (decide (value = 1 ∨ value = 2)) fun s => s.setF Reg.MGT_STAT 63 63 (2 - value))

/-- SAFE_BOOT: 1 next boot in SAFE, 2 normal (R409). -/
def execSafeBoot (value : Nat) (s : State) : Out State :=
  .next (effecter s (decide (value = 1 ∨ value = 2)) fun s => s.setF Reg.MGT_STAT 62 62 (2 - value))

/-- A state request would be accepted now (R4). -/
def State.reqOk (s : State) (target : Nat) : Bool :=
  if target = stReady then decide (s.devState = stSafe ∧ s.openCtxs = []) && (s.hol.verified || s.hol.pendFull.isSome)
  else if target = stSafe then decide (s.devState = stReady) else false

/-- A state request: accepted and held for the next edge, or refused with REQ_REJECT (R3, R4). -/
def stateRequest (s : State) (target : Nat) : State :=
  if s.reqOk target then s.putDev { s.dev with stateReq := some target }
  else s.setF Reg.GLB_STATE 8 8 1

/-- BMC_STATE_REQUEST: 1 READY, 2 SAFE, under R4; the response reports success in any case (Table 17.1). -/
def execBmcStateRequest (value : Nat) (s : State) : Out State :=
  .next (effecter s (decide (value = 1 ∨ value = 2)) fun s => stateRequest s (if value = 1 then stReady else stSafe))

/-- STATE_REQ_READY: GLB_STATE_REQ written with READY by the physical function (R4). -/
def execStateReqReady (fn : Nat) (s : State) : Out State :=
  .next (if fn ≠ 0 ∨ s.devState < 2 then s else stateRequest s stReady)
/-- STATE_REQ_SAFE: GLB_STATE_REQ written with SAFE by the physical function (R4). -/
def execStateReqSafe (fn : Nat) (s : State) : Out State :=
  .next (if fn ≠ 0 ∨ s.devState < 2 then s else stateRequest s stSafe)

/-- POWER_MODE: the BMC's mode, applied at the next edge (R388). -/
def execPowerMode (value : Nat) (s : State) : Out State :=
  .next (effecter s (decide (value ≤ 2)) fun s =>
    let s1 := s.setF Reg.PWR_STAT 49 48 value
    s1.setF Reg.PWR_STAT 55 55 (b2n (decide (min 2 (s1.fldR Reg.PWR_CFG 63 62) ≠ value))))

/-- STEP_CEILING: the BMC's ceiling, applied at the next edge (R386). -/
def execStepCeiling (value : Nat) (s : State) : Out State :=
  .next (effecter s (decide (value ≤ 15)) fun s => s.setF Reg.PWR_STAT 53 50 value)

/-- LOG_SNAPSHOT: 1 writes the SRAM error log to flash now (behind a STORE or a PLDM write, R429); 2 is idle. -/
def execLogSnapshot (value : Nat) (s : State) : Out State :=
  .next (effecter s (decide (value = 1 ∨ value = 2)) fun s =>
    if value = 1 then s.putMgt { s.mgt with writing := true } else s)

/-- LOG_WRITE_COMPLETE: the log write ends and the effecter returns to 2; it waits while a STORE or a PLDM write runs
(R425, R429). -/
def execLogWriteComplete (s : State) : Out State :=
  .next (
    if s.mgt.writing ∧ s.fldR Reg.HOL_STATUS 8 8 = 0 ∧ s.mgt.component = none then
      let s1 := snapshotLog s
      s1.putMgt { s1.mgt with writing := false }
    else s)

/-- LOG_FLUSH_TIMER: at most once per 10 min, an unwritten entry of severity 2 or more starts a log write (R425). -/
def execLogFlushTimer (s : State) : Out State :=
  .next (
    if s.powered ∧ s.mgt.unwritten ∧ !s.mgt.writing then s.putMgt { s.mgt with writing := true } else s)

/-- The disagreement bits of the thirty domains (R375, R384). -/
def State.disagree (s : State) : Nat :=
  let data := (s.reg Reg.PWR_DOMAIN).toNat
  let mgmt := (s.reg Reg.MGT_DOMAIN).toNat
  let bothOn (d : Nat) : Bool := data.testBit d && mgmt.testBit d
  listMask ((List.range 30).filter fun d => decide (4 ≤ d) &&
    (decide (data.testBit d ≠ mgmt.testBit d) ||
      (decide (8 ≤ d ∧ d < 24) &&
        bothOn d != ((List.range 16).filter fun q => decide (s.hol.cur.groups.getD (8 + q) 0 % 16 =
          s.hol.cur.groups.getD d 0 % 16)).all fun q => bothOn (8 + q))))

/-- Refresh CTX_DISAGREE; a new bit is a platform event (R375, R421). -/
def settleDisagree (s : State) : State :=
  let old := s.fldR Reg.CTX_DISAGREE 29 0
  let now := s.disagree
  let s1 := s.setF Reg.CTX_DISAGREE 29 0 now
  (maskList 30 (now &&& ((2 ^ 30 - 1) ^^^ old))).foldl (fun s d => platformEvent s 5 d) s1

/-- DOMAIN_REQUEST: 1 on, 2 off, applied at the next edge; PD00 to PD03 are accepted and ignored (R374, R375, R383). -/
def execDomainRequest (domain value : Nat) (s : State) : Out State :=
  .next (effecter s (decide (domain < 30 ∧ (value = 1 ∨ value = 2))) fun s =>
    if domain < 4 then s else settleDisagree (s.setF Reg.MGT_DOMAIN domain domain (2 - value)))

/-- A write of CLX_ID: taken while JOIN is 0 in effect, else ignored with ID_REJECT (R319); a new ID that no known device
holds clears DUP_ID (R322). -/
def writeClxId (s : State) (v : Nat) : State :=
  if s.effF Reg.CLX_CFG 63 63 = 1 then s.setF Reg.CLX_STAT 56 56 1
  else
    let s1 := s.setF Reg.CLX_ID 15 0 v
    if s1.fab.known.any fun k => decide (k.1 = v % 2 ^ 16) && decide (k.2.1 ≠ s1.reg Reg.GLB_SERIAL) then s1
    else s1.setF Reg.CLX_STAT 57 57 0

/-- BMC_DEVICE_ID: effecter 0x0200, under R319. -/
def execBmcDeviceId (value : Nat) (s : State) : Out State :=
  .next (effecter s (decide (value < 2 ^ 16)) fun s => writeClxId s value)

/-- CLX_ID_WRITE by the physical function (R319, R337). -/
def execClxIdWrite (fn : Nat) (value : Word) (s : State) : Out State :=
  .next (if fn ≠ 0 ∨ !s.live then s else writeClxId s (fld value 15 0))

/-! ### Reading (Table 17.2) -/

/-- The values of a numeric sensor. -/
def State.numericSensor (s : State) (id : Nat) : Option (List Nat) :=
  if id = 0x11 then some [s.fldR Reg.PWR_INPUT 63 48, s.fldR Reg.PWR_INPUT 47 32, s.fldR Reg.PWR_INPUT 31 16]
  else if id = 0x12 then some [s.fldR Reg.THM_STAT 63 56, s.fldR Reg.THM_STAT 47 40, s.fldR Reg.THM_STAT 31 24]
  else if id = 0x20 then some [s.mgt.log.length, s.fldR Reg.MGT_LOG_STAT 31 16]
  else none

/-- The values of a state sensor. -/
def State.stateSensor (s : State) (id : Nat) : Option (List Nat) :=
  if id = 0x10 then some [s.devState]
  else if id = 0x13 then some [s.fldR Reg.PWR_STAT 63 62]
  else if 0x100 ≤ id ∧ id < 0x100 + 30 then
    some [b2n (s.pwr.on.testBit (id - 0x100)), b2n ((s.fldR Reg.CTX_DISAGREE 29 0).testBit (id - 0x100))]
  else none

/-- The present value of a state effecter (Table 17.1). -/
def State.stateEffecter (s : State) (id : Nat) : Option (List Nat) :=
  if id = 1 then some [if s.devState = stStandby then 2 else 1]
  else if id = 2 then some [2 - s.fldR Reg.MGT_STAT 63 63]
  else if id = 3 then some [2 - s.fldR Reg.MGT_STAT 62 62]
  else if id = 4 then some [if s.dev.stateReq = some stReady then 1 else if s.dev.stateReq = some stSafe then 2 else 0]
  else if id = 7 then some [if s.mgt.writing then 1 else 2]
  else if 0x100 ≤ id ∧ id < 0x100 + 30 then some [2 - s.fldR Reg.MGT_DOMAIN (id - 0x100) (id - 0x100)]
  else none

/-- The present value of a numeric effecter. -/
def State.numericEffecter (s : State) (id : Nat) : Option (List Nat) :=
  if id = 5 then some [s.fldR Reg.PWR_STAT 49 48]
  else if id = 6 then some [s.fldR Reg.PWR_STAT 53 50]
  else if id = 0x200 then some [s.fldR Reg.CLX_ID 15 0]
  else none

/-- Answer a read of a sensor or effecter. -/
def answer (s : State) (v : Option (List Nat)) : State :=
  if !s.powered then s else match v with
    | some l => pldm s ccSuccess l
    | none => pldm s ccInvalidSensor []

/-- GET_SENSOR_READING (R420). -/
def execGetSensorReading (sensor : Nat) (s : State) : Out State := .next (answer s (s.numericSensor sensor))
/-- GET_STATE_SENSOR_READINGS (R420). -/
def execGetStateSensorReadings (sensor : Nat) (s : State) : Out State := .next (answer s (s.stateSensor sensor))
/-- GET_STATE_EFFECTER_STATES (R420). -/
def execGetStateEffecterStates (id : Nat) (s : State) : Out State := .next (answer s (s.stateEffecter id))
/-- GET_NUMERIC_EFFECTER_VALUE (R420). -/
def execGetNumericEffecterValue (id : Nat) (s : State) : Out State := .next (answer s (s.numericEffecter id))

/-- The words of the log the readers see: the newest snapshot while SNAPSHOT is set, else the SRAM log (R424, R425). -/
def State.logView (s : State) : List LogEntry :=
  if s.fldR Reg.MGT_LOG_STAT 62 62 = 1 then s.mgt.snapshots.headD [] else s.mgt.log

/-- GET_PDR: record handle 0 is the first of the repository; handles from 0x1000 are the error log record set, one entry
each, oldest first (R420, R424). -/
def execGetPdr (handle : Nat) (s : State) : Out State :=
  .next (
    if !s.powered then s
    else if handle < 0x1000 then pldm s ccSuccess (Config.pdr handle)
    else match s.logView[handle - 0x1000]? with
      | some e => pldm s ccSuccess [e.w0.toNat, e.w1.toNat, e.w2.toNat, e.w3.toNat]
      | none => pldm s ccInvalidData [])

/-- GET_PDR_REPOSITORY_INFO (R420). -/
def execGetPdrRepositoryInfo (s : State) : Out State := .next (if !s.powered then s else pldm s ccSuccess Config.pdrInfo)

/-! ### Events (R421) -/

/-- SET_EVENT_RECEIVER names the BMC (R421). -/
def execSetEventReceiver (eid : Nat) (s : State) : Out State :=
  .next (if !s.powered then s else pldm (s.putMgt { s.mgt with receiver := some eid }) ccSuccess [])

/-- Remove an acknowledged event; ALERT# is deasserted when none is left and no power-fail sequence runs (R418). -/
def ackEvent (s : State) (id : Nat) : State :=
  let q := s.mgt.events.filter fun e => decide (e.id ≠ id)
  s
      |>.putMgt { s.mgt with events := q }
      |>.putOut { s.out with alert := decide (q ≠ []) || decide (s.fldR Reg.PWR_STAT 58 58 = 1) }

/-- PLATFORM_EVENT_ACKNOWLEDGE (R418, R421). -/
def execPlatformEventAcknowledge (id : Nat) (s : State) : Out State := .next (if !s.powered then s else ackEvent s id)

/-- POLL_FOR_PLATFORM_EVENT_MESSAGE: the event named is acknowledged, and the oldest one left is returned (R420, R421). -/
def execPollForPlatformEventMessage (ack : Option Nat) (s : State) : Out State :=
  .next (
    if !s.powered then s
    else
      let s1 := match ack with
        | some id => ackEvent s id
        | none => s
      match s1.mgt.events with
      | e :: _ => pldm s1 ccSuccess [e.id, e.kind, e.data]
      | [] => pldm s1 ccSuccess [])

/-! ### Firmware update (R422, R423) -/

/-- REQUEST_UPDATE: READY, RUN, SAFE or FAULT, and no agent in update mode (R422). -/
def execRequestUpdate (agent : Nat) (s : State) : Out State :=
  .next (
    if !s.powered then s
    else if ¬(s.live ∨ s.devState = stFault) then pldm s ccRetryRequestUpdate []
    else if s.mgt.updater.isSome then pldm s ccAlreadyInUpdateMode []
    else pldm (s.putMgt { s.mgt with updater := some agent, component := none, received := [] }) ccSuccess [])

/-- UPDATE_COMPONENT: 1 firmware into the idle slot, 2 a Hollon image; a Hollon component waits for a running STORE
(R423). -/
def execUpdateComponent (agent component : Nat) (s : State) : Out State :=
  .next (
    if !s.powered then s
    else if s.mgt.updater ≠ some agent then pldm s ccNotInUpdateMode []
    else if component ≠ 1 ∧ component ≠ 2 then pldm s ccInvalidData []
    else if component = 2 ∧ s.fldR Reg.HOL_STATUS 8 8 = 1 then pldm s ccRetryRequestUpdate []
    else pldm (s.putMgt { s.mgt with component := some component, received := [] }) ccSuccess [])

/-- The bytes with a block placed at an offset, in a list grown with zeros as needed. -/
def placeAt (bs : List Byte) (off : Nat) (blk : List Byte) : List Byte :=
  (bs ++ zeros (off - bs.length)).take off ++ blk ++ bs.drop (off + blk.length)

/-- COMPONENT_DATA_TRANSFER: a block of at most 4,096 B arrives (R422). Firmware goes toward its slot; a Hollon component
is held until it is verified. -/
def execComponentDataTransfer (agent offset : Nat) (bytes : List Byte) (s : State) : Out State :=
  .next (
    if s.mgt.updater ≠ some agent ∨ s.mgt.component = none ∨ 4096 < bytes.length then s
    else (s.putMgt { s.mgt with received := placeAt s.mgt.received offset bytes }))

/-- COMPONENT_VERIFY_DONE: firmware is written to the idle slot and passes R402 or not; a Hollon component is verified
without a BASE check before flash is written; failures report VERIFY_ERROR (R423). -/
def execComponentVerifyDone (s : State) : Out State :=
  .next (match s.mgt.component with
    | none => s
    | some c =>
      let bs := s.mgt.received
      let s1 := s.putMgt { s.mgt with component := none, received := [] }
      if c = 1 then
        let slot := 1 - s.sec.runSlot
        let s2 := s1.putSec { s1.sec with fwSlots := updAt s1.sec.fwSlots slot fun _ => bs }
        let res := s2.fwResult bs
        let s3 := recordSlot s2 slot res
        if res = 0 then pldm (s3.putMgt { s3.mgt with activatable := some slot }) ccSuccess []
        else pldm s3 ccVerifyError []
      else if s1.verify bs bs.length false = 0 ∧ (imgHeader bs).kind = 1 then
        pldm (writeHolSlot s1 s1.storeSlot bs (imgHeader bs).raiseFloor) ccSuccess []
      else pldm s1 ccVerifyError [])

/-- ACTIVATE_FIRMWARE: preferred becomes the written slot and TRIAL is set; update mode ends (R403, R423). -/
def execActivateFirmware (agent : Nat) (s : State) : Out State :=
  .next (
    if !s.powered then s
    else if s.mgt.updater ≠ some agent then pldm s ccNotInUpdateMode []
    else
      let s1 := match s.mgt.activatable with
        | some slot => s.putSec { s.sec with
              boot := { s.sec.boot with preferred := slot, trial := true, trialUsed := false } }
        | none => s
      pldm (s1.putMgt { s1.mgt with updater := none, component := none, activatable := none }) ccSuccess [])

/-! ### Log, ageing, MCTP -/

/-- MGT_LOG_CLEAR by the physical function empties the SRAM log, not the snapshots (R425). -/
def execMgtLogClear (fn : Nat) (s : State) : Out State :=
  .next (if fn ≠ 0 ∨ !s.live then s else (s.putMgt { s.mgt with log := [], unwritten := false }))

/-- AGEING_CHECK, every 10 s: a fallen margin raises the group's trim by 2.5 mV, up to +25 mV, where MGT_AGE shows LIMIT
and an entry is logged; a trim is kept in flash and never falls (R430). -/
def execAgeingCheck (group : Nat) (fell : Bool) (s : State) : Out State :=
  .next (
    if 16 ≤ group ∨ !s.live ∨ !fell ∨ 10 ≤ s.mgt.trims.getD group 0 then s
    else
      let s1 := s.putMgt { s.mgt with trims := updAt s.mgt.trims group (· + 1) }
      if s1.mgt.trims.getD group 0 = 10 then
        logError s1 { source := srcAgeing, sev := 0, unit := group }
      else s1)

/-- SET_ENDPOINT_ID of a binding: 0 SMBus, 1 PCIe VDM (R419). -/
def execSetEndpointId (binding eid : Nat) (s : State) : Out State :=
  .next (
    if !s.powered then s
    else
      let s1 := if binding = 0 then s.setF Reg.MGT_STAT 47 40 eid else s.setF Reg.MGT_STAT 39 32 eid
      respond s1 (.mctp 0 [eid % 256]))

/-- GET_ENDPOINT_ID (R419). -/
def execGetEndpointId (binding : Nat) (s : State) : Out State :=
  .next (
    if !s.powered then s
    else respond s (.mctp 0 [if binding = 0 then s.fldR Reg.MGT_STAT 47 40 else s.fldR Reg.MGT_STAT 39 32]))

/-- GET_MCTP_VERSION_SUPPORT of a message type: the base and control versions, PLDM and SPDM; 0x80 for a type not carried
(R419). -/
def execGetMctpVersionSupport (_binding type : Nat) (s : State) : Out State :=
  .next (
    if !s.powered then s
    else if [0x00, 0x01, 0x05, 0xFF].contains type then respond s (.mctp 0 [1]) else respond s (.mctp 0x80 []))

/-- GET_MESSAGE_TYPE_SUPPORT: MCTP control, PLDM, SPDM (R419). -/
def execGetMessageTypeSupport (_binding : Nat) (s : State) : Out State :=
  .next (if !s.powered then s else respond s (.mctp 0 [0x00, 0x01, 0x05]))

/-- GET_ENDPOINT_UUID, derived from GLB_SERIAL (R419). -/
def execGetEndpointUuid (_binding : Nat) (s : State) : Out State :=
  .next (if !s.powered then s else respond s (.mctp 0 (Config.uuid (s.reg Reg.GLB_SERIAL))))

end Sys2Proof.Machine
end

