-- ==== Sys2Proof/Machine/Apply.lean ====
section
/-!
DEFINITION. What changes the structure or the supply of the part: applying a committed image or fragment (R57, R64, R70 to
R73, R235), where bytes lie when the map of addresses changes, and switching power domains (R374, R382 to R384). An edge
calls these; so does the end of TRAIN.
-/
namespace Sys2Proof.Machine

/-! ### The place of a byte under two structures (R70, R73, R278, R284) -/

/-- The near-tier address of partition i that reaches a channel address of a vault of its own: the inverse of `nearPlace`. -/
def Layout.nearAddr (l : Layout) (i v ch ca : Nat) : Nat :=
  let vs := l.spanVaults i (v * vaultSize)
  let gb := grainBytes (l.part i).frag.grain
  let g := (ca / gb * vs.length + vs.findIdx fun x => decide (x = v)) * 16 + ch
  let o := g * gb + ca % gb
  vs.getD (o / vaultSize) 0 * vaultSize + o % vaultSize

/-- The address at which partition i's slice maps a channel address, if it does. -/
def Layout.sliceAddr (l : Layout) (i ch ca : Nat) : Option Nat :=
  let p := l.part i
  let chs := l.channels p
  let below := (l.parts.filter fun q =>
    q.defined && decide (q.chanMask = 0) && decide (q.bulkBase < p.bulkBase)).foldl (fun n q => n + q.bulkSize) 0
  let skip := if p.chanMask = 0 then below * 2 ^ 30 else 0
  let x := (ca / 512 * chs.length + chs.findIdx fun c => decide (c = ch)) * 512 + ca % 512
  if !p.defined ∨ !chs.contains ch ∨ x < skip ∨ p.bulkSize * 2 ^ 30 ≤ x - skip then none
  else some (bulkBase + p.bulkBase * 2 ^ 30 + (x - skip))

/-- Where the byte at an address stands under a new structure: at the same physical place, where the same function still
owns it; otherwise it is cleared (R70, R73). -/
def keepPlace (old new : Layout) (pa : Nat) : Option Nat :=
  match old.ownerOf pa with
  | none => none
  | some i =>
    let fn := (old.part i).fn
    if pa < nearTop then
      let x := old.nearPlace i pa
      match new.partOfCore x.1 with
      | some j => if (new.part j).fn = fn then some (new.nearAddr j x.1 x.2.1 x.2.2) else none
      | none => none
    else
      let x := old.bulkPlace i pa
      match (List.range 16).find? fun j => (new.sliceAddr j x.1 x.2).isSome with
      | some j => if (new.part j).fn = fn then new.sliceAddr j x.1 x.2 else none
      | none => none

/-- Memory as a new structure's addresses reach it; a stored error stays with its unit (log entry 35). -/
def remap (s : State) (new : Layout) : State :=
  let cells := s.mem.cells.foldl (fun m c => match keepPlace s.hol.cur new c.1 with
    | some pa => spSet 0 m pa c.2
    | none => m) []
  let errs := s.mem.errs.filterMap fun e => match keepPlace s.hol.cur new e.1 with
    | some pa =>
      let u := unitBytes (s.classOf pa)
      if u = 1 then none else some (pa / u * u, e.2)
    | none => none
  s |>.putHol { s.hol with cur := new } |>.putMem { s.mem with cells := cells, errs := errs }

/-! ### The tick configuration in force (R17, R48) -/

/-- PERIOD is outside the range it is applied in. -/
def tckClamped (w : Word) : Bool := decide (fld w 58 32 ≠ 0) && decide (tickPeriod w ≠ fld w 58 32)

/-- Put a tick word in force: EFF_MODE follows, and PERIOD_CLAMP is set when a new word is applied clamped (R48). -/
def applyTck (s : State) (w : Word) : State :=
  let s1 := if w ≠ s.effReg Reg.TCK_CFG ∧ tckClamped w then s.setF Reg.TCK_STATUS 14 14 1 else s
  (s1.setEff Reg.TCK_CFG w).setF Reg.TCK_STATUS 12 11 (tickMode w)

/-! ### Images (R57, R70 to R73, R235) -/

/-- The accumulator memories and core buffers of the cores that satisfy a test are cleared; the retained ranges in them count as
dropped (R70, R171). -/
def clearCores (s : State) (p : Nat → Bool) : State :=
  (dropWhere s fun r => p r.core)
      |>.putSlots (s.slots.map fun x => if p x.core then { x with vals := x.vals.map fun _ => 0 } else x)
      |>.putPrefetched (s.prefetched.filter fun r => !p r.array)

/-- The values of the DEVICE section and POWER_GROUPS become effective (R57, R71, R374): the tick word, the power mode, the
device ceiling, the groups' requests, the data-path requests of the domains. A member of a tick group keeps the tick word in
its shadow. -/
def applyDevice (s : State) (l : Layout) : State :=
  let s1 := s.setReg Reg.TCK_CFG l.tick
  let s2 := if s.inGroup then s1 else applyTck s1 l.tick
  let cfg := setFld (setFld (s2.reg Reg.PWR_CFG) 63 62 l.powerMode) 61 58 l.stepCeil
  let s3 := s2.setBoth Reg.PWR_CFG cfg
  let s4 := (List.range 16).foldl (fun s g =>
    let w := setFld (s.reg (Reg.PWR_GROUP g)) 63 60 l.stepCeil
    s.setBoth (Reg.PWR_GROUP g) w) s3
  let on := listMask ((List.range 30).filter fun d => decide (d < 4) || (l.groups.getD d 0).testBit 7)
  s4.setBoth Reg.PWR_DOMAIN (BitVec.ofNat 64 on)

/-- Each defined partition's quota of eyelet slots (R235). -/
def applyQuotas (s : State) (l : Layout) : State :=
  let n := (l.parts.filter PartDef.defined).length
  (List.range 16).foldl (fun s p =>
    s.setBoth (Reg.KV_PART_QUOTA p) (BitVec.ofNat 64 (if (l.part p).defined then 4096 / n else 0))) s

/-- A structure with its version and digest comes into force: memory whose owner changes and every core memory are cleared
(R70); the cache's lines stay where their owner does, and the others leave it first (R287). -/
def applyLayout (s : State) (l : Layout) (version : Nat) (digest : List Byte) : State :=
  let kept (c : CacheLine) : Bool := decide (keepPlace s.hol.cur l (512 * c.line) = some (512 * c.line))
  let s1 := remap ((s.mem.cache.filter fun c => !kept c).foldl evict s) l
  let s2 := clearCores (s1 |>.putMem { s1.mem with leaves := [] }
    |>.putSlots [] |>.putImages []) fun _ => true
  let s3 := applyQuotas (applyDevice s2 l) l
  setDigest (s3.setF Reg.HOL_STATUS 63 32 version) digest

/-- A committed full image at its edge (R70). -/
def applyFull (s : State) : State :=
  match s.hol.pendFull with
  | none => s
  | some img =>
    let s1 := applyLayout s (img.layout.getD s.hol.cur) img.header.version img.digest
    let s2 := (s1.setF Reg.HOL_STATUS 11 11 0).setF Reg.HOL_STATUS 10 10 1
    s2.putHol { s2.hol with verified := true, pendFull := none }

/-- The structure with one partition's fragment replaced. -/
def Layout.withFragment (l : Layout) (p : Nat) (f : Fragment) : Layout :=
  { l with parts := updAt l.parts p fun q => { q with frag := f } }

/-- A committed fragment at an edge: it applies when no context of its partition is open, and its drain runs otherwise (R72,
R73). -/
def applyFragment (s : State) : State :=
  match s.hol.pendFrag with
  | none => s
  | some img =>
    let p := img.header.target
    if s.hol.expired then s
    else if s.partOpen p then
      s.putHol { s.hol with drainLeft := s.hol.drainLeft - 1, draining := true, expired := decide (s.hol.drainLeft ≤ 1) }
    else
      let s1 := clearCores (remap s (s.hol.cur.withFragment p (img.frag.getD noFragment))) (s.part p).hasCore
      let s2 := ((s1.setF Reg.HOL_STATUS 63 32 img.header.version).setF Reg.HOL_STATUS 11 11 0).setF Reg.HOL_STATUS 10 10 1
      let s3 := setDigest s2 (sha256 (s2.activeDigest ++ img.digest))
      s3.putHol { s3.hol with pendFrag := none, drainLeft := 0, draining := false }

/-! ### Power domains (R374, R382 to R384) -/

/-- The committed image powers domain d (R65). -/
def State.imageOn (s : State) (d : Nat) : Bool := (s.hol.cur.groups.getD d 0).testBit 7

/-- Both paths request domain d on, and the image has it on. -/
def State.asked (s : State) (d : Nat) : Bool :=
  s.imageOn d && (s.effReg Reg.PWR_DOMAIN).toNat.testBit d && (s.reg Reg.MGT_DOMAIN).toNat.testBit d

/-- The effective state of domain d: PD00 to PD03 stay on; a quad goes off with any quad of its group, and with the vault
domain of its half (R374, R382 to R384). -/
def State.wantOn (s : State) (d : Nat) : Bool :=
  let quad (q : Nat) : Bool := s.asked (8 + q) && s.asked (27 + q / 8)
  if d < 4 then true
  else if 8 ≤ d ∧ d < 24 then
    s.imageOn d && (List.range 16).all fun q =>
      !(s.imageOn (8 + q) && decide (s.hol.cur.groups.getD (8 + q) 0 % 16 = s.hol.cur.groups.getD d 0 % 16)) || quad q
  else s.asked d

/-- Flush one eyelet slot ahead of PD24: under no cause of Table 8.5, so uncounted; a slot that is bad stays so, and one whose
list cannot be walked takes its context down (R219, R373, R383). -/
def flushQuiet (s : State) (k : EyeSlot) : State :=
  if k.bad then s else match flushSlot s k 15 0 with
  | (s1, none) => s1.setReg Reg.KV_FLUSH (s.reg Reg.KV_FLUSH)
  | (s1, some x) => ownFails s (noteErr s1 k.ctx x) k.ctx 6 x

/-- The near tier of one half of the vaults loses its contents, and the cache lines homed there go (R288, Table 15.21). -/
def loseVaults (s : State) (half : Nat) : State :=
  let inHalf (pa : Nat) : Bool := decide (pa < nearTop) && match s.hol.cur.ownerOf pa with
    | some p => decide ((s.hol.cur.nearPlace p pa).1 / 32 = half)
    | none => decide (pa / vaultSize / 32 = half)
  let s1 := (s.mem.cache.filter fun c => decide (c.line % 64 / 32 = half)).foldl evict s
  s1.putMem { s1.mem with
        cells := s1.mem.cells.filter fun c => !inHalf c.1
        errs := s1.mem.errs.filter fun e => !inHalf e.1 }

/-- What switching one domain off does, beside its units becoming unavailable (R383, Table 15.21). -/
def domainOff (s : State) (d : Nat) : State :=
  if 4 ≤ d ∧ d < 8 then loseSilent ((List.range 3).foldl (fun s k => linkFall s (3 * (d - 4) + k)) s)
  else if 8 ≤ d ∧ d < 24 then clearCores s fun c => decide (quadOf c = d - 8)
  else if d = 24 then afterClears s fun s => s.kv.slots.foldl flushQuiet s
  else if d = 26 then s.mem.cache.foldl cleanLine s
  else if d = 27 ∨ d = 28 then loseVaults s (d - 27)
  else s

/-- Every domain takes its effective state (R383): those that go off after what R383 has done first, those that come on not
yet ready. PD24 goes before the vaults its flushes need. -/
def settleDomains (s : State) : State :=
  let want := (List.range 30).filter s.wantOn
  let off := (List.range 30).filter fun d => s.pwr.on.testBit d && !want.contains d
  let s1 := off.foldl domainOff s
  let on := listMask want
  settleDisagree (s1.putPwr { s1.pwr with on := on, ready := s.pwr.ready &&& s.pwr.on &&& on })

/-- A unit for the command's next stage, or for a FORK, is available: an array or awl engine, and the KV unit where it is needed (R219,
R376). -/
def State.unitsUp (s : State) (e : Entry) : Bool :=
  if e.pkt.op = opcFork then s.domReady 24
  else !isCompute e.pkt.op || (decide (s.stageUnits e e.desc ≠ []) && (decide (e.desc.op ≠ opcAttn) || s.domReady 24))

/-- DOMAIN_POWER_UP_COMPLETE: the domain's units are available, and the commands held for want of them are held no longer (R376,
R383). -/
def execDomainPowerUpComplete (domain : Nat) (s : State) : Out State :=
  .next (
    if !s.pwr.on.testBit domain ∨ s.pwr.ready.testBit domain then s
    else
      let t := s.putPwr { s.pwr with ready := s.pwr.ready ||| 2 ^ domain }
      t.putFlight (s.flight.map fun e => if !s.unitsUp e && t.unitsUp e then { e with held := none } else e))

end Sys2Proof.Machine
end

