-- ==== Sys2Proof/Machine/Admit.lean ====
section
/-!
DEFINITION. Admission (03_command_rings.md R98 to R101; R14, R24, R44 to R46, R88, R219, R257, R331), WAIT and its polling
(R91), TICK_FENCE (R92) and the hold limit (R24, R233, R349, R376).
-/
namespace Sys2Proof.Machine

/-- Quads a partition owns. -/
def State.quadCount (s : State) (p : Nat) : Nat := popcount 16 (s.part p).quadMask

/-- The class whose READY this device has sent takes no more commands of the interval: LC in Elastic mode, every command
in Free mode (R331). -/
def State.readyBars (s : State) (lc : Bool) : Bool :=
  s.fab.readySent && (lc || decide (tickMode (s.effReg Reg.TCK_CFG) = 2))

/-- The new entry of an admitted packet, bound to the current interval (R44, R98). -/
def newEntry (s : State) (n r : Nat) (p : Packet) : Entry where
  id := s.nextId
  ctx := n
  ring := r
  part := s.ctxPart n
  pkt := p
  lc := decide (s.ctxClass n = 0)
  admitTick := s.tickNum
  held := none
  begun := false
  stage := 0
  run := StageRun.idle
  handover := []
  srcPtrs := []
  space := []
  ret := []
  under := false
  sat := false
  spills := 0
  core := 0
  seeded := false
  paged := false
  seed := 0
  step0 := 0
  edges := if p.op = opcTickFence then p.count else 0
  detail := 0
  recvd := []
  stagedVals := []
  stagedRaw := []
  done := false

/-- A stage of the command uses a fold entry that is empty (R63). -/
def foldsEmpty (s : State) (e : Entry) : Bool :=
  isCompute e.pkt.op && (List.range e.pkt.stages).any fun i =>
    let d := e.descAt i
    (decide (d.op = opcMatmul ∨ d.op = opcConv ∨ d.op = opcScan) && !d.onAwl) &&
      (match ((s.part e.part).frag.folds)[d.fold]? with
        | some w => foldEmpty w
        | none => false)

/-- The command completes with OK at its admission: a zero count, a WAIT that is satisfied, no stage, or a stage on an empty fold entry
(R14, R63, R91; log entry 85). -/
def atOnce (s : State) (e : Entry) : Bool :=
  decide (e.pkt.count = 0 ∨ e.pkt.op = opcWait) || (isCompute e.pkt.op && decide (e.pkt.stages = 0)) || foldsEmpty s e

/-- The context's budget of the interval is used up (R45); commands with count zero, or on an empty fold entry, need none (R14, R63). -/
def State.overBudget (s : State) (n r : Nat) (p : Packet) : Bool :=
  decide (p.count ≠ 0 ∧ s.effF (Reg.TCK_CTX_BUDGET n) 39 0 ≤ (s.ctx n).used) && !foldsEmpty s (newEntry s n r p)

/-- The fetched packet of ring r could take an entry, budget and class order apart (R38, R59, R98 to R100). -/
def State.admissible (s : State) (r : Nat) : Bool :=
  let g := s.ring r
  match g.fetched, s.ctxOfRing r with
  | some p, some n =>
    s.live && decide (s.fldR Reg.PWR_STAT 58 58 = 0) && decide (s.ctxState n = 1) && (s.ctx n).saving.isNone &&
    s.partOn (s.ctxPart n) && (decide (g.state = 2) || decide (g.state = 4)) && !(isCompute p.op && s.barsCompute r) &&
    decide (s.flight.length < 16384) &&
    decide ((s.partFlight (s.ctxPart n)).length < 1024 * s.quadCount (s.ctxPart n)) &&
    decide ((s.ringFlight r).length < g.limit) &&
    (s.ringIdle r || (!p.fence && !isSerial p.op && (s.ringFlight r).all fun e => e.done || !isSerial e.pkt.op)) &&
    !s.readyBars (decide (s.ctxClass n = 0))
  | _, _ => false

/-- Another ring of the partition holds an admissible LC command (R99). -/
def State.lcWaits (s : State) (p : Nat) : Bool :=
  s.rings.any fun r => s.admissible r.1 && match (s.ring r.1).fetched, s.ctxOfRing r.1 with
    | some k, some n => decide (s.ctxPart n = p ∧ s.ctxClass n = 0) && !s.overBudget n r.1 k
    | _, _ => false

/-- The fetched packet p of ring r of context n can be admitted now: its limits, its budget, and LC before BE (R45, R98, R99). -/
def State.mayAdmit (s : State) (r n : Nat) (p : Packet) : Bool :=
  s.admissible r && !s.overBudget n r p && (decide (s.ctxClass n = 0) || !s.lcWaits (s.ctxPart n))

/-- The counter of a WAIT and whether it has reached the threshold (R91). -/
def waitMet (s : State) (n : Nat) (p : Packet) : Except MErr Bool :=
  if p.count = 0 then .ok true
  else (vread64 s n (fld (p.w 4) 51 3 * 8)).map fun v => decide ((p.w 5).toNat ≤ v)

/-- The host errors of a packet that the part meets at admission (R86, R88, Table 13.2). -/
def packetBad (g : Ring) (p : Packet) : Bool :=
  let len := fld (p.w 0) 18 0
  !opDefined p.op || decide (p.op = opcCollective ∧ 8 ≤ fld (p.w 4) 63 60) || decide (8 < p.stages ∨ (!isCompute p.op ∧ p.stages ≠ 0) ∨ 262144 < len ∨ g.cap < packetEntries len)

/-- Take the entry: the packet leaves the fetch buffer, and a ring's first command that names a state handle makes its
root live (R26, R98). -/
def takeEntry (s : State) (n r : Nat) (p : Packet) : State :=
  let g := s.ring r
  let st : Option Stream := match g.stream with
    | some x => some (if x.kh = 0 then { x with kh := p.kh } else x)
    | none => if p.sh ≠ 0 then some ⟨p.sh, p.kh, s.nextId, 0⟩ else none
  s.setRing r { g with fetched := none, stream := st }
    |>.putFlight (s.flight ++ [newEntry s n r p]) |>.putNextId (s.nextId + 1)

/-- A command that completes with OK and no work at its admission (R14, R91): its draws advance (R257). -/
def finishAtOnce (s : State) (e : Entry) : State :=
  if isCompute e.pkt.op then
    match advanceDraws s e.ctx (drawHandles e) with
    | (s1, none) => complete s1 e.id { status := 0 }
    | (_, some x) => failEntry (noteErr s e.ctx x) e.id none x
  else finishControl s s e.id { status := 0 }

/-- A command takes what it needs of admission: seed and step0, and pages. Unavailable memory, or a pool without pages, holds it; an
error of the key table fails the command as a whole (R219, R257, R450). -/
def takeAtAdmission (s : State) (e : Entry) : State := match admitTake s e with
  | (s1, none) => s1
  | (_, some x) => failEntry (noteErr s e.ctx x) e.id none x

/-- What admission itself does with the new entry: a host error, a zero count, an immediate completion, or the values, pages
and frames it needs (R14, R20, R63, R88, R91, R219, R257, R300, R450). -/
def admitted (s : State) (id : Nat) (bad : Bool) : State :=
  match s.entry id with
  | none => s
  | some e =>
    if bad ∨ s.handleClash e then unpredCommand s id
    else if atOnce s e then finishAtOnce s e
    else if isCompute e.pkt.op ∨ e.pkt.op = opcFork then takeAtAdmission s e
    else if e.pkt.op = opcMigrate then migrateTake s id
    else s

/-- Admit the fetched packet of ring r of context n. -/
def admitPacket (s : State) (n r : Nat) (p : Packet) : State :=
  admitted (takeEntry s n r p) s.nextId (packetBad (s.ring r) p)

/-- Test the WAIT that ring r has fetched (R91): unsatisfied, the ring reads WAITING; satisfied, or with a counter that cannot be read
for an error, it is admitted as soon as any command could be (R45, R98, R99), the ring fetching again till then. -/
def holdWait (s : State) (n r : Nat) (p : Packet) : State :=
  let s0 := if p.count = 0 then s else vtouch s n (fld (p.w 4) 51 3 * 8) 8
  let s1 := setRingState s0 r (s.ring r).base
  match waitMet s n p with
  | .ok false | .error .unavail | .error .wait => setRingState s0 r 3
  | .ok true => if s1.mayAdmit r n p then admitPacket s1 n r p else s1
  | .error x => if s1.mayAdmit r n p then failEntry (takeEntry s1 n r p) s1.nextId none x else s1

/-- Admit the packet that ring r of context n has fetched, if it can be; a budget that is used up defers it (R45). -/
def admitNext (s : State) (n r : Nat) (p : Packet) : State :=
  if !s.admissible r then s
  else if s.overBudget n r p then
    (if (s.ctx n).deferred then s
     else tally (s.setCtx n { s.ctx n with deferred := true }) (telPart (s.ctxPart n) telDeferred) 1)
  else if !s.mayAdmit r n p then s
  else if p.op = opcWait ∧ !packetBad (s.ring r) p then holdWait s n r p
  else admitPacket s n r p

/-- COMMAND_ADMIT (R14, R44 to R46, R88, R98 to R100, R331). -/
def execCommandAdmit (ring : Nat) (s : State) : Out State :=
  .next (match (s.ring ring).fetched, s.ctxOfRing ring with
    | some p, some n => admitNext s n ring p
    | _, _ => s)

/-! ### WAIT (R91) -/

/-- Retest a WAITING ring. -/
def testWait (s : State) (r : Nat) : State :=
  let g := s.ring r
  match g.fetched, s.ctxOfRing r with
  | some p, some n =>
    if g.state ≠ 3 ∨ p.op ≠ opcWait ∨ s.ctxState n ≠ 1 ∨ (s.ctx n).saving.isSome then s else holdWait s n r p
  | _, _ => s

/-- WAIT: the ring's fetched WAIT is tested once every earlier command of the ring has completed (R91, R100). -/
def execWait (ring : Nat) (s : State) : Out State :=
  .next (match (s.ring ring).fetched, s.ctxOfRing ring with
    | some p, some n =>
      if p.op ≠ opcWait then s
      else if (s.ring ring).state = 3 then (if s.live then testWait s ring else s)
      else admitNext s n ring p
    | _, _ => s)

/-- The WAITING rings, ascending. -/
def State.waitingRings (s : State) : List Nat := (s.rings.filter fun r => decide (r.2.state = 3)).map (·.1)

/-- WAIT_POLL: every 10 µs each waiting ring is tested (R91). -/
def execWaitPoll (s : State) : Out State :=
  .next (if !s.live then s else s.waitingRings.foldl testWait s)

/-! ### TICK_FENCE (R92) -/

/-- TICK_FENCE: it holds later commands of its ring from here (R92, R100). -/
def execTickFence (id : Nat) (s : State) : Out State :=
  .next (match s.entry id with
    | none => s
    | some e => if e.pkt.op ≠ opcTickFence ∨ e.done then s else s.updEntry id fun x => { x with begun := true })

/-- An edge passes for every TICK_FENCE. -/
def countFences (s : State) : State :=
  s.putFlight (s.flight.map fun e => if e.pkt.op = opcTickFence ∧ !e.done then { e with edges := e.edges - 1 } else e)

/-- TICK_FENCE_EXPIRY: its edges have passed and every earlier command of its ring has completed (R92). -/
def execTickFenceExpiry (id : Nat) (s : State) : Out State :=
  .next (match s.entry id with
    | none => s
    | some e =>
      if e.pkt.op ≠ opcTickFence ∨ e.done ∨ e.edges ≠ 0 ∨ (s.ringFlight e.ring).any (fun x => decide (x.id < id) && !x.done) then s
      else finishControl s s id { status := 0 })

/-! ### The hold limit (R24, R233, R349, R376, R450) -/

/-- Since when a command is held: a ring-attention stage, or a collective, waits for others; a compute command that has begun and has no
unit left is held without limit (R376), while memory, a slot or a parked state holds it like any other (R195, R199, R450). -/
def waitSince (s : State) (e : Entry) : Option Nat :=
  if e.pkt.op = opcCollective then some e.admitTick
  else if e.run.started ∧ e.desc.op = opcAttn ∧ e.desc.atRing ≠ 0 then
    (if s.lapHere e.desc 1 && s.lapHere e.desc 2 then none else some e.run.startTick)
  else if e.begun ∧ isCompute e.pkt.op ∧ s.stageUnits e e.desc = [] then none
  else e.held

/-- A ring stage whose blocks failed to come: its exchange is dead, later blocks are discarded (R233). -/
def killExchange (s : State) (e : Entry) : State :=
  if e.run.started ∧ e.desc.op = opcAttn ∧ e.desc.atRing ≠ 0 then
    s.putKv { s.kv with
          blocks := s.kv.blocks.filter fun m => decide (m.tag ≠ e.desc.atSeq)
          dead := e.desc.atSeq :: s.kv.dead.filter fun k => decide (k ≠ e.desc.atSeq) }
  else s

/-- The stage a hold-limit record names. -/
def holdStage (e : Entry) : Option Nat := if isCompute e.pkt.op ∧ e.begun then some e.stage else none

/-- A COLLECTIVE that timed out: TIMEOUTS counts it and later messages of its coll_seq are discarded (R348). -/
def killCollective (s : State) (e : Entry) : State :=
  if e.pkt.op ≠ opcCollective then s
  else
    let k := ((s.group (fld (e.pkt.w 4) 59 52)).key, fld (e.pkt.w 6) 63 32)
    let s1 := s.satF Reg.CLX_COLL_STAT 31 16 1
    s1.putFab { s1.fab with dead := k :: s1.fab.dead.filter fun x => decide (x ≠ k), store := dropStored k s1.fab.store }

/-- The moves of a MIGRATE that it has not made are given up with it (R300, R450). -/
def dropMoves (s : State) (id : Nat) : State :=
  s.putMig { s.mig with queue := s.mig.queue.filter fun m => decide (m.cmd ≠ some id) }

/-- HOLD_LIMIT_EXPIRY: a command held for the hold limit in ticks completes UNIT_UNAVAILABLE (R24, R233, R348, R376). -/
def execHoldLimitExpiry (id : Nat) (s : State) : Out State :=
  .next (match s.entry id with
    | none => s
    | some e => match waitSince s e with
      | none => s
      | some t0 =>
        if !s.live ∨ e.done ∨ s.tickNum < t0 + s.holdLimit then s
        else
          let s1 := dropMoves (killCollective (killExchange (dropAcquired s e) e) e) id
          releaseReserved (complete s1 id { status := 1, stage := holdStage e }) id)

end Sys2Proof.Machine
end

