-- ==== Sys2Proof/Machine/Control.lean ====
section
/-!
DEFINITION. LOAD, STORE, EVENT and FORK (R27, R91, R295). CONFIG and COMMIT are in RegWrites.lean, MIGRATE in Migration.lean.
-/
namespace Sys2Proof.Machine

/-- A command of one opcode that has not completed, in a partition that may run (R59). -/
def State.ready? (s : State) (id op : Nat) : Option Entry :=
  (s.entry id).bind fun e => if e.pkt.op = op ∧ !e.done ∧ s.partOn e.part then some e else none

/-- The memory address in word 4 of a LOAD, STORE or MIGRATE. -/
def Packet.va (p : Packet) : Nat := fld (p.w 4) 51 0

/-- LOAD writes its first count payload bytes to the destination (R295), as the host does (R198, R208, R257); a count beyond the payload
is a host error. -/
def execLoad (id : Nat) (s : State) : Out State :=
  .next (match s.ready? id opcLoad with
    | none => s
    | some e =>
      let bs := e.pkt.payload.take e.pkt.count
      if bs.length < e.pkt.count then unpredCommand s id
      else
        let wrote (t : State) : State := hostWrote s t (s.reaches e.ctx e.pkt.va bs.length) (some id)
        match vwrite s e.ctx e.pkt.va bs with
        | (s1, none) => finishControl s (wrote s1) id { status := 0 }
        | (_, some .unavail) => holdEntry s id
        | (_, some .wait) => s
        | (s1, some x) => failEntry (wrote s1) id none x)

/-- STORE returns count bytes from the source as its record's payload, none when it fails (R295); a count beyond 262,144
is a host error. -/
def execStore (id : Nat) (s : State) : Out State :=
  .next (match s.ready? id opcStore with
    | none => s
    | some e =>
      if 262144 < e.pkt.count then unpredCommand s id
      else match vread s e.ctx e.pkt.va e.pkt.count with
        | .ok bs => finishControl s (vtouch s e.ctx e.pkt.va e.pkt.count) id { status := 0, payload := bs }
        | .error .unavail => holdEntry s id
        | .error .wait => s
        | .error x => failEntry (vtouch s e.ctx e.pkt.va e.pkt.count) id none x)

/-- The address of the counter of an EVENT or WAIT (Table 3.6). -/
def Packet.counter (p : Packet) : Nat := fld (p.w 4) 51 3 * 8

/-- The waiting rings of a context whose WAIT names a counter. -/
def State.waitersOn (s : State) (n addr : Nat) : List Nat :=
  s.waitingRings.filter fun r => decide (s.ctxOfRing r = some n) && match (s.ring r).fetched with
    | some p => decide (p.counter = addr)
    | none => false

/-- EVENT adds count to its 64-bit counter and tests the WAITs on it (R91). -/
def execEvent (id : Nat) (s : State) : Out State :=
  .next (match s.ready? id opcEvent with
    | none => s
    | some e =>
      let a := e.pkt.counter
      match vread64 s e.ctx a with
      | .error x => failEntry (noteErr s e.ctx x) id none x
      | .ok v => match vwrite (vtouch s e.ctx a 8) e.ctx a (leBytes 8 (v + e.pkt.count)) with
        | (s1, none) =>
          let s2 := finishControl s s1 id { status := 0 }
          if (s2.ready? id opcEvent).isSome then s2 else (s2.waitersOn e.ctx a).foldl testWait s2
        | (_, some .unavail) => holdEntry s id
        | (_, some .wait) => s
        | (s1, some x) => failEntry s1 id none x)

/-- FORK: seed and step0 are read first where its admission could not (R257, R450). -/
def execFork (id : Nat) (s : State) : Out State :=
  .next (match s.ready? id opcFork with
    | none => s
    | some e => match admitTake s e with
      | (_, some x) => failEntry (noteErr s e.ctx x) id none x
      | (s1, none) => match s1.entry id with
        | some e1 => forkNow s1 e1
        | none => s1)

end Sys2Proof.Machine
end

