-- ==== Sys2Proof/Machine/Edge.lean ====
section
/-!
DEFINITION. Tick edges (R41 to R50, Table 1.3): when one may occur, what it closes, the telemetry record (R426), what it
applies and in which order; holdover (R328); and the end of TRAIN, which is edge 0 (R71, R74 to R76).
-/
namespace Sys2Proof.Machine

/-! ### When an edge occurs (Table 1.2, R43, R50, R329) -/

/-- An edge that waits for work falls `len` after the last: at the limit x while work is outstanding; else at `lo`, or when the work ended
if that was later, at any moment from then on where the row of the last completion gave no time. -/
def edgeFalls (len lo x : Nat) (outstanding : Bool) (lastEnd : Nat) (open_ : Bool) : Bool :=
  let t := min x (max lo lastEnd)
  if outstanding then decide (len = x) else if open_ then decide (t ≤ len ∧ len ≤ x) else decide (len = t)

/-- The device's own tick can have an edge `len` after its last: exactly PERIOD in Fixed mode; in Elastic at PERIOD or when LC work ends
after it, in Free at 20 µs or when all work ends after it, and at the limit whatever is outstanding (Table 1.2). -/
def State.ownEdgeDue (s : State) (len : Nat) : Bool :=
  if s.tckMode = 0 then decide (len = s.tckPeriod)
  else if s.tckMode = 1 then edgeFalls len s.tckPeriod s.tckLimit (s.outstanding true) s.tick.lcEnd s.tick.lcOpen
  else edgeFalls len 2000 s.tckLimit (s.outstanding false) s.tick.allEnd s.tick.allOpen

/-- An edge can occur now: the one a CLASP schedules, which the manager applies at the time it chose, or one of the device's
own tick. -/
def State.edgeDue (s : State) (len : Nat) : Bool :=
  s.tick.running && match s.fab.sched with
    | some c => !s.leads || decide (s.fab.edgeAt + len = c.edgeTime)
    | none => !s.inGroup && s.ownEdgeDue len

/-- A member that has no CLASP holds over: in Fixed mode PERIOD after its last edge, otherwise at the latest time (R328). -/
def State.holdoverDue (s : State) (len : Nat) : Bool :=
  s.tick.running && s.inGroup && !s.isManager && s.fab.sched.isNone && decide (len = s.tckLimit)

/-! ### Closing the interval (R44, R45, R47, Tables 1.6, 1.7, 1.9) -/

/-- The interval overran: LC work outstanding, in Free mode work of either class; for a manager also work of a member. -/
def State.overran (s : State) : Bool :=
  s.outstanding (decide (s.tckMode ≠ 2)) || match s.fab.sched with
    | some c => c.forced
    | none => false

/-- Elastic, and later than PERIOD. -/
def State.stretched (s : State) (len : Nat) : Bool := decide (s.tckMode = 1 ∧ s.tckPeriod < len)

/-- BUSY_END of the interval (Table 1.6): the last LC completion, a free value from the last known one on where its row gave no time (log
entry 66). -/
def State.busyEndOf (s : State) (len : Nat) : Nat :=
  if s.overran then len
  else if s.tick.busyOpen then s.tick.busyEnd + Config.freeNat s.free % max 1 (len + 1 - s.tick.busyEnd)
  else s.tick.busyEnd

/-- The interval's registers (R47). -/
def closeInterval (s : State) (len : Nat) : State :=
  let late := s.overran
  let s1 := s.setF Reg.TCK_STATUS 10 10 (b2n late)
  let s2 := (s1.setF Reg.TCK_LAST_INTERVAL 58 32 len).setF Reg.TCK_LAST_INTERVAL 26 0 (s.busyEndOf len)
  (s2.addF Reg.TCK_OVR_COUNT 63 32 (b2n late)).addF Reg.TCK_OVR_COUNT 31 0 (b2n (s.stretched len))

/-- Core time and deferral of contexts numbered n that were closed in the interval. -/
def State.goneUse (s : State) (n : Nat) : Nat × Bool :=
  let l := (s.tick.gone.filter fun x => decide (x.1 = n)).map (·.2)
  ((l.map (·.1)).foldl (· + ·) 0, l.any (·.2))

/-- What context n was charged in the closed interval, and a deferral, are shown (Table 1.9). -/
def showUse (s : State) (n : Nat) : State :=
  let c := s.ctx n
  let g := s.goneUse n
  (s.setF (Reg.TCK_CTX_USED n) 39 0 (min (c.used + g.1) (2 ^ 40 - 1))).satF (Reg.TCK_CTX_USED n) 63 48 (b2n (c.deferred || g.2))

/-- The budget of one context is refilled (R362). -/
def refill (s : State) (n : Nat) : State :=
  let c := s.ctx n
  s.setCtx n { c with used := 0, deferred := false, idle := if c.used = 0 then min 256 (c.idle + 1) else 0 }

/-- Every context's use is shown, of one closed in the interval too, and every budget is refilled. -/
def refillAll (s : State) : State :=
  let regs := (s.regs.map (·.1)).filter fun o => decide (Reg.TCK_CTX_USED 0 ≤ o ∧ o < Reg.TCK_CTX_USED 4096)
  let shown := regs.map (fun o => (o - Reg.TCK_CTX_USED 0) / 8) ++ s.tick.gone.map (·.1) ++ s.openCtxs
  let s1 := (dedup shown).foldl showUse s
  s1.openCtxs.foldl refill s1

/-- The core time that running work has used since the opening edge is charged to the interval that closes (R44, R45): entry, time. -/
def chargeRunning (s : State) (l : List (Nat × Nat)) : State := l.foldl (fun s x => match s.entry x.1 with
  | some e => if e.done ∨ e.run.claims = [] then s else charge s e x.2
  | none => s) s

/-! ### Slots and grants -/

/-- Resident-state units of partition p on available cores, in all and free (R62, R199, Table 14.13). -/
def State.unitsTotal (s : State) (p : Nat) : Nat := s.coreUnits p * (s.slotCores p).length
@[inherit_doc State.unitsTotal] def State.unitsFree (s : State) (p : Nat) : Nat :=
  s.unitsTotal p - (s.slots.filter fun x => (s.slotCores p).contains x.core).foldl (fun n x => n + x.units) 0

/-- LEND_IDLE as applied (Table 14.12). -/
def State.lendIdle (s : State) (p : Nat) : Nat := max 1 (s.effF (Reg.CTX_PART_CFG p) 7 0)

/-- A context would leave its cores idle: nothing admitted, no ring with entries in FETCHING, no core time charged in the last
LEND_IDLE intervals (R362). -/
def State.lends (s : State) (n : Nat) : Bool :=
  decide (s.ctxFlight n = []) && decide (s.lendIdle (s.ctxPart n) ≤ (s.ctx n).idle) &&
  (s.rings.all fun r => decide (s.ctxOfRing r.1 ≠ some n ∨ r.2.state ≠ 2 ∨ r.2.head = r.2.tail))

/-- Contexts of partition p that are not FREE. -/
def State.partCtxs (s : State) (p : Nat) : List Nat := s.openCtxs.filter fun n => decide (s.ctxPart n = p)

/-- The class a core of partition p is granted to: 0 LC, 1 BE, none where no context's set holds it (R362). -/
def State.grantOf (s : State) (p c : Nat) : Option Nat :=
  let own := (s.partCtxs p).filter fun n => (s.ctxArrays n).any fun a => (arrayCores (s.part p).frag.gang a).contains c
  let lc := own.filter fun n => decide (s.ctxClass n = 0)
  if own = [] then none
  else if lc = [] then some 1
  else if s.effF (Reg.CTX_PART_CFG p) 63 63 = 1 then some 0
  else if lc.all s.lends then some 1 else some 0

/-- The cores granted to a class. -/
def State.grants (s : State) (cls : Nat) : Nat :=
  listMask ((List.range 16).flatMap fun p => (s.part p).cores.filter fun c => decide (s.grantOf p c = some cls))

/-- Core grants for the interval that opens, and the stages on the arrays they now have (R362, R363). -/
def grantCores (s : State) : State :=
  rebindArrays (s.putTick { s.tick with lcCores := s.grants 0, beCores := s.grants 1 })

/-! ### The telemetry record (R426, Tables 17.6 to 17.8) -/

/-- v in a field of w bits at lo, saturated. -/
def put (v w lo : Nat) : Nat := min v (2 ^ w - 1) * 2 ^ lo

/-- Partition section p (Table 17.7). -/
def telSection (s : State) (p : Nat) : List Nat :=
  if !(s.part p).defined then List.replicate 6 0
  else
    let t (k : Nat) : Nat := s.telAt (telPart p k)
    let granted (m : Nat) : Nat := ((s.part p).cores.filter m.testBit).length
    [put (granted s.tick.lcCores) 7 57 + put (granted s.tick.beCores) 7 50 + put (s.partCtxs p).length 13 37 + 2 ^ 36 +
        put (s.unitsFree p) 16 16 + put ((s.partFlight p).filter (·.held.isSome)).length 16 0,
      put (t telCoreTime) 40 24 + put (t telDeferred) 12 12 + put (t telLate) 12 0,
      put (t telCbSpills) 32 32 + put (t telNtSpills) 32 0,
      put (t telMaxShift) 16 48 + put (t telMaxAbs) 32 16 + put (t telGuards) 16 0,
      put (t telPartEnergy) 32 32 + put (t telForced) 16 16 + put (t telCopies) 16 0,
      (t telCompletions) % 2 ^ 32 * 2 ^ 32 + (t telFailures) % 2 ^ 32]

/-- Override entries (Table 17.8); the times come with the edge. -/
def telOverrides (s : State) (times : List Nat) : List Nat :=
  (List.range 16).map fun i => match s.pwr.overrides[i]? with
    | some o => put o.1 4 60 + put o.2.1 4 56 + put o.2.2.1 4 52 + put o.2.2.2 4 48 + put (times.getD i 0) 28 20
    | none => 0

/-- The 128 words of the record of the interval that closes (Table 17.6). `tel` holds what only the environment knows: the
shares of word 7, then the times of the overrides. DEDUCED: the mode of word 2 is the mode in force of R388, as sensor 0x0013 names it
(log entry 95). -/
def telWords (s : State) (len : Nat) (tel : List Nat) : List Nat :=
  let st := s.fldR Reg.PWR_STAT
  let thm := s.fldR Reg.THM_STAT
  let flags := b2n s.overran * 128 + b2n (s.stretched len) * 64 + s.fldR Reg.CLX_STAT 59 59 * 32 + s.fldR Reg.CLX_STAT 58 58 * 16 +
    st 60 60 * 8 + st 57 57 * 4 + b2n (decide (s.pwr.overrides ≠ [])) * 2 + b2n (decide (thm 15 13 ≠ 0))
  let n := s.pwr.overrides.length
  [s.tickNum * 2 ^ 16 + 0x100,
   put len 27 32 + put (s.busyEndOf len) 27 0,
   flags * 2 ^ 56 + st 63 62 * 2 ^ 54 + s.fldR Reg.CLX_STAT 15 0,
   put (s.telAt telEnergy) 32 32 + put (s.telAt telPowerMax) 16 16,
   thm 63 56 * 2 ^ 56 + thm 47 40 * 2 ^ 48 + thm 31 24 * 2 ^ 40,
   (List.range 16).foldl (fun w g => w + s.fldR (Reg.PWR_GROUP g) 51 48 * 2 ^ (4 * g)) 0,
   put (s.telAt telCorrected) 16 48 + put (s.telAt telUncorrected) 16 32 + put (s.telAt telDetected) 16 16 +
     put (s.telAt telReplays) 16 0,
   put (tel.getD 0 0) 16 48 + put (tel.getD 1 0) 16 32 + put (tel.getD 2 0) 16 16,
   put (min n 16) 8 56 + put (n - 16) 8 48 + put (s.telAt telUnattributed) 32 0] ++
  List.replicate 7 0 ++ (List.range 16).flatMap (telSection s) ++ telOverrides s (tel.drop 3)

/-- Close the telemetry record of an interval: written in the ring slot NEXT through the class map, or skipped where its
memory is unowned, unavailable or not class C (R426). Its two writes are accesses of the partition that owns the memory. -/
def telemetry (s : State) (len : Nat) (tel : List Nat) : State :=
  let n := s.effF Reg.TEL_CFG 62 48
  if !s.live ∨ s.effF Reg.TEL_CFG 63 63 = 0 ∨ n = 0 then s
  else
    let i := s.fldR Reg.TEL_STAT 62 48 % n
    let pa := s.effF Reg.TEL_CFG 47 10 * 1024 + 1024 * i
    let s1 := s.setF Reg.TEL_STAT 62 48 ((i + 1) % n)
    match s.hol.cur.ownerOf pa with
    | some p =>
      if !s.reachOk pa 1024 ∨ s.classOf pa ≠ 0 then s1.addF Reg.TEL_STAT 31 0 1
      else
        let bs := natBytes (telWords s len tel)
        storePhys (storePhys s1 p (pa + 8) (bs.drop 8) none) p pa (bs.take 8) none
    | none => s1.addF Reg.TEL_STAT 31 0 1

/-! ### Applying shadows (R9, R11, R50, R235) -/

/-- Quota writes that would sum above 4,096 are not applied: the previous quotas stand (R235; log entry 33). -/
def judgeQuotas (s : State) : State :=
  let sum := (List.range 16).foldl (fun n p => n + s.fldR (Reg.KV_PART_QUOTA p) 12 0) 0
  if sum ≤ 4096 then s
  else
    let s1 := (List.range 16).foldl (fun s p => s.setReg (Reg.KV_PART_QUOTA p) (s.effReg (Reg.KV_PART_QUOTA p))) s
    s1.setF Reg.KV_STAT 2 2 1

/-- Ranges that RETAIN_MAX no longer covers are evicted, least recently used first (R186). -/
def evictRetained (s : State) : State :=
  s.putRetained ((dedup (s.retained.map (·.core))).flatMap fun c => fitRetained (s.retainMax c) 0 0 (s.retainedOf c))

/-- A new BASE or RECORDS of the telemetry ring restarts it at record 0 (R431). -/
def restartTel (s : State) (old : Nat) : State :=
  if s.effF Reg.TEL_CFG 62 10 = old then s else s.setF Reg.TEL_STAT 62 48 0

/-- Every shadow is applied; a member of a tick group keeps its TCK_CFG (R9, R50). The BMC's mode and ceiling and the step of
the latest CLASP come into force with them (R386, R388, R395). -/
def applyShadows (s0 : State) (keepTck : Bool) : State :=
  let s := judgeQuotas s0
  let due := (dedup (s.regs.map (·.1) ++ s.eff.map (·.1))).filter fun o => s.shadowed o && decide (o ≠ Reg.TCK_CFG)
  let s1 := due.foldl (fun s o => s.setEff o (s.reg o)) s
  let s2 := if keepTck then s1 else applyTck s1 (s1.reg Reg.TCK_CFG)
  let s3 := restartTel (s2.setEff Reg.PWR_STAT (s2.reg Reg.PWR_STAT)) (s0.effF Reg.TEL_CFG 62 10)
  evictRetained (s3.setEff Reg.PWR_FLOCK (s3.reg Reg.PWR_FLOCK))

/-! ### The rest of an edge -/

/-- The state request accepted before this edge is judged again (R4). -/
def judgeRequest (s : State) : State :=
  match s.dev.stateReq with
  | none => s
  | some t =>
    let s1 := s.putDev { s.dev with stateReq := none }
    if s1.reqOk t then enterState s1 t else s1.setF Reg.GLB_STATE 8 8 1

/-- The edge at which the part enters READY from SAFE is edge 0 (R71); in a tick group too (log entry 34). -/
def State.becomesZero (s : State) : Bool := decide (s.dev.stateReq = some stReady) && s.reqOk stReady

/-- Every PARK reached takes effect, then every RESUME (R37, R39). -/
def parksAndResumes (s : State) : State :=
  let due (s : State) (op : Nat) : List Nat := (s.flight.filter fun e =>
    decide (e.pkt.op = op) && e.begun && !e.done && s.partOn e.part && !(s.ring e.ring).transfer).map (·.id)
  let act (f : State → Entry → State) (s : State) (id : Nat) : State := match s.entry id with
    | some e => if e.done then s else f s e
    | none => s
  let s1 := (due s opcPark).foldl (act parkAtEdge) s
  (due s1 opcResume).foldl (act resumeAtEdge) s1

/-- The first-match triggers whose tick has come (Table 12.8). -/
def armTriggers (s : State) : State :=
  let hit (i : Nat) : Bool := decide (s.fldR Reg.FI_CTL 0 0 = 1 ∧ s.fldR (Reg.FI_RULE i) 60 58 = 1 ∧
    s.fldR (Reg.FI_PARAM i) 63 32 = s.tickNum % 2 ^ 32)
  s.setFab fun f => { f with seen := (List.range 16).map fun i => if hit i then 1 else f.seen.getD i 0 }

/-- The interval that opens: the tick number, no READY yet, no tally, every ring's descriptor written (R80, R331). -/
def openInterval (s : State) (t at_ : Nat) : State :=
  let k := s.tick
  let s1 := s
      |>.putTick { k with
        busyEnd := 0, lcEnd := 0, allEnd := 0, busyOpen := false, lcOpen := false, allOpen := false, tel := [], gone := [] }
      |>.putFree (s.free + b2n k.busyOpen)
      |>.putPwr { s.pwr with overrides := [], rideEdge := decide (s.fldR Reg.PWR_STAT 60 60 = 1 ∧ 1000 ≤ s.pwr.us41) }
      |>.putMig { s.mig with epoch := s.mig.epoch.map (· + 1) }
  let s2 := s1.setFab fun f => { f with
    sched := none, late := none, edgeAt := at_, readySent := false
    members := f.members.map fun m => { m with ready := false }
    domains := f.domains.map fun d => (d.1, false) }
  let s3 := armTriggers (s2.setF Reg.TCK_STATUS 63 16 t)
  ((s3.rings.filter fun r => decide (r.2.state ≠ 0)).map (·.1)).foldl writeBack s3

/-- What takes place from 500 ns on (Table 1.3): membership at the group's edge t, with the epoch a CLASP names, steps, PARK, RESUME,
discards, grants, fences. The discards of closed rings come after the RESUMEs: a slot that one frees serves a RESUME of a later edge
(log entry 79). -/
def afterShadows (s : State) (t : Nat) (clasped : Bool) (c : Option Sched) : State :=
  let s1 := applyMembers s t clasped
  let s2 := match c with
    | some c => s1.setF Reg.CLX_STAT 15 0 c.epoch
    | none => s1
  let s3 := afterClears (settlePower (settleRoot s2)) parksAndResumes
  grantCores (countFences (applyDiscards s3 fun _ => true))

/-- What an edge takes of a CLASP: the one that scheduled it, or one that came too late for the edge before (R332). -/
def State.claspNow (s : State) (c : Option Sched) : Option Sched := c.or s.fab.late

/-- One edge: number t, `len` after the last, at domain time `at_`; `c` is the schedule a CLASP brought. A shadow of a register that a
committed image also sets is applied before it, so that the image's values stand (log entry 80). -/
def edge (s : State) (len t at_ : Nat) (c : Option Sched) (tel : List Nat) (holdover : Bool) : State :=
  let zero := s.becomesZero
  let take := s.claspNow c
  let led := (s.inGroup || c.isSome) && !s.leads
  let s1 := refillAll (if zero then s else telemetry (closeInterval s len) len tel)
  let s2 := applyShadows s1 led
  let s3 := match take with
    | some c => if led then applyTck s2 c.tck else s2
    | none => s2
  let s4 := settleDomains (judgeRequest (applyFragment (applyFull s3)))
  let s5 := s4.setF Reg.CLX_STAT 59 59 (b2n holdover)
  let n := if zero then 0 else t
  openInterval (afterShadows (s5.setF Reg.TCK_STATUS 63 16 n) t c.isSome take) n at_

/-- The step of a CLASP becomes the locked step at its edge (R395, R396). -/
def takeStep (s : State) (c : Sched) : State :=
  if c.stepValid then s.setF Reg.PWR_FLOCK 58 55 c.step else s

/-- The step of a CLASP that came too late for the edge before (R332). -/
def takeLate (s : State) : State := match s.fab.late with
  | some c => takeStep s c
  | none => s

/-- TICK_EDGE: `len` since the last edge, in 10 ns units; what only the environment knows of the record; and the core time that work
under way has used since the last edge (R42 to R45, R47, R50, R329). -/
def execTickEdge (len : Nat) (report : EdgeReport) (s : State) : Out State :=
  .next (
    if !s.edgeDue len then s
    else
      let s := chargeRunning s report.used
      match s.fab.sched with
      | some c => edge (takeStep s c) len c.tick c.edgeTime (some c) report.tel false
      | none => edge (takeLate s) len (s.tickNum + 1) (s.fab.edgeAt + len) none report.tel false)

/-- HOLDOVER_EDGE: a member applies an edge itself and sets HOLDOVER (R328). -/
def execHoldoverEdge (len : Nat) (report : EdgeReport) (s : State) : Out State :=
  .next (
    if !s.holdoverDue len then s
    else
      let s := takeLate (chargeRunning s report.used)
      edge s len (s.tickNum + 1) (s.fab.edgeAt + len) none report.tel true)

/-! ### The end of TRAIN (R71, R74 to R76, R252, R275, R403, R404, R410) -/

/-- The flash slot whose image boots: of those that verify the higher version, on a tie the slot written most recently, slot A
when the record names none (R74). -/
def State.bootSlot (s : State) : Option Nat :=
  let v (i : Nat) : Nat := (imgHeader (s.sec.holSlots.getD i [])).version
  if !s.slotVerifies 0 then (if s.slotVerifies 1 then some 1 else none)
  else if !s.slotVerifies 1 then some 0
  else if v 0 < v 1 then some 1
  else if v 1 < v 0 then some 0
  else some (s.sec.boot.holSlot.getD 0)

/-- Both tiers are zero under class C, and every class entry reads C (R275). -/
def clearTiers (s : State) : State :=
  let cls (o : Nat) : Bool := decide ((0xC00000 ≤ o ∧ o < 0xD00000 ∧ 0x100 ≤ o % 0x4000) ∨ (0xD08000 ≤ o ∧ o < 0xE00000))
  s |>.putMem Mem.empty |>.putRegs (s.regs.filter fun r => !cls r.1)

/-- The units that failed: cores, those of generators that failed their test and those below a failed vault among them,
vaults, channels, ports, awl engines (R76, R252, R280). -/
def recordUnits (s : State) (cores vaults channels ports awl kat : Nat) : State :=
  let bad := cores ||| vaults ||| kat
  let s1 := s.putDev { s.dev with badCores := bad, badVaults := vaults, badPorts := ports }
  let s2 := (s1.setReg Reg.BLK_UNAVAIL (BitVec.ofNat 64 channels)).setF Reg.AWL_STAT 7 4 awl
  let s3 := (maskList 64 kat).foldl (fun s c => s.setF (Reg.RNG_STAT c) 1 1 1) s2
  extend s3 5 (sha256 (Config.unitRecord bad vaults channels ports awl))

/-- The firmware reaches READY or SAFE: the trial is confirmed and the failures are forgotten (R403, R404). -/
def confirmBoot (s : State) : State :=
  let s1 := (s.putSec { s.sec with boot := { s.sec.boot with trial := false, trialUsed := false, fails := 0 } })
  (s1.setF Reg.SEC_STAT 54 54 0).setF Reg.SEC_STAT 31 24 0

/-- The structure TRAIN ends with, and SAFE or READY: SAFE where a unit failed, the BMC asked for it, or no image verifies (R75,
R76, R409). -/
def commitBoot (s : State) (failed : Bool) : State :=
  let safe := failed || s.dev.safeBoot
  let s0 := s.setF Reg.SEC_STAT 52 52 (b2n s.dev.safeBoot)
  match s0.bootSlot with
  | some i =>
    let img := readImage (s0.sec.holSlots.getD i [])
    let s1 := applyLayout s0 (img.layout.getD builtIn) img.header.version img.digest
    let s2 := s1 |>.putSec { s1.sec with bootedHol := some i } |>.putHol { s1.hol with verified := true }
    enterState s2 (if safe then stSafe else stReady)
  | none =>
    let s1 := applyLayout s0 builtIn 0 (zeros 32)
    enterState (s1.putHol { s1.hol with verified := false }) stSafe

/-- TRAIN_COMPLETE: the units that failed training, as masks. The tick starts: this moment is edge 0 (R71). -/
def execTrainComplete (cores vaults channels ports awl kat : Nat) (s : State) : Out State :=
  .next (
    if s.devState ≠ stTrain then s
    else
      let s1 := recordUnits (clearTiers s) cores vaults channels ports awl kat
      let failed := decide ((cores ||| vaults ||| channels ||| ports ||| awl ||| kat) ≠ 0)
      let s2 := confirmBoot (commitBoot s1 failed)
      let s3 := settlePower (settleDomains (applyShadows (s2.putTick { s2.tick with running := true }) s2.inGroup))
      openInterval (grantCores s3) 0 0)

end Sys2Proof.Machine
end

