-- ==== Sys2Proof/Machine/Security.lean ====
section
/-!
DEFINITION. SEC_CMD operations and the SPDM responder (16_boot_and_security.md R405, R413 to R416). Message layouts are
those of DMTF DSP0274 1.2, which the spec names and does not repeat (log entry 7).
-/
namespace Sys2Proof.Machine

/-! ### SEC_CMD (R405) -/

/-- SEC_CMD_STATUS.RESULT codes (Table 16.15). -/
abbrev secOk : Nat := 0
@[inherit_doc secOk] abbrev secState : Nat := 1
@[inherit_doc secOk] abbrev secSlots : Nat := 2
@[inherit_doc secOk] abbrev secRange : Nat := 3
@[inherit_doc secOk] abbrev secFuseFail : Nat := 4
@[inherit_doc secOk] abbrev secBusy : Nat := 5

/-- The check of an operation (Table 16.5): 0 when it may run. The other slot counts only when VALID. -/
def State.secCheck (s : State) (op arg : Nat) : Nat :=
  let other := 1 - s.fldR Reg.SEC_STAT 55 55
  let valid := decide (s.fldR (Reg.SEC_SLOT other) 63 63 = 1)
  if op = 1 then
    if !s.live then secState
    else if s.fldR Reg.SEC_STAT 45 39 < arg then secRange
    else if valid ∧ s.fldR (Reg.SEC_SLOT other) 54 48 < arg then secSlots else secOk
  else if op = 2 then
    if !s.live then secState
    else if arg % 2 = s.fldR Reg.SEC_STAT 46 46 then secRange
    else if valid ∧ s.fldR (Reg.SEC_SLOT other) 62 62 = arg % 2 then secSlots else secOk
  else if s.devState = stSafe then secOk else secState

/-- A SEC_CMD write by the physical function: refused while BUSY, checked, then started (R405). An ADVANCE_SVN at or
below the count is done at once. -/
def secCommand (fn op arg : Nat) (s : State) : State :=
  if fn ≠ 0 ∨ s.devState < 2 then s
  else if s.fldR Reg.SEC_CMD_STATUS 63 63 = 1 then s.setF Reg.SEC_CMD_STATUS 62 60 secBusy
  else
    let s1 := s.setF Reg.SEC_CMD_STATUS 59 56 op
    let c := s.secCheck op arg
    if c ≠ 0 then s1.setF Reg.SEC_CMD_STATUS 62 60 c
    else
      let s2 := s1.setF Reg.SEC_CMD_STATUS 62 60 secOk
      if op = 1 ∧ arg ≤ s.sec.rollback then s2
      else (s2.setF Reg.SEC_CMD_STATUS 63 63 1).putSec { s2.sec with op := some (op, arg) }

/-- ADVANCE_SVN (Table 16.5). -/
def execAdvanceSvn (fn arg : Nat) (s : State) : Out State := .next (secCommand fn 1 arg s)
/-- REVOKE_KEY (Table 16.5). -/
def execRevokeKey (fn arg : Nat) (s : State) : Out State := .next (secCommand fn 2 arg s)
/-- ENROLL_OWNER (Table 16.5). -/
def execEnrollOwner (fn : Nat) (s : State) : Out State := .next (secCommand fn 3 0 s)
/-- CLEAR_OWNER (Table 16.5). -/
def execClearOwner (fn : Nat) (s : State) : Out State := .next (secCommand fn 4 0 s)

/-- The effect of a finished operation on fuses and records (Table 16.5). -/
def secApply (k : Sec) (op arg : Nat) (key : List Byte) : Sec :=
  if op = 1 then { k with rollback := max k.rollback arg }
  else if op = 2 then { k with revoke := k.revoke ||| 2 ^ (arg % 2) }
  else if op = 3 then { k with ownerStored := some key, floorNext := some 0 }
  else { k with ownerStored := none, floorNext := some 0 }

/-- SEC_OP_COMPLETE: the blows or the write are done, or FUSE_FAIL; a failed advance has blown some of its fuses, how
many the spec leaves open (R405). -/
def execSecOpComplete (ok : Bool) (s : State) : Out State :=
  .next (match s.sec.op with
    | none => s
    | some (op, arg) =>
      let key := (List.range 4).flatMap fun w => leBytes 8 (s.reg (Reg.SEC_OWNER_KEY w)).toNat
      let s1 := (s.putSec { s.sec with op := none }).setF Reg.SEC_CMD_STATUS 63 63 0
      if ok then (s1.setF Reg.SEC_CMD_STATUS 62 60 secOk).putSec (secApply s1.sec op arg key)
      else
        let d := draw (s1.setF Reg.SEC_CMD_STATUS 62 60 secFuseFail)
        if op = 1 then
          d.2.putSec { d.2.sec with rollback := s.sec.rollback + d.1 % (arg - s.sec.rollback + 1) }
        else d.2)

/-! ### SPDM (R413 to R416, Table 16.9) -/

/-- Byte i of a request. -/
def rb (req : List Byte) (i : Nat) : Nat := (req.getD i 0).toNat

/-- A byte from a number. -/
def by8 (n : Nat) : Byte := BitVec.ofNat 8 n

/-- Connection b. -/
def State.conn (s : State) (b : Nat) : SpdmConn := s.sec.conns.getD b SpdmConn.none
@[inherit_doc State.conn] def State.setConn (s : State) (b : Nat) (f : SpdmConn → SpdmConn) : State :=
  s.putSec { s.sec with conns := updAt s.sec.conns b f }

/-- The certificate chain of slot 0: the certificate area, then the alias certificate (R413). -/
def State.certChain (s : State) : List Byte := match s.sec.certArea with
  | some a => a ++ s.sec.aliasCert
  | none => []

/-- The responder answers: every powered state once the firmware runs, FAULT included (R414). -/
def State.spdmReady (s : State) : Bool := decide (2 ≤ s.devState) && (s.dev.fwRunning || decide (s.devState = stFault))

/-- SPDM ERROR codes used. -/
abbrev spdmInvalid : Nat := 0x01
@[inherit_doc spdmInvalid] abbrev spdmBusy : Nat := 0x03
@[inherit_doc spdmInvalid] abbrev spdmUnexpected : Nat := 0x04
@[inherit_doc spdmInvalid] abbrev spdmUnsupported : Nat := 0x07
@[inherit_doc spdmInvalid] abbrev spdmLarge : Nat := 0x0F

/-- Send a response, adding request and response to the transcript; one above DataTransferSize is left for CHUNK_GET
behind an ERROR LargeResponse (Table 16.9). -/
def spdmSend (s : State) (b : Nat) (msg : List Byte) : State :=
  if msg.length ≤ 4096 then respond s (.spdm msg)
  else respond (s.setConn b fun c => { c with chunkOut := some (1, msg) }) (.spdm [0x12, 0x7F, by8 spdmLarge, 0, 1])

/-- Answer a request at a connection stage: Busy before the firmware runs, UnexpectedRequest before its turn (R414). -/
def spdmAnswer (s : State) (b need : Nat) (f : State → State) : State :=
  if s.devState = stOff ∨ 2 ≤ b then s
  else if !s.spdmReady then respond s (.spdmError spdmBusy)
  else if (s.conn b).stage < need then respond s (.spdmError spdmUnexpected)
  else f s

/-- Add to the transcript of a connection. -/
def addTranscript (s : State) (b : Nat) (bs : List Byte) : State :=
  s.setConn b fun c => { c with transcript := c.transcript ++ bs }

/-- GET_VERSION: version 1.2 only; the connection starts anew (R415). -/
def spdmVersion (b : Nat) (req : List Byte) (s : State) : State :=
  let rsp : List Byte := [0x10, 0x04, 0, 0, 0, 1, 0x00, 0x12]
  spdmSend (s.setConn b fun _ => { SpdmConn.none with stage := 1, transcript := req ++ rsp }) b rsp

/-- GET_CAPABILITIES: CERT, CHAL, MEAS signed, CHUNK; CTExponent 14; 4,096 and 65,536 B (Table 16.9). -/
def spdmCapabilities (b : Nat) (req : List Byte) (s : State) : State :=
  let rsp : List Byte := [0x12, 0x61, 0, 0, 0, 14, 0, 0] ++ leBytes 4 0x20016 ++ leBytes 4 4096 ++ leBytes 4 65536
  spdmSend (addTranscript (s.setConn b fun c => { c with stage := max c.stage 2 }) b (req ++ rsp)) b rsp

/-- NEGOTIATE_ALGORITHMS: SHA-256, no base asymmetric algorithm, one extended one, 0x04 / 0x0180 (Table 16.9). -/
def spdmAlgorithms (b : Nat) (req : List Byte) (s : State) : State :=
  let rsp : List Byte := [0x12, 0x63, 0, 0, 40, 0, 1, 0] ++ leBytes 4 2 ++ leBytes 4 0 ++ leBytes 4 1 ++ zeros 12 ++
    [1, 0, 0, 0, 0x04, 0, 0x80, 0x01]
  spdmSend (addTranscript (s.setConn b fun c => { c with stage := max c.stage 3 }) b (req ++ rsp)) b rsp

/-- GET_DIGESTS: the digest of the slot 0 chain; slot 0 unprovisioned when the certificate area does not verify (R413). -/
def spdmDigests (b : Nat) (req : List Byte) (s : State) : State :=
  let rsp : List Byte := if s.sec.certArea.isNone then [0x12, 0x01, 0, 0] else [0x12, 0x01, 0, 1] ++ sha256 s.certChain
  spdmSend (addTranscript s b (req ++ rsp)) b rsp

/-- GET_CERTIFICATE: the part of the chain asked for, at most 4,088 B at a time. -/
def spdmCertificate (b : Nat) (req : List Byte) (s : State) : State :=
  let off := rb req 4 + 256 * rb req 5
  let len := rb req 6 + 256 * rb req 7
  if rb req 2 % 16 ≠ 0 ∨ s.sec.certArea.isNone ∨ s.certChain.length ≤ off then respond s (.spdmError spdmInvalid)
  else
    let part := (s.certChain.drop off).take (min len 4088)
    let left := s.certChain.length - off - part.length
    let rsp := [0x12, 0x02, 0, 0] ++ leBytes 2 part.length ++ leBytes 2 left ++ part
    spdmSend (addTranscript s b (req ++ rsp)) b rsp

/-- One DMTF measurement block of index k (1 to 6): 39 bytes (Tables 16.8, 16.9). -/
def State.measBlock (s : State) (k : Nat) : List Byte :=
  let ty := [0x00, 0x01, 0x07, 0x03, 0x02, 0x04].getD (k - 1) 0
  [by8 k, 1, 35, 0, by8 ty, 32, 0] ++ s.meas (k - 1)

/-- The deterministic signature over the combined prefix and the SHA-256 of the transcript (Table 16.9). -/
def State.spdmSign (s : State) (kind : Nat) (transcript : List Byte) : List Byte :=
  Config.slhSign s.sec.aliasSeeds (Config.spdmPrefix kind ++ sha256 transcript)

/-- CHALLENGE: CHALLENGE_AUTH with the chain's hash, a nonce, the measurement summary if asked, and the signature. -/
def spdmChallenge (b : Nat) (req : List Byte) (s : State) : State :=
  if rb req 2 ≠ 0 ∨ s.sec.certArea.isNone then respond s (.spdmError spdmInvalid)
  else
    let nonce := (Config.nonce s.free).take 32
    let summary := if rb req 3 = 0 then [] else sha256 ((List.range 6).flatMap fun i => s.measBlock (i + 1))
    let body := [0x12, 0x03, 0, 1] ++ sha256 s.certChain ++ nonce ++ summary ++ [0, 0]
    let rsp := body ++ s.spdmSign 0 ((s.conn b).transcript ++ req ++ body)
    spdmSend (s.putFree (s.free + 1)) b rsp

/-- GET_MEASUREMENTS: the count (0), one block, or all six (0xFF), signed when asked (R416, Table 16.9). -/
def spdmMeasurements (b : Nat) (req : List Byte) (s : State) : State :=
  let op := rb req 3
  let blocks := if op = 0 then [] else if op = 0xFF then [1, 2, 3, 4, 5, 6] else if op ≤ 6 then [op] else []
  if 6 < op ∧ op ≠ 0xFF then respond s (.spdmError spdmInvalid)
  else
    let record := blocks.flatMap s.measBlock
    let nonce := (Config.nonce s.free).take 32
    let body := [0x12, 0x60, by8 (if op = 0 then 6 else 0), 0, by8 blocks.length] ++ leBytes 3 record.length ++ record ++ nonce ++ [0, 0]
    let tr := (s.conn b).measTranscript ++ req ++ body
    let signed := decide (rb req 2 % 2 = 1)
    let rsp := if signed then body ++ s.spdmSign 1 tr else body
    let s1 := s.putFree (s.free + 1)
    spdmSend (s1.setConn b fun c => { c with measTranscript := if signed then [] else tr }) b rsp

/-- CHUNK_GET: one chunk of the large response, in order (Table 16.9). -/
def spdmChunkGet (b : Nat) (req : List Byte) (s : State) : State :=
  let seq := rb req 4 + 256 * rb req 5
  match (s.conn b).chunkOut with
  | none => respond s (.spdmError spdmUnexpected)
  | some (h, msg) =>
    let first := 4096 - 16
    let off := if seq = 0 then 0 else first + (seq - 1) * (4096 - 12)
    let data := (msg.drop off).take (if seq = 0 then first else 4096 - 12)
    if rb req 3 ≠ h ∨ msg.length ≤ off then respond s (.spdmError spdmInvalid)
    else
      let last := decide (msg.length ≤ off + data.length)
      let rsp := [0x12, 0x06, by8 (b2n last), by8 h] ++ leBytes 2 seq ++ [0, 0] ++ leBytes 4 data.length ++
        (if seq = 0 then leBytes 4 msg.length else []) ++ data
      respond (s.setConn b fun c => { c with chunkOut := if last then none else c.chunkOut }) (.spdm rsp)

/-- Answer a request by its code; any other is not supported (R415, Table 16.9). -/
def spdmByCode (b : Nat) (req : List Byte) (s : State) : State := match rb req 1 with
  | 0x84 => spdmAnswer s b 0 (spdmVersion b req)
  | 0xE1 => spdmAnswer s b 1 (spdmCapabilities b req)
  | 0xE3 => spdmAnswer s b 2 (spdmAlgorithms b req)
  | 0x81 => spdmAnswer s b 3 (spdmDigests b req)
  | 0x82 => spdmAnswer s b 3 (spdmCertificate b req)
  | 0x83 => spdmAnswer s b 3 (spdmChallenge b req)
  | 0xE0 => spdmAnswer s b 3 (spdmMeasurements b req)
  | _ => respond s (.spdmError spdmUnsupported)

/-- The bytes of the latest SPDM answer: a message, or an ERROR. -/
def spdmBytes : Resp → List Byte
  | .spdm m => m
  | .spdmError c => [0x12, 0x7F, by8 c, 0]
  | _ => []

/-- CHUNK_SEND: one chunk of a large request is received; chunks must come in order, and the acknowledgement of the last carries the
answer to the whole (Table 16.9). -/
def spdmChunkSend (b : Nat) (req : List Byte) (s : State) : State :=
  let seq := rb req 4 + 256 * rb req 5
  let size := leNat ((req.drop 8).take 4)
  let data := (req.drop (if seq = 0 then 16 else 12)).take size
  let prev := match (s.conn b).chunkIn with
    | some (_, n, bs) => (n, bs)
    | none => (0, [])
  if seq ≠ 0 ∧ seq ≠ prev.1 then respond s (.spdmError spdmInvalid)
  else
    let bs := (if seq = 0 then [] else prev.2) ++ data
    let ack := [0x12, 0x05, 0, by8 (rb req 3)] ++ leBytes 2 seq
    if rb req 2 % 2 = 0 then respond (s.setConn b fun c => { c with chunkIn := some (rb req 3, seq + 1, bs) }) (.spdm ack)
    else
      let t := spdmByCode b bs (s.setConn b fun c => { c with chunkIn := none })
      respond t (.spdm (ack ++ spdmBytes t.out.resp))

/-- GET_VERSION (R414, R415). -/
def execGetVersion (b : Nat) (req : List Byte) (s : State) : Out State := .next (spdmAnswer s b 0 (spdmVersion b req))
/-- GET_CAPABILITIES (R414, R415). -/
def execGetCapabilities (b : Nat) (req : List Byte) (s : State) : Out State :=
  .next (spdmAnswer s b 1 (spdmCapabilities b req))
/-- NEGOTIATE_ALGORITHMS (R414, R415). -/
def execNegotiateAlgorithms (b : Nat) (req : List Byte) (s : State) : Out State :=
  .next (spdmAnswer s b 2 (spdmAlgorithms b req))
/-- GET_DIGESTS (R413 to R415). -/
def execGetDigests (b : Nat) (req : List Byte) (s : State) : Out State := .next (spdmAnswer s b 3 (spdmDigests b req))
/-- GET_CERTIFICATE (R413 to R415). -/
def execGetCertificate (b : Nat) (req : List Byte) (s : State) : Out State :=
  .next (spdmAnswer s b 3 (spdmCertificate b req))
/-- CHALLENGE (R414 to R416). -/
def execChallenge (b : Nat) (req : List Byte) (s : State) : Out State := .next (spdmAnswer s b 3 (spdmChallenge b req))
/-- GET_MEASUREMENTS (R414 to R416). -/
def execGetMeasurements (b : Nat) (req : List Byte) (s : State) : Out State :=
  .next (spdmAnswer s b 3 (spdmMeasurements b req))
/-- CHUNK_SEND (R414, R415). -/
def execChunkSend (b : Nat) (req : List Byte) (s : State) : Out State := .next (spdmAnswer s b 3 (spdmChunkSend b req))
/-- CHUNK_GET (R414, R415). -/
def execChunkGet (b : Nat) (req : List Byte) (s : State) : Out State := .next (spdmAnswer s b 3 (spdmChunkGet b req))
/-- RESPOND_IF_READY: no response is ever deferred (CTExponent 14), so there is none to return (Table 16.9). -/
def execRespondIfReady (b : Nat) (req : List Byte) (s : State) : Out State :=
  .next (spdmAnswer s b 3 fun s => respond s (if req = [] then .spdmError spdmInvalid else .spdmError spdmUnexpected))
/-- SPDM_UNSUPPORTED_REQUEST: UnsupportedRequest, or Busy before the firmware runs (R414, R415). -/
def execSpdmUnsupportedRequest (b : Nat) (_req : List Byte) (s : State) : Out State :=
  .next (spdmAnswer s b 0 fun s => respond s (.spdmError spdmUnsupported))

end Sys2Proof.Machine
end

