-- ==== Sys2Proof/Machine/RegWrites.lean ====
section
/-!
DEFINITION. The registers as a function sees them: what a read returns (R7, R8, R12, R408, R436, R437), what a write does,
and the commands that write registers, configuration space and MSI-X tables (R10, R93, R94, R102, R304, R434 to R438).
-/
namespace Sys2Proof.Machine

/-! ### Reads (R8, R408, R436, R437) -/

/-- The claim an array over core c holds, with its entry. -/
def State.claimOn (s : State) (c : Nat) : Option (Entry × Claim) :=
  s.flight.findSome? fun e => (e.run.claims.find? fun k =>
    decide (k.array < 64) && (arrayCores (s.part e.part).frag.gang k.array).contains c).map fun k => (e, k)

/-- The scan engine of core c has a sweep to run: of a started stage, every gate value and the seam it needs there (Table 7.10). -/
def State.scanBusy (s : State) (c : Nat) : Bool := s.flight.any fun e =>
  e.run.started && !e.done && decide (e.desc.op = opcScan) && (match stageProd s e e.desc with
    | .error _ => false
    | .ok p => ((List.range e.pkt.count).flatMap fun i => (List.range (scChunks e e.desc)).map fun j => (i, j)).any fun x =>
      decide (scEngine s e e.desc x.1 x.2 = c) && (match sweepDue s e e.desc p x.1 x.2 with
        | .ok (some _) => true
        | _ => false))

/-- The generator of core c produces blocks: the core holds an item of a stage that draws random words (Table 10.8). -/
def State.drawBusy (s : State) (c : Nat) : Bool := match s.claimOn c with
  | some (e, _) => decide (subkeys e e.desc ≠ 0)
  | none => false

/-- Core c holds an item of a stage of opcode op. -/
def State.coreRuns (s : State) (c op : Nat) : Bool := match s.claimOn c with
  | some (e, _) => decide (e.desc.op = op)
  | none => false

/-- SEQ_STAT of core c (Table 5.9). -/
def seqStat (s : State) (c : Nat) : Word :=
  let pend := b2n (s.shadowed (Reg.SEQ_CFG c)) * 2 ^ 63
  BitVec.ofNat 64 (match s.claimOn c with
    | some (e, k) => pend + 2 ^ 62 + e.stage % 16 * 2 ^ 58 + k.item % 2 ^ 24 * 2 ^ 32 + e.ring % 2 ^ 18 * 2 ^ 14
    | none => pend)

/-- LPE_STAT of core c (Table 6.9). -/
def lpeStat (s : State) (c : Nat) : Word :=
  let l := s.retainedOf c
  BitVec.ofNat 64 (b2n (s.shadowed (Reg.LPE_CFG c)) * 2 ^ 63 + put l.length 5 16 +
    put (ceilDiv (l.foldl (fun n r => n + r.len) 0) 1024) 10 0)

/-- CTX_STAT of context n (Table 14.16). -/
def ctxStat (s : State) (n : Nat) : Word :=
  let c := s.ctx n
  BitVec.ofNat 64 (c.state % 8 * 2 ^ 61 + c.cause % 32 * 2 ^ 56 +
    put (s.slots.filter fun x => decide (x.ctx = n ∧ x.kind ≠ 2)).length 16 40 +
    put ((s.ctxFlight n).filter (·.held.isSome)).length 16 24 + put c.restoreParked 16 8)

/-- CTX_PART_STAT of partition p (Table 14.13). -/
def partStat (s : State) (p : Nat) : Word :=
  let granted (m : Nat) : Nat := ((s.part p).cores.filter m.testBit).length
  BitVec.ofNat 64 (put (granted s.tick.lcCores) 7 57 + put (granted s.tick.beCores) 7 50 + put (s.partCtxs p).length 13 37 +
    put (s.unitsFree p) 16 16 + put (s.unitsTotal p) 16 0)

/-- A frame of vault v is being cleared; of the bulk tier. -/
def State.vaultClearing (s : State) (v : Nat) : Bool := s.mem.clearing.any fun f => decide (frameAddr f / vaultSize = v)
@[inherit_doc State.vaultClearing] def State.bulkClearing (s : State) : Bool := s.mem.clearing.any fun f => isBulk (frameAddr f)

/-- Bulk channels that are unavailable (Table 11.14, R280). -/
def State.chanBad (s : State) : Nat := listMask ((List.range 64).filter fun c => !s.chanOk c)

/-- Awl engines that hold an item; those that are unavailable (Table 9.6, R248). -/
def State.awlBusy (s : State) : Nat :=
  listMask ((List.range 4).filter fun i => s.flight.any fun e => e.run.claims.any fun k => decide (k.array = 64 + i))
@[inherit_doc State.awlBusy] def State.awlBad (s : State) : Nat := if s.domReady 25 then s.fldR Reg.AWL_STAT 7 4 else 15

/-- The words of the error log window, entry i word j (R424). -/
def State.logWord (s : State) (i j : Nat) : Word := match s.logView.find? fun e => decide (e.slot = i) with
  | some e => if j = 0 then e.w0 else if j = 1 then e.w1 else if j = 2 then e.w2 else e.w3
  | none => 0

/-- Set field [hi:lo] of a word where it is formed at the read. -/
def with1 (w : Word) (b : Nat) (on : Bool) : Word := setFld w b b (b2n on)

/-- The register at a BAR0 offset as it reads through the physical function: the stored value, with the fields that show the
part's state formed at the read (R8, R11). -/
def State.readPf (s : State) (off : Nat) : Word :=
  let w := s.reg off
  match findReg off with
  | none => if 0x1900000 ≤ off ∧ off < 0x1A00000 then
      BitVec.ofNat 64 (leNat ((List.range 8).map fun k => spGet 0 s.hol.window (off - 0x1900000 + k))) else 0
  | some (r, i, j) =>
    if r.name = "TCK_STATUS" then with1 w 15 (s.pendingIn 0x100000 0x200000)
    else if r.name = "CTX_CMD_STATUS" then with1 w 62 (s.pendingIn 0x400000 0x800000)
    else if r.name = "CTX_PART_STAT" then partStat s j
    else if r.name = "CTX_CFG" then
      (if s.ctxState j = 0 then w else setFld (setFld w 60 56 (s.ctxFn j)) 55 52 (s.ctxPart j))
    else if r.name = "CTX_STAT" then ctxStat s j
    else if r.name = "SEQ_STAT" then seqStat s j
    else if r.name = "LPE_STAT" then lpeStat s j
    else if r.name = "SCN_STAT" then with1 w 63 (s.scanBusy j)
    else if r.name = "RNG_STAT" then with1 w 0 (s.drawBusy j)
    else if r.name = "UPD_STAT" then with1 w 0 (s.coreRuns j opcUpdate)
    else if r.name = "MEM_STAT" then with1 (with1 w 52 (!s.vaultOk j)) 51 (s.vaultClearing j)
    else if r.name = "BLK_STAT" then with1 w 51 s.bulkClearing
    else if r.name = "BLK_UNAVAIL" then BitVec.ofNat 64 s.chanBad
    else if r.name = "MIG_STAT" then with1 (with1 w 63 (decide (s.mig.inval ≠ []))) 61 (s.pendingIn 0xE00000 0xF00000)
    else if r.name = "KV_STAT" then
      with1 (with1 (setFld w 15 3 s.kv.slots.length) 1 s.poolWait) 0 (s.pendingIn 0xF00000 0x1000000)
    else if r.name = "AWL_STAT" then
      with1 (setFld (setFld w 7 4 s.awlBad) 3 0 s.awlBusy) 12 (s.shadowed Reg.AWL_CFG)
    else if r.name = "CLX_STAT" then with1 w 63 (s.shadowed Reg.CLX_CFG)
    else if r.name = "CLX_COLL_STAT" then setFld w 12 0 (ceilDiv s.storeBytes 1024)
    else if r.name = "PWR_STAT" then with1 w 61 (s.pendingIn 0x1300000 0x1400000)
    else if r.name = "PWR_DOMAIN" then w ||| 0xF
    else if r.name = "THM_STAT" then with1 w 11 (s.shadowed Reg.THM_CFG)
    else if r.name = "TEL_STAT" then with1 w 63 (s.shadowed Reg.TEL_CFG)
    else if r.name = "MGT_STAT" then setFld w 15 0 (min 65535 (s.mgt.erases.foldl max 0 / 16))
    else if r.name = "MGT_AGE" then with1 (setFld w 3 0 (s.mgt.trims.getD j 0)) 63 (decide (10 ≤ s.mgt.trims.getD j 0))
    else if r.name = "MGT_LOG_STAT" then
      setFld (setFld w 41 32 ((s.logView.head?.map (·.slot)).getD 0)) 10 0 s.logView.length
    else if r.name = "MGT_LOG" then s.logWord i j
    else w

/-- The partition that owns quad group g: every quad of the group is its own. -/
def State.partOfGroup (s : State) (g : Nat) : Option Nat :=
  let l := s.groupQuads g
  match l.head? with
  | none => none
  | some q => match s.hol.cur.partOfCore (quadBase q) with
    | some p => if l.all fun q => decide (s.hol.cur.partOfCore (quadBase q) = some p) then some p else none
    | none => none

/-- The partition an array entry belongs to, where its index names one (R437). -/
def State.entryPart (s : State) (r : RegDef) (i j : Nat) : Option Nat :=
  match r.own with
  | .ctx => if s.ctxState j = 0 then none else some (s.ctxPart j)
  | .part | .pfPart => if (s.part j).defined then some j else none
  | .partNested => if (s.part i).defined then some i else none
  | .core => s.hol.cur.partOfCore j
  | .vault | .pfVault => s.hol.cur.partOfCore j
  | .vaultNested => s.hol.cur.partOfCore i
  | .bulkFrame => s.hol.cur.sliceOf (bulkBase + j * 2 ^ 26)
  | .pfQuad => s.partOfGroup j
  | .quad => if r.name = "MGT_AGE" then s.partOfGroup j else s.hol.cur.partOfCore (quadBase j)
  | .pfGroup => if (s.group j).valid then some (s.group j).part else none
  | .pfPort | .ro | .pf | .any => none

/-- The registers that are indexed as R437 lists. -/
def RegDef.indexed (r : RegDef) : Bool := !([Own.ro, .pf, .any].contains r.own)

/-- A function sees the register: the physical function every one, a virtual function the entries of its own partition and
what is not indexed (R437). -/
def State.sees (s : State) (fn : Nat) (r : RegDef) (i j : Nat) : Bool :=
  decide (fn = 0) || !r.indexed || match s.entryPart r i j with
    | some p => decide (s.hol.cur.partOfFn fn = some p)
    | none => false

/-- BAR0 offsets reachable now: GLB and SEC from BOOT on, every block in READY, RUN and SAFE (R408). -/
def State.reachable (s : State) (off : Nat) : Bool :=
  if off < 0x100000 ∨ (0x1500000 ≤ off ∧ off < 0x1600000) then decide (2 ≤ s.devState) else s.live

/-- What a read of a register returns to a function (R408, R436, R437). -/
def State.readReg (s : State) (fn off : Nat) : Word :=
  if !s.reachable off then 0
  else match findReg off with
    | some (r, i, j) => if s.sees fn r i j then s.readPf off else 0
    | none => if fn = 0 then s.readPf off else 0

/-! ### Writes (R8, R12, R436) -/

/-- The fields of a register that a write of this size and offset covers whole (R436). -/
def RegDef.covered (r : RegDef) (off size : Nat) : List FieldDef :=
  r.fields.filter fun f => decide (size = 8) || (if off % 8 = 4 then decide (32 ≤ f.lo) else decide (f.hi < 32))

/-- Bits of the fields of one access type among some. -/
def bitsOf (l : List FieldDef) (a : Acc) : Word := l.foldl (fun m f => if f.acc = a then m ||| maskOf f.hi f.lo else m) 0

/-- A written value in the register's own bits. -/
def placed (off size : Nat) (v : Word) : Word :=
  if size = 8 then v else if off % 8 = 4 then BitVec.ofNat 64 (v.toNat % 2 ^ 32 * 2 ^ 32) else BitVec.ofNat 64 (v.toNat % 2 ^ 32)

/-- The register after a write by its fields' access types: RW, RWT and RWK fields take the value, W1C bits written 1 clear, W1S
bits set, RO and WO fields stay (R8). -/
def written (l : List FieldDef) (old v : Word) : Word :=
  let take := bitsOf l .rw ||| bitsOf l .rwt ||| bitsOf l .rwk
  (((old &&& ~~~take) ||| (v &&& take)) &&& ~~~(v &&& bitsOf l .w1c)) ||| (v &&& bitsOf l .w1s)

/-- A function may write the register: the ownership rule of its block. -/
def State.mayWrite (s : State) (fn : Nat) (r : RegDef) (i j : Nat) : Bool :=
  s.fnOn fn && match r.own with
    | .ro | .quad => false
    | .any => true
    | .ctx => s.mayAct fn j
    | .part | .partNested | .core | .vault | .vaultNested | .bulkFrame =>
      decide (fn = 0) || (match s.entryPart r i j with
        | some p => decide (s.hol.cur.partOfFn fn = some p)
        | none => false)
    | .pf | .pfPart | .pfVault | .pfPort | .pfGroup | .pfQuad => decide (fn = 0)

/-- The scope of a split write of a packed register: that of its owner; of a register every function uses, that of the writer
(R12). -/
def State.splitScope (s : State) (fn : Nat) (r : RegDef) (j : Nat) : Scope := match r.own with
  | .ctx => .ctx j
  | .part => .part j
  | .any => if fn = 0 then .device else match s.hol.cur.partOfFn fn with
    | some p => .part p
    | none => .device
  | _ => .device

/-- The state a meaning answers, s itself where it stops. -/
def after (s : State) (o : Out State) : State := match o with
  | .next t => t
  | _ => s

/-- Address registers of a context (Table 14.7). -/
def isAddressReg (name : String) : Bool := ["CTX_PT_ROOT", "CTX_SPILL", "CTX_SAVE", "CTX_STATE_TBL", "CTX_KEY_TBL"].contains name

/-- A stage that has started names ring-attention ring k. -/
def State.kvRingUsed (s : State) (k : Nat) : Bool := s.flight.any fun e =>
  e.run.started && !e.done && decide (e.desc.op = opcAttn ∧ e.desc.atRing = k + 1)

/-- Read the member list of group g as VALID is set: SIZE 16-bit IDs in class C memory of its partition (R338). -/
def loadGroup (s : State) (g : Nat) : State :=
  let x := s.group g
  let pa := s.fldR (Reg.CLX_GROUP_MAP g) 47 3 * 8
  let ok (a : Nat) : Bool := decide (s.hol.cur.ownerOf a = some x.part) && s.physOk a && decide (s.classOf a = 0)
  let bs := s.phys pa (2 * x.size)
  let ids := (List.range x.size).map fun i => leNat ((bs.drop (2 * i)).take 2)
  let s1 := s.setFab fun f => { f with groups := f.groups.filter (fun y => decide (y.1 ≠ g)) ++ [(g, ids)] }
  let bad := !ok pa || !ok (pa + 2 * x.size - 1) || (s.badUnit pa (2 * x.size)).isSome || decide (x.size ≤ x.rank) ||
    decide (ids.getD x.rank 65536 ≠ s.devId)
  if bad then unpredictable s1 (.part x.part) else s1

/-- What a write to a group table entry does besides (R338, R339). -/
def groupWritten (s0 s : State) (g : Nat) : State :=
  let was := (s0.group g).valid
  let used := s0.flight.any fun e => decide (e.pkt.op = opcCollective) && !e.done && decide ((collOf e.pkt).group = g)
  let s1 := if !(s.group g).valid then s.setFab fun f => { f with groups := f.groups.filter fun y => decide (y.1 ≠ g) }
    else if was then s else loadGroup s g
  if used then unpredictable s1 (.part (s0.group g).part) else s1

/-- What the spec says follows a write besides the fields' own change. -/
def afterWrite (s0 s : State) (r : RegDef) (i j : Nat) : State :=
  if isAddressReg r.name then
    let s1 := if r.name = "CTX_PT_ROOT" ∧ s.reg (Reg.CTX_PT_ROOT j) ≠ s0.reg (Reg.CTX_PT_ROOT j)
      then dropWhere s fun x => decide (x.ctx = j) else s
    if s0.ctxFlight j ≠ [] then unpredictable s1 (.ctx j) else s1
  else if r.name = "RING_RET_BASE" then
    (if s0.fldR (Reg.RING_RET_CFG j) 63 63 = 1 ∧ s.reg (Reg.RING_RET_BASE j) ≠ s0.reg (Reg.RING_RET_BASE j) then
      unpredictable s (.ctx j) else s)
  else if r.name = "RING_RET_CFG" then
    (if s0.fldR (Reg.RING_RET_CFG j) 63 63 = 1 ∧ s.fldR (Reg.RING_RET_CFG j) 62 59 ≠ s0.fldR (Reg.RING_RET_CFG j) 62 59 then
      unpredictable s (.ctx j) else purgeRecords s j)
  else if r.name = "MIG_STACK" then (if s0.stackLen i j ≠ 0 then unpredictable s (.part i) else s)
  else if r.name = "KV_RING" then (if s0.kvRingUsed j then unpredictable s .device else s)
  else if r.name = "CLX_GROUP_CFG" ∨ r.name = "CLX_GROUP_MAP" then groupWritten s0 s j
  else if r.name = "PLK_CTL" then
    (if s.fldR (Reg.PLK_CTL j) 63 63 = 0 ∧ s.fldR (Reg.PLK_STAT j) 63 62 ≠ 0 then loseSilent (linkFall s j) else s)
  else if r.name = "FI_CTL" then
    (if s0.fldR Reg.FI_CTL 0 0 = 0 ∧ s.fldR Reg.FI_CTL 0 0 = 1 then s.setFab fun f => { f with seen := List.replicate 16 0 } else s)
  else if r.name = "PWR_CFG" then
    s.setF Reg.PWR_STAT 55 55 (b2n (decide (min 2 (s.fldR Reg.PWR_CFG 63 62) ≠ s.fldR Reg.PWR_STAT 49 48)))
  else if r.name = "PWR_DOMAIN" then settleDisagree s
  else s

/-- A write to a register that acts as a command (WO fields), or whose fields have effects of their own: `v` is the register as
it would then read, WO fields as written. -/
def commandWrite (s : State) (fn : Nat) (r : RegDef) (i j : Nat) (v : Word) : Option State :=
  if r.name = "GLB_STATE_REQ" then
    some (if fld v 2 0 = 4 then after s (execStateReqReady fn s) else if fld v 2 0 = 6 then after s (execStateReqSafe fn s)
      else s.setF Reg.GLB_STATE 8 8 1)
  else if r.name = "GLB_COMMIT" then some s
  else if r.name = "RING_CTL" then
    some (if fld v 63 60 = 1 then after s (execRingOpen fn (fld v 17 0) (fld v 58 40) s)
      else if fld v 63 60 = 2 then after s (execRingClose fn (fld v 17 0) (fld v 58 40) s) else s)
  else if r.name = "CTX_CMD" then
    let op := fld v 63 60
    let n := fld v 55 44
    some (if op = 1 then after s (execCtxOpen fn (fld v 59 56) n (fld v 43 25) (fld v 17 0) s)
      else if op = 2 then after s (execCtxClose fn n s)
      else if op = 3 then after s (execCtxSave fn n (decide (fld v 24 24 = 1)) s)
      else if op = 4 then after s (execCtxRestore fn n s)
      else if op = 5 then after s (execCtxTeardown fn n s) else s)
  else if r.name = "MEM_MARGIN" then some (after s (execMemMarginStart fn j v s))
  else if r.name = "BLK_MARGIN" then some (after s (execBlkMarginStart fn v s))
  else if r.name = "PLK_MARGIN" then some (after s (execPlkMarginStart fn j v s))
  else if r.name = "MEM_CLASS" then some (after s (execMemClassWrite fn i j v s))
  else if r.name = "BLK_CLASS" then some (after s (execBlkClassWrite fn j v s))
  else if r.name = "MIG_INVAL" then some (after s (execMigInval fn v s))
  else if r.name = "MIG_PUSH" then some (after s (execMigPush fn j v s))
  else if r.name = "KV_CTX_CFG" then some (after s (execKvCtxCfgWrite fn j v s))
  else if r.name = "CLX_ID" then some (after s (execClxIdWrite fn v s))
  else if r.name = "SEC_CMD" then
    let op := fld v 63 60
    some (if 1 ≤ op ∧ op ≤ 4 then secCommand fn op (fld v 6 0) s else s)
  else if r.name = "MGT_LOG_STAT" then some (if fld v 63 63 = 1 then after s (execMgtLogClear fn s) else s)
  else if r.name = "HOL_CMD" then
    let op := fld v 7 0
    some (if op = 1 then after s (execHolVerify fn s) else if op = 2 then after s (execHolCommit fn s)
      else if op = 3 then after s (execHolDiscard fn s) else if op = 4 then after s (execHolStore fn s) else s)
  else none

/-- A write to an existing register by a function that may write it; one that covers no field changes nothing (R7, R436). -/
def regWrite (s : State) (fn : Nat) (r : RegDef) (i j off size : Nat) (value : Word) : State :=
  let o := off / 8 * 8
  let l := r.covered off size
  let v := placed off size value
  let split := r.packed && decide (size = 4)
  let new := written l (s.reg o) v
  let s1 := match commandWrite s fn r i j (new ||| (v &&& bitsOf l .wo)) with
    | some t => if split then s else t
    | none =>
      let t := afterWrite s (s.setReg o new) r i j
      if r.name = "PLK_CTL" ∧ fld (v &&& bitsOf l .wo) 62 62 = 1 then after t (execPlkRetrain fn j t) else t
  if l = [] then s else if split then unpredictable s1 (s.splitScope fn r j) else s1

/-- A write of 4 or 8 bytes anywhere in BAR0 (R408, R436): naturally aligned or dropped and logged; reserved offsets, blocks
out of reach and registers of others are not written. -/
def busWrite (s : State) (fn off size : Nat) (value : Word) : State :=
  if s.devState < 2 then s
  else if !(decide (size = 4 ∨ size = 8) && decide (off % size = 0)) then logAer s (.unsupportedRequest fn off)
  else if 0x1900000 ≤ off ∧ off < 0x1A00000 then
    after s (execHolStageWrite fn (off - 0x1900000) (leBytes size value.toNat) s)
  else match findReg (off / 8 * 8) with
    | some (r, i, j) => if s.reachable off && s.mayWrite fn r i j then regWrite s fn r i j off size value else s
    | none => s

/-! ### The commands -/

/-- REGISTER_WRITE (R8, R9, R12, R102, R304, R408, R436, R437). -/
def execRegisterWrite (fn off size : Nat) (value : Word) (s : State) : Out State := .next (busWrite s fn off size value)

/-- CONFIG: count register writes in payload order, as if the ring's owning function had written over PCIe (R93). -/
def execConfig (id : Nat) (s : State) : Out State :=
  .next (match s.ready? id opcConfig with
    | none => s
    | some e =>
      let fn := s.ctxFn e.ctx
      let bs := e.pkt.payload
      if bs.length < 16 * e.pkt.count then unpredCommand s id
      else
        let s1 := (List.range e.pkt.count).foldl (fun s k =>
          busWrite s fn (wordAt bs (2 * k)).toNat 8 (wordAt bs (2 * k + 1))) s
        finishControl s s1 id { status := 0 })

/-- COMMIT: the part has no RWK field, so it captures nothing, and completes OK (R94, R438). -/
def execCommit (id : Nat) (s : State) : Out State :=
  .next (match s.ready? id opcCommit with
    | none => s
    | some _ => finishControl s s id { status := 0 })

/-- GLB_COMMIT_WRITE: captures nothing and changes no pending bit (R438). -/
def execGlbCommitWrite (_fn _mask : Nat) (s : State) : Out State := .next s

/-! ### MSI-X tables and configuration space (R357, R433 to R435) -/

/-- Send what a function's vectors have pending and may now send. -/
def sendPending (s : State) (fn : Nat) : State :=
  ((s.msix.filter fun x => decide (x.1 / 2048 = fn) && x.2.pend).map (·.1 % 2048)).foldl (fun s v =>
    if s.msixOpen fn v then signalMsi (s.setMsix fn v { s.msixAt fn v with pend := false }) fn v else s) s

/-- A 4-byte part of an MSI-X table entry. -/
def msixDword (e : MsixEntry) (k v : Nat) : MsixEntry :=
  if k = 0 then { e with addr := e.addr / 2 ^ 32 * 2 ^ 32 + v / 4 * 4 }
  else if k = 1 then { e with addr := v * 2 ^ 32 + e.addr % 2 ^ 32 }
  else if k = 2 then { e with data := v }
  else { e with mask := v.testBit 0 }

/-- MSI_X_TABLE_WRITE at an offset of the function's own table: aligned 4- or 8-byte writes; unmasking sends what is pending
(R435). -/
def execMsiXTableWrite (fn off size : Nat) (value : Word) (s : State) : Out State :=
  .next (
    if !s.live ∨ !s.fnOn fn ∨ 17 ≤ fn ∨ ¬(size = 4 ∨ size = 8) ∨ off % size ≠ 0 ∨ 0x8000 ≤ off then s
    else
      let k := off % 16 / 4
      let lo := value.toNat % 2 ^ 32
      let e1 := msixDword (s.msixAt fn (off / 16)) k lo
      let e2 := if size = 8 then msixDword e1 (k + 1) (value.toNat / 2 ^ 32) else e1
      sendPending (s.setMsix fn (off / 16) e2) fn)

/-- Change a function's configuration. -/
def State.updFn (s : State) (fn : Nat) (f : FnCfg → FnCfg) : State := s.putFns (updAt s.fns fn f)

/-- BAR4 sizes: of the physical function, or, written for a virtual function, of all of them (R434). -/
def setBar4 (s : State) (fn log : Nat) : State :=
  if log < 28 ∨ 39 < log then s
  else if fn = 0 then s.updFn 0 fun c => { c with bar4Log := log }
  else (List.range 16).foldl (fun s k => s.updFn (k + 1) fun c => { c with bar4Log := log }) s

/-- What a write of a doubleword of configuration space leaves there: nothing over the identity of Table 18.1, and of a BAR of the
physical function its address bits alone (R432, R434, Table 18.3; PRESUMED, log entry 91). -/
def cfgKept (c : FnCfg) (fn off v : Nat) : Nat :=
  let size (k : Nat) : Nat := v % 2 ^ 32 / 2 ^ k * 2 ^ k
  if off = 0x00 ∨ off = 0x08 ∨ off = 0x2C then 0
  else if fn ≠ 0 then v
  else if off = 0x10 then size 26
  else if off = 0x18 then size 22
  else if off = 0x20 then size (min 32 c.bar4Log)
  else if off = 0x24 then size (c.bar4Log - 32)
  else v

/-- The Device Serial Number: GLB_SERIAL, on the physical function only (Table 18.1). -/
def State.serialOf (s : State) (fn : Nat) : Option Word := if fn = 0 then some (s.reg Reg.GLB_SERIAL) else none

/-- One field of configuration space is written (Table 18.2, R357, R434). -/
def cfgWrite (s : State) (fn : Nat) : CfgField → State
  | .memEnable on => s.updFn fn fun c => { c with memEnable := on }
  | .bar4Size log => setBar4 s fn log
  | .vfEnable on =>
    if fn ≠ 0 then s
    else if on then s.updFn 0 fun c => { c with vfEnable := true }
    else if (s.fn 0).vfEnable then after s (execVfEnableClear s) else s
  | .numVfs n => if fn ≠ 0 ∨ (s.fn 0).vfEnable ∨ 16 < n then s else s.updFn 0 fun c => { c with numVfs := n }
  | .powerState d3 =>
    if d3 then s.updFn fn fun c => { c with d3hot := true }
    else if (s.fn fn).d3hot then after s (execFunctionLevelReset fn s) else s
  | .msixEnable on => sendPending (s.updFn fn fun c => { c with msixEnable := on }) fn
  | .msixFunctionMask on => sendPending (s.updFn fn fun c => { c with msixMask := on }) fn
  | .other off v => s.updFn fn fun c => { c with other := spSet 0 c.other off (cfgKept c fn off v) }

/-- CONFIGURATION_SPACE_WRITE, with PD02 powered (R357, R433, R434). -/
def execConfigurationSpaceWrite (fn : Nat) (field : CfgField) (s : State) : Out State :=
  .next (if decide (s.devState < 2) || decide (17 ≤ fn) || (!s.fnOn fn && match field with | .bar4Size _ => false | _ => true) then s else cfgWrite s fn field)

end Sys2Proof.Machine
end

