-- ==== Sys2Proof/Machine/Dispatch.lean ====
section
/-!
DEFINITION. The meaning of each command: one arm for each constructor, each one call of the command's own definition.
-/
namespace Sys2Proof.Machine

def exec (i : Instr) (s : State) : Host.Outcome State Fault Refusal :=
  match i with
  | .inputStageCharged volts slot => Sys2Proof.Machine.execInputStageCharged volts slot s
  | .inputRemoved => Sys2Proof.Machine.execInputRemoved s
  | .inputSample volts amps p10 p1000 p100k busiest droopGroups => Sys2Proof.Machine.execInputSample volts amps p10 p1000 p100k busiest droopGroups s
  | .rideThroughTimeout => Sys2Proof.Machine.execRideThroughTimeout s
  | .rideThroughEnd => Sys2Proof.Machine.execRideThroughEnd s
  | .powerFailShutdown => Sys2Proof.Machine.execPowerFailShutdown s
  | .inputOvTimeout => Sys2Proof.Machine.execInputOvTimeout s
  | .excursionTimeout => Sys2Proof.Machine.execExcursionTimeout s
  | .droopDetect group millivolts => Sys2Proof.Machine.execDroopDetect group millivolts s
  | .droopRecovery group cycles => Sys2Proof.Machine.execDroopRecovery group cycles s
  | .junctionSample temps => Sys2Proof.Machine.execJunctionSample temps s
  | .thermalTrip => Sys2Proof.Machine.execThermalTrip s
  | .dramTempSample vaults packages derate => Sys2Proof.Machine.execDramTempSample vaults packages derate s
  | .loopReleaseStepUp group loop => Sys2Proof.Machine.execLoopReleaseStepUp group loop s
  | .stepChangeComplete group => Sys2Proof.Machine.execStepChangeComplete group s
  | .activityRamp group demand stall fill => Sys2Proof.Machine.execActivityRamp group demand stall fill s
  | .energyWindow total background dynamic times => Sys2Proof.Machine.execEnergyWindow total background dynamic times s
  | .domainPowerUpComplete domain => Sys2Proof.Machine.execDomainPowerUpComplete domain s
  | .surpriseDown => Sys2Proof.Machine.execSurpriseDown s
  | .functionLevelReset fn => Sys2Proof.Machine.execFunctionLevelReset fn s
  | .vfEnableClear => Sys2Proof.Machine.execVfEnableClear s
  | .autoBootStart => Sys2Proof.Machine.execAutoBootStart s
  | .firmwareAccepted => Sys2Proof.Machine.execFirmwareAccepted s
  | .bootTimeout => Sys2Proof.Machine.execBootTimeout s
  | .trainComplete cores vaults channels ports awl kat => Sys2Proof.Machine.execTrainComplete cores vaults channels ports awl kat s
  | .tickEdge len report => Sys2Proof.Machine.execTickEdge len report s
  | .stateTransferComplete ring => Sys2Proof.Machine.execStateTransferComplete ring s
  | .coreYieldDone array time report => Sys2Proof.Machine.execCoreYieldDone array time report s
  | .tickFenceExpiry id => Sys2Proof.Machine.execTickFenceExpiry id s
  | .holdLimitExpiry id => Sys2Proof.Machine.execHoldLimitExpiry id s
  | .cmdDoorbell fn ring value => Sys2Proof.Machine.execCmdDoorbell fn ring value s
  | .returnHeadDoorbell fn ring value => Sys2Proof.Machine.execReturnHeadDoorbell fn ring value s
  | .packetFetch ring host => Sys2Proof.Machine.execPacketFetch ring host s
  | .commandAdmit ring => Sys2Proof.Machine.execCommandAdmit ring s
  | .recordWrite ctx => Sys2Proof.Machine.execRecordWrite ctx s
  | .returnIrqTimeout ctx => Sys2Proof.Machine.execReturnIrqTimeout ctx s
  | .matmul id core => Sys2Proof.Machine.execMatmul id core s
  | .conv id core => Sys2Proof.Machine.execConv id core s
  | .scan id core => Sys2Proof.Machine.execScan id core s
  | .slotAcquire id => Sys2Proof.Machine.execSlotAcquire id s
  | .attn id core => Sys2Proof.Machine.execAttn id core s
  | .update id core => Sys2Proof.Machine.execUpdate id core s
  | .rngFill id core => Sys2Proof.Machine.execRngFill id core s
  | .stageStart command => Sys2Proof.Machine.execStageStart command s
  | .itemClaim id array => Sys2Proof.Machine.execItemClaim id array s
  | .itemComplete id array core => Sys2Proof.Machine.execItemComplete id array core s
  | .sliceAdd id item => Sys2Proof.Machine.execSliceAdd id item s
  | .stageComplete id time => Sys2Proof.Machine.execStageComplete id time s
  | .weltPacketReceive id dst seq crcOk => Sys2Proof.Machine.execWeltPacketReceive id dst seq crcOk s
  | .seamReceive id entry chunk => Sys2Proof.Machine.execSeamReceive id entry chunk s
  | .chunkRecurrence id entry chunk => Sys2Proof.Machine.execChunkRecurrence id entry chunk s
  | .prefetch id array va len fmt => Sys2Proof.Machine.execPrefetch id array va len fmt s
  | .load id => Sys2Proof.Machine.execLoad id s
  | .store id => Sys2Proof.Machine.execStore id s
  | .migrate id => Sys2Proof.Machine.execMigrate id s
  | .fork id => Sys2Proof.Machine.execFork id s
  | .park id => Sys2Proof.Machine.execPark id s
  | .resume id => Sys2Proof.Machine.execResume id s
  | .event id => Sys2Proof.Machine.execEvent id s
  | .wait ring => Sys2Proof.Machine.execWait ring s
  | .waitPoll => Sys2Proof.Machine.execWaitPoll s
  | .tickFence id => Sys2Proof.Machine.execTickFence id s
  | .config id => Sys2Proof.Machine.execConfig id s
  | .commit id => Sys2Proof.Machine.execCommit id s
  | .allreduce id => Sys2Proof.Machine.execAllreduce id s
  | .reduceScatter id => Sys2Proof.Machine.execReduceScatter id s
  | .allgather id => Sys2Proof.Machine.execAllgather id s
  | .broadcast id => Sys2Proof.Machine.execBroadcast id s
  | .alltoall id => Sys2Proof.Machine.execAlltoall id s
  | .send id => Sys2Proof.Machine.execSend id s
  | .recv id => Sys2Proof.Machine.execRecv id s
  | .anchor id => Sys2Proof.Machine.execAnchor id s
  | .collectiveData port msg => Sys2Proof.Machine.execCollectiveData port msg s
  | .collectiveAbort port msg => Sys2Proof.Machine.execCollectiveAbort port msg s
  | .ringKvBlock port msg => Sys2Proof.Machine.execRingKvBlock port msg s
  | .ringOpen fn first count => Sys2Proof.Machine.execRingOpen fn first count s
  | .ringClose fn first count => Sys2Proof.Machine.execRingClose fn first count s
  | .ctxOpen fn part ctx count first => Sys2Proof.Machine.execCtxOpen fn part ctx count first s
  | .ctxClose fn ctx => Sys2Proof.Machine.execCtxClose fn ctx s
  | .ctxSave fn ctx discard => Sys2Proof.Machine.execCtxSave fn ctx discard s
  | .saveImageWrite ctx => Sys2Proof.Machine.execSaveImageWrite ctx s
  | .ctxRestore fn ctx => Sys2Proof.Machine.execCtxRestore fn ctx s
  | .ctxTeardown fn ctx => Sys2Proof.Machine.execCtxTeardown fn ctx s
  | .holStageWrite fn off bytes => Sys2Proof.Machine.execHolStageWrite fn off bytes s
  | .holVerify fn => Sys2Proof.Machine.execHolVerify fn s
  | .holVerifyDone => Sys2Proof.Machine.execHolVerifyDone s
  | .holCommit fn => Sys2Proof.Machine.execHolCommit fn s
  | .holDiscard fn => Sys2Proof.Machine.execHolDiscard fn s
  | .holStore fn => Sys2Proof.Machine.execHolStore fn s
  | .holStoreDone ok => Sys2Proof.Machine.execHolStoreDone ok s
  | .holApplyComplete => Sys2Proof.Machine.execHolApplyComplete s
  | .fragmentAbandon => Sys2Proof.Machine.execFragmentAbandon s
  | .stateReqReady fn => Sys2Proof.Machine.execStateReqReady fn s
  | .stateReqSafe fn => Sys2Proof.Machine.execStateReqSafe fn s
  | .glbCommitWrite fn mask => Sys2Proof.Machine.execGlbCommitWrite fn mask s
  | .registerWrite fn off size value => Sys2Proof.Machine.execRegisterWrite fn off size value s
  | .bar4Read fn addr len => Sys2Proof.Machine.execBar4Read fn addr len s
  | .bar4Write fn addr bytes => Sys2Proof.Machine.execBar4Write fn addr bytes s
  | .kvCtxCfgWrite fn ctx value => Sys2Proof.Machine.execKvCtxCfgWrite fn ctx value s
  | .memClassWrite fn vault index value => Sys2Proof.Machine.execMemClassWrite fn vault index value s
  | .blkClassWrite fn index value => Sys2Proof.Machine.execBlkClassWrite fn index value s
  | .classClearComplete frame => Sys2Proof.Machine.execClassClearComplete frame s
  | .migInval fn value => Sys2Proof.Machine.execMigInval fn value s
  | .migInvalComplete => Sys2Proof.Machine.execMigInvalComplete s
  | .migPush fn part value => Sys2Proof.Machine.execMigPush fn part value s
  | .migrationEpoch part => Sys2Proof.Machine.execMigrationEpoch part s
  | .migrationMove part => Sys2Proof.Machine.execMigrationMove part s
  | .refresh tier vault channel upsets => Sys2Proof.Machine.execRefresh tier vault channel upsets s
  | .patrolScrub addr len last => Sys2Proof.Machine.execPatrolScrub addr len last s
  | .memMarginStart fn vault value => Sys2Proof.Machine.execMemMarginStart fn vault value s
  | .blkMarginStart fn value => Sys2Proof.Machine.execBlkMarginStart fn value s
  | .marginDone unit errors => Sys2Proof.Machine.execMarginDone unit errors s
  | .bulkRecalibration channel retrain => Sys2Proof.Machine.execBulkRecalibration channel retrain s
  | .portUp port badLanes => Sys2Proof.Machine.execPortUp port badLanes s
  | .linkDown port => Sys2Proof.Machine.execLinkDown port s
  | .linkPacketReceive port seq ack corrected crcOk fecOk msg => Sys2Proof.Machine.execLinkPacketReceive port seq ack corrected crcOk fecOk msg s
  | .retrainComplete port badLanes => Sys2Proof.Machine.execRetrainComplete port badLanes s
  | .plkRetrain fn port => Sys2Proof.Machine.execPlkRetrain fn port s
  | .plkMarginStart fn port value => Sys2Proof.Machine.execPlkMarginStart fn port value s
  | .plkMarginDone port errors => Sys2Proof.Machine.execPlkMarginDone port errors s
  | .pelvasRecalibration port lane => Sys2Proof.Machine.execPelvasRecalibration port lane s
  | .hello port msg => Sys2Proof.Machine.execHello port msg s
  | .helloTimer => Sys2Proof.Machine.execHelloTimer s
  | .elect port msg => Sys2Proof.Machine.execElect port msg s
  | .electionTimeout => Sys2Proof.Machine.execElectionTimeout s
  | .heartbeat port msg => Sys2Proof.Machine.execHeartbeat port msg s
  | .heartbeatTimer => Sys2Proof.Machine.execHeartbeatTimer s
  | .time port msg => Sys2Proof.Machine.execTime port msg s
  | .timeTimer => Sys2Proof.Machine.execTimeTimer s
  | .clasp port msg => Sys2Proof.Machine.execClasp port msg s
  | .claspSend now => Sys2Proof.Machine.execClaspSend now s
  | .holdoverEdge len report => Sys2Proof.Machine.execHoldoverEdge len report s
  | .ready port msg => Sys2Proof.Machine.execReady port msg s
  | .readySend => Sys2Proof.Machine.execReadySend s
  | .unready port msg => Sys2Proof.Machine.execUnready port msg s
  | .member port msg => Sys2Proof.Machine.execMember port msg s
  | .memberLossTimeout id => Sys2Proof.Machine.execMemberLossTimeout id s
  | .standbyTakeover => Sys2Proof.Machine.execStandbyTakeover s
  | .flockDrop port msg => Sys2Proof.Machine.execFlockDrop port msg s
  | .flockDropTimer => Sys2Proof.Machine.execFlockDropTimer s
  | .fiHoldRelease rule => Sys2Proof.Machine.execFiHoldRelease rule s
  | .clxIdWrite fn value => Sys2Proof.Machine.execClxIdWrite fn value s
  | .advanceSvn fn arg => Sys2Proof.Machine.execAdvanceSvn fn arg s
  | .revokeKey fn arg => Sys2Proof.Machine.execRevokeKey fn arg s
  | .enrollOwner fn => Sys2Proof.Machine.execEnrollOwner fn s
  | .clearOwner fn => Sys2Proof.Machine.execClearOwner fn s
  | .secOpComplete ok => Sys2Proof.Machine.execSecOpComplete ok s
  | .getVersion binding req => Sys2Proof.Machine.execGetVersion binding req s
  | .getCapabilities binding req => Sys2Proof.Machine.execGetCapabilities binding req s
  | .negotiateAlgorithms binding req => Sys2Proof.Machine.execNegotiateAlgorithms binding req s
  | .getDigests binding req => Sys2Proof.Machine.execGetDigests binding req s
  | .getCertificate binding req => Sys2Proof.Machine.execGetCertificate binding req s
  | .challenge binding req => Sys2Proof.Machine.execChallenge binding req s
  | .getMeasurements binding req => Sys2Proof.Machine.execGetMeasurements binding req s
  | .chunkSend binding req => Sys2Proof.Machine.execChunkSend binding req s
  | .chunkGet binding req => Sys2Proof.Machine.execChunkGet binding req s
  | .respondIfReady binding req => Sys2Proof.Machine.execRespondIfReady binding req s
  | .spdmUnsupportedRequest binding req => Sys2Proof.Machine.execSpdmUnsupportedRequest binding req s
  | .mgtLogClear fn => Sys2Proof.Machine.execMgtLogClear fn s
  | .logFlushTimer => Sys2Proof.Machine.execLogFlushTimer s
  | .ageingCheck group fell => Sys2Proof.Machine.execAgeingCheck group fell s
  | .devicePowerOn => Sys2Proof.Machine.execDevicePowerOn s
  | .devicePowerOff => Sys2Proof.Machine.execDevicePowerOff s
  | .faultReset => Sys2Proof.Machine.execFaultReset s
  | .autoBoot value => Sys2Proof.Machine.execAutoBoot value s
  | .safeBoot value => Sys2Proof.Machine.execSafeBoot value s
  | .bmcStateRequest value => Sys2Proof.Machine.execBmcStateRequest value s
  | .powerMode value => Sys2Proof.Machine.execPowerMode value s
  | .stepCeiling value => Sys2Proof.Machine.execStepCeiling value s
  | .logSnapshot value => Sys2Proof.Machine.execLogSnapshot value s
  | .domainRequest domain value => Sys2Proof.Machine.execDomainRequest domain value s
  | .bmcDeviceId value => Sys2Proof.Machine.execBmcDeviceId value s
  | .getPdr handle => Sys2Proof.Machine.execGetPdr handle s
  | .getPdrRepositoryInfo => Sys2Proof.Machine.execGetPdrRepositoryInfo s
  | .setEventReceiver eid => Sys2Proof.Machine.execSetEventReceiver eid s
  | .getSensorReading sensor => Sys2Proof.Machine.execGetSensorReading sensor s
  | .getStateSensorReadings sensor => Sys2Proof.Machine.execGetStateSensorReadings sensor s
  | .getStateEffecterStates effecter => Sys2Proof.Machine.execGetStateEffecterStates effecter s
  | .getNumericEffecterValue effecter => Sys2Proof.Machine.execGetNumericEffecterValue effecter s
  | .pollForPlatformEventMessage ack => Sys2Proof.Machine.execPollForPlatformEventMessage ack s
  | .requestUpdate agent => Sys2Proof.Machine.execRequestUpdate agent s
  | .updateComponent agent component => Sys2Proof.Machine.execUpdateComponent agent component s
  | .componentVerifyDone => Sys2Proof.Machine.execComponentVerifyDone s
  | .activateFirmware agent => Sys2Proof.Machine.execActivateFirmware agent s
  | .setEndpointId binding eid => Sys2Proof.Machine.execSetEndpointId binding eid s
  | .getEndpointId binding => Sys2Proof.Machine.execGetEndpointId binding s
  | .getMctpVersionSupport binding type => Sys2Proof.Machine.execGetMctpVersionSupport binding type s
  | .getMessageTypeSupport binding => Sys2Proof.Machine.execGetMessageTypeSupport binding s
  | .getEndpointUuid binding => Sys2Proof.Machine.execGetEndpointUuid binding s
  | .pcieLinkUp speed width => Sys2Proof.Machine.execPcieLinkUp speed width s
  | .configurationSpaceWrite fn field => Sys2Proof.Machine.execConfigurationSpaceWrite fn field s
  | .msiXTableWrite fn off size value => Sys2Proof.Machine.execMsiXTableWrite fn off size value s
  | .platformEventAcknowledge id => Sys2Proof.Machine.execPlatformEventAcknowledge id s
  | .componentDataTransfer agent offset bytes => Sys2Proof.Machine.execComponentDataTransfer agent offset bytes s
  | .logWriteComplete => Sys2Proof.Machine.execLogWriteComplete s

end Sys2Proof.Machine
end

