-- ==== Sys2Proof/Safety.lean ====
section
/-!
DEFINITION. What the statements speak of: the canonical forms of memory and of the register file, a command waiting at the
front of the queue, the bytes a store reaches, and what a completion reports.
-/
namespace Sys2Proof.Machine

/-- Device memory is in its canonical form: addresses strictly rising, and no entry equal to the zero an unlisted byte reads
as (R275). -/
def Memory.wf (m : Mem) : Bool := spWf (fun _ => (0 : Byte)) m.cells

/-- The register file is in its canonical form: offsets strictly rising, and no entry equal to its register's reset value, in
the registers and in the values in force (R8, R9). -/
def Registers.wf (s : State) : Bool := spWf regReset s.regs && spWf regReset s.eff

/-- One byte of device memory, by physical address. -/
def State.byteAt (s : State) (pa : Nat) : Byte := spGet 0 s.mem.cells pa

/-- The state with a command at the front of its queue. -/
def State.command (s : State) (c : Instr) : State := { s with pending := c :: s.pending }

/-- Outside these BAR0 offsets every register reads as before. -/
def State.sameRegs (s t : State) (except : List Nat) : Prop := ∀ off, off ∉ except → t.reg off = s.reg off

/-- Nothing but registers changed, and of those only these. -/
def State.onlyRegs (s t : State) (except : List Nat) : Prop := t = s.putRegs t.regs ∧ s.sameRegs t except

/-- Memory reads as before, byte by byte, and its stored errors stand. -/
def State.sameMemory (s t : State) : Prop := (∀ pa, t.byteAt pa = s.byteAt pa) ∧ t.mem.errs = s.mem.errs

/-- Contexts, rings, commands in flight, state slots, parked images and the KV unit are as before. -/
def State.sameWork (s t : State) : Prop :=
  t.ctxs = s.ctxs ∧ t.rings = s.rings ∧ t.flight = s.flight ∧ t.slots = s.slots ∧ t.images = s.images ∧ t.kv = s.kv

/-- No context, ring, command, state slot, parked image, KV state or fabric state is left (Table 0.5). -/
def State.workGone (t : State) : Prop :=
  t.ctxs = [] ∧ t.rings = [] ∧ t.flight = [] ∧ t.slots = [] ∧ t.images = [] ∧ t.kv = State.reset.kv ∧ t.fab = State.reset.fab

/-- What survives in no powered-down part: all work and both memory tiers are gone (R275). -/
def State.emptied (t : State) : Prop := (∀ pa, t.byteAt pa = 0) ∧ t.workGone

/-- Memory in which a read changes nothing but counts: no stored error, no line in error, no frame being cleared, and under no
cached line bytes of class N that differ (R287 to R293). -/
def Mem.still (m : Mem) : Prop := m.sound = true ∧ m.clearing = [] ∧ ∀ c ∈ m.cache, c.under = []

/-- A write of len bytes of context n at va stores to physical address pa. -/
def State.stores (s : State) (n va len pa : Nat) : Prop :=
  ∃ i l, i < len ∧ translate s n (va + i) true = .ok l ∧ l.pa = pa

/-- Outside the bytes that context n stores to at va, memory reads as before. -/
def State.storesOnly (s t : State) (n va len : Nat) : Prop := ∀ pa, ¬s.stores n va len pa → t.byteAt pa = s.byteAt pa

/-- A write of len bytes of context n at va is accepted whole. -/
def State.canStore (s : State) (n va len : Nat) : Prop := writeErr s n (pieces va len) = none

/-- The record of a completion of entry e with this status waits last in its context. -/
def State.reports (s t : State) (e : Entry) (status : Nat) : Prop :=
  ∃ r, (t.ctx e.ctx).recs = (s.ctx e.ctx).recs ++ [r] ∧ r.entry = e.id ∧ fld (r.words.getD 0 0) 55 48 = status ∧
    fld (r.words.getD 1 0) 63 32 = e.pkt.tag

/-- The status an OK completion of e reports now: TICK_OVERRUN when it is late (R44). -/
def State.okStatus (s : State) (e : Entry) : Nat := if s.lateOf e then 5 else 0

/-- A register whose write has no effect but on its own fields. -/
def RegDef.plain (r : RegDef) : Bool :=
  !(["CTX_PT_ROOT", "CTX_SPILL", "CTX_SAVE", "CTX_STATE_TBL", "CTX_KEY_TBL", "RING_RET_BASE", "RING_RET_CFG", "MIG_STACK", "KV_RING",
    "CLX_GROUP_CFG", "CLX_GROUP_MAP", "PLK_CTL", "FI_CTL", "PWR_CFG", "PWR_DOMAIN", "GLB_STATE_REQ", "GLB_COMMIT", "RING_CTL",
    "CTX_CMD", "MEM_MARGIN", "BLK_MARGIN", "PLK_MARGIN", "MEM_CLASS", "BLK_CLASS", "MIG_INVAL", "MIG_PUSH", "KV_CTX_CFG", "CLX_ID",
    "SEC_CMD", "MGT_LOG_STAT", "HOL_CMD"].contains r.name)

/-- Entry e of the in-flight table bears the number, has not completed, and its partition can run work in a live part (R59). -/
def State.runs (s : State) (id : Nat) (e : Entry) : Prop :=
  s.live = true ∧ s.entry id = some e ∧ e.done = false ∧ s.partOn e.part = true

/-- No other command than this one has a packet of the welt exchange that waits for a credit (R163). -/
def State.weltSent (s : State) (id : Nat) : Prop := ∀ x ∈ s.flight, x.id ≠ id → ∀ q ∈ x.run.welt, q.sent = true

/-- Every other command in flight is as it was. -/
def State.othersKept (s t : State) (id : Nat) : Prop := ∀ k, k ≠ id → t.entry k = s.entry k

end Sys2Proof.Machine
end

