-- ==== Sys2Proof/Certificates/Slice0/Obligations.lean ====
section
/-!
DEFINITION. The statements for the provers, by the chapters of the spec.
-/
section
open Sys2Proof Sys2Proof.Machine

/-! ### The machine -/

/-- A step takes the command at the front of the queue and runs it on the state with the queue's rest.
With no command waiting the part idles (log entry 1, DESIGN CHOICE: the spec gives the block no queue). -/
def Obligations.QueueStep : Prop :=
  (∀ (s : State) (c : Instr), step (s.command c) = exec c s) ∧
  (∀ s : State, s.pending = [] → step s = .next s)

/-- Only an input above 72 V stops the model: every other command, on every state, answers a next state.
INPUT_SAMPLE above 72 V: outside the absolute maximum rating, the part stops (Table 15.1). -/
def Obligations.OnlyInputSampleStops : Prop :=
  (∀ (c : Instr) (s : State),
     (∀ v a p q r b g, c = .inputSample v a p q r b g → v ≤ 7200) → ∃ t, exec c s = .next t) ∧
  (∀ (s : State) (v a p10 p1000 p100k b : Nat) (g : List Nat), 7200 < v →
     exec (.inputSample v a p10 p1000 p100k b g) s = .fault .aboveAbsoluteMaximum)

/-- The device state at reset is BOOT, coming from STANDBY (Table 0.4), and every register reads its reset value, in force
as well (R7, R8, R9; the state at reset, and the values the spec does not give, are log entry 4, the model's choice). Contexts
are FREE, rings CLOSED, and nothing is in flight.
The canonical forms hold at reset. -/
def Obligations.ResetState : Prop :=
  (State.reset.devState = stBoot ∧ State.reset.fldR Reg.GLB_STATE 6 4 = stStandby ∧
   (∀ off, State.reset.reg off = regReset off ∧ State.reset.effReg off = regReset off) ∧
   (∀ n, State.reset.ctxState n = 0) ∧ (∀ r, (State.reset.ring r).state = 0) ∧
   State.reset.flight = [] ∧ State.reset.pending = []) ∧
  (Memory.wf State.reset.mem = true ∧ Registers.wf State.reset = true)

/-- Every step keeps device memory in its canonical form. -/
def Obligations.MemoryStaysCanonical : Prop :=
  ∀ s t : State, Memory.wf s.mem = true → step s = .next t → Memory.wf t.mem = true

/-- Every step keeps the register file in its canonical form. -/
def Obligations.RegistersStayCanonical : Prop :=
  ∀ s t : State, Registers.wf s = true → step s = .next t → Registers.wf t = true

/-! ### Power (15_power_and_thermal.md, 19_electrical_and_mechanical.md) -/

/-- Power transitions of the whole part. INPUT_STAGE_CHARGED at 40 V or more takes OFF to STANDBY and sets the member number
of the device ID to SLOT_ID (R440, R319). INPUT_REMOVED takes any powered state to OFF, THERMAL_TRIP and
INPUT_OV_TIMEOUT to FAULT, and POWER_FAIL_SHUTDOWN, once the sequence runs, to STANDBY at 30 V or more and OFF
below it; each of these four ends all work, and those that lead to OFF or STANDBY empty both tiers, which FAULT keeps (R275, R380,
R378, R392; log entry 83). PREV_STATE holds the state left. -/
def Obligations.PowerTransitions : Prop :=
  ∀ s : State,
    (∀ v slot, s.devState = stOff → 4000 ≤ v → slot < 8 →
      ∃ t, exec (.inputStageCharged v slot) s = .next t ∧ t.devState = stStandby ∧ t.fldR Reg.GLB_STATE 6 4 = stOff ∧
        t.fldR Reg.CLX_ID 9 0 = slot ∧ s.sameMemory t ∧ s.sameWork t) ∧
    (s.devState ≠ stOff →
      ∃ t, exec .inputRemoved s = .next t ∧ t.devState = stOff ∧ t.fldR Reg.GLB_STATE 6 4 = s.devState ∧ t.emptied ∧
        ∀ off, off ≠ Reg.GLB_STATE → t.reg off = regReset off) ∧
    (s.fldR Reg.PWR_STAT 58 58 = 1 →
      ∃ t, exec .powerFailShutdown s = .next t ∧ t.devState = (if 3000 ≤ s.pwr.volts then stStandby else stOff) ∧
        t.fldR Reg.GLB_STATE 6 4 = s.devState ∧ t.emptied ∧ t.mgt.snapshots.head? = some s.mgt.log) ∧
    (s.devState ≠ stOff → s.devState ≠ stFault → 100 ≤ s.pwr.usOv →
      ∃ t, exec .inputOvTimeout s = .next t ∧ t.devState = stFault ∧ t.fldR Reg.GLB_STATE 6 4 = s.devState ∧ t.workGone ∧
        s.sameMemory t) ∧
    (s.devState ≠ stOff → s.devState ≠ stFault → (∃ l ∈ s.pwr.groups, 100 ≤ l.tripSamples) →
      ∃ t, exec .thermalTrip s = .next t ∧ t.devState = stFault ∧ t.fldR Reg.GLB_STATE 6 4 = s.devState ∧ t.workGone ∧
        s.sameMemory t)

/-- INPUT_SAMPLE with the part in STANDBY shows the sampled voltage, current and 1 ms power in PWR_INPUT and counts the
microseconds in each band; nothing but PWR_INPUT, the power controller and the interval's tallies changes (R378). -/
def Obligations.InputSampled : Prop :=
  ∀ (s : State) (v a p10 p1000 p100k b : Nat) (g : List Nat), s.devState = stStandby → 3000 ≤ v → v ≤ 7200 → a < 65536 →
    p1000 < 65536 →
    ∃ t, exec (.inputSample v a p10 p1000 p100k b g) s = .next t ∧ t.fldR Reg.PWR_INPUT 63 48 = v ∧
      t.fldR Reg.PWR_INPUT 47 32 = a ∧ t.fldR Reg.PWR_INPUT 31 16 = p1000 ∧
      t.fldR Reg.PWR_INPUT 15 0 = max (s.fldR Reg.PWR_INPUT 15 0) (min p10 65535) ∧ t.pwr.volts = v ∧
      t.pwr.usRide = (if 3600 ≤ v ∧ v < 4000 then s.pwr.usRide + 1 else 0) ∧
      t.pwr.usOv = (if 6000 < v then s.pwr.usOv + 1 else 0) ∧ s.sameRegs t [Reg.PWR_INPUT] ∧ s.sameMemory t ∧ s.sameWork t

/-- RIDE_THROUGH_TIMEOUT starts the power-fail sequence: PWR_STAT.POWER_FAIL is set, ALERT# asserted, and every claimed work
item is abandoned (R378, R380). RIDE_THROUGH_END, once the input has stood at 41 V for 1 ms and the edge has come,
clears RIDE_THROUGH and releases the input loop's activity ceiling (R379). Memory and contexts stand. -/
def Obligations.RideThrough : Prop :=
  ∀ s : State,
    (s.working = true → s.fldR Reg.PWR_STAT 60 60 = 1 → 20000 ≤ s.pwr.usRide → s.fldR Reg.PWR_STAT 58 58 = 0 →
      ∃ t, exec .rideThroughTimeout s = .next t ∧ t.fldR Reg.PWR_STAT 58 58 = 1 ∧ t.out.alert = true ∧
        (∀ e ∈ t.flight, e.run.claims = []) ∧ s.sameMemory t ∧ t.ctxs = s.ctxs ∧ t.rings = s.rings) ∧
    (s.fldR Reg.PWR_STAT 60 60 = 1 → s.fldR Reg.PWR_STAT 58 58 = 0 → 1000 ≤ s.pwr.us41 → s.pwr.rideEdge = true →
      ∃ t, exec .rideThroughEnd s = .next t ∧ t.fldR Reg.PWR_STAT 60 60 = 0 ∧ (∀ l ∈ t.pwr.groups, l.actInput = 16) ∧
        s.sameMemory t ∧ s.sameWork t)

/-- The droop detector: DROOP_DETECT at 30 mV or more on a group whose clock runs drops its clock and counts a response;
DROOP_RECOVERY restores the clock and adds the core cycles spent (R391). STEP_CHANGE_COMPLETE records that the
rail and clock have reached the group's effective step (R387). Nothing else changes.
ACTIVITY_RAMP moves the group's ramp ceiling one sixteenth toward demand, within 1 to 16, shows the lowest of the group's
ceilings in PWR_GROUP.ACT_CEIL, and adds the stall and fill cycles to PWR_RAMP (R390). -/
def Obligations.DroopAndActivity : Prop :=
  (∀ (s : State) (g : Nat), g < s.pwr.groups.length →
     (∀ mv, g < 16 → 30 ≤ mv → (s.loop g).drooped = false →
       ∃ t, exec (.droopDetect g mv) s = .next t ∧ (t.loop g).drooped = true ∧
         t.reg Reg.PWR_DROOP = setFld (s.reg Reg.PWR_DROOP) 63 32 (s.fldR Reg.PWR_DROOP 63 32 + 1) ∧
         (s.putPwr t.pwr).onlyRegs t [Reg.PWR_DROOP] ∧ ∀ h, h ≠ g → t.loop h = s.loop h) ∧
     (∀ cycles, (s.loop g).drooped = true →
       ∃ t, exec (.droopRecovery g cycles) s = .next t ∧ (t.loop g).drooped = false ∧
         t.reg Reg.PWR_DROOP = setFld (s.reg Reg.PWR_DROOP) 31 0 (s.fldR Reg.PWR_DROOP 31 0 + cycles) ∧
         (s.putPwr t.pwr).onlyRegs t [Reg.PWR_DROOP] ∧ ∀ h, h ≠ g → t.loop h = s.loop h) ∧
     ∃ t, exec (.stepChangeComplete g) s = .next t ∧ (t.loop g).atStep = s.fldR (Reg.PWR_GROUP g) 51 48 ∧
       t = s.putPwr t.pwr ∧ ∀ h, h ≠ g → t.loop h = s.loop h) ∧
  (∀ (s : State) (g demand stall fill : Nat), g < 16 → s.pwr.groups.length = 16 →
     ∃ t, exec (.activityRamp g demand stall fill) s = .next t ∧
       (t.loop g).actRamp = (if (s.loop g).actRamp < demand then min 16 ((s.loop g).actRamp + 1)
         else if demand < (s.loop g).actRamp then max 1 ((s.loop g).actRamp - 1) else (s.loop g).actRamp) ∧
       t.fldR (Reg.PWR_GROUP g) 43 39 = (t.loop g).act % 32 ∧
       t.fldR Reg.PWR_RAMP 63 32 = (s.fldR Reg.PWR_RAMP 63 32 + stall) % 2 ^ 32 ∧
       t.fldR Reg.PWR_RAMP 31 0 = (s.fldR Reg.PWR_RAMP 31 0 + fill) % 2 ^ 32 ∧
       (s.putPwr t.pwr).onlyRegs t [Reg.PWR_GROUP g, Reg.PWR_RAMP])

/-- The safety loops. EXCURSION_TIMEOUT forces the power loop of every group one step below the step in force, but in ride-through,
where the steps stand at F0, and sets the next forced step 100 µs on (R379, R389); JUNCTION_SAMPLE shows every junction in THM_QUAD (Table 15.20); DRAM_TEMP_SAMPLE
records the temperatures of vaults and packages (R393); LOOP_RELEASE_STEP_UP, once the junction loop has been 3 °C or
more below its limit for 1 ms, raises its step limit by one, to F15 at most (R387, R392). Memory and work stand. -/
def Obligations.SafetyLoops : Prop :=
  ∀ s : State,
    (s.fldR Reg.PWR_STAT 57 57 = 1 → s.pwr.excAt ≤ s.pwr.usExc →
      ∃ t, exec .excursionTimeout s = .next t ∧ t.pwr.excAt = s.pwr.usExc + 100 ∧
        (∀ g, g < 16 → g < s.pwr.groups.length →
          (t.loop g).power = if s.fldR Reg.PWR_STAT 60 60 = 1 then (s.loop g).power
            else min (s.loop g).power (s.fldR (Reg.PWR_GROUP g) 51 48 - 1)) ∧ s.sameMemory t ∧ s.sameWork t) ∧
    (∀ temps, s.devState ≠ stOff → s.devState ≠ stStandby →
      ∃ t, exec (.junctionSample temps) s = .next t ∧
        (∀ q k, q < 16 → k < 4 → t.fldR (Reg.THM_QUAD q) (16 * k + 15) (16 * k) =
          toTwos 16 (temps.getD ((quadCores q).getD k 0) 0)) ∧ s.sameMemory t ∧ s.sameWork t) ∧
    (∀ vaults packages derate, s.devState ≠ stOff → s.devState ≠ stStandby →
      ∃ t, exec (.dramTempSample vaults packages derate) s = .next t ∧ t.pwr.vaultTemp = vaults ∧ t.pwr.pkgTemp = packages ∧
        (∀ v, v < 64 → t.fldR (Reg.MEM_STAT v) 63 56 = toTwos 8 (vaults.getD v 0)) ∧ s.sameMemory t ∧ s.sameWork t) ∧
    (∀ g, g < 16 → g < s.pwr.groups.length → 100 ≤ (s.loop g).coolSamples →
      ∃ t, exec (.loopReleaseStepUp g .junction) s = .next t ∧ (t.loop g).junction = min 15 ((s.loop g).junction + 1) ∧
        s.sameMemory t ∧ s.sameWork t)

/-- ENERGY_WINDOW: whatever the contexts are given and PWR_UNATTR receives adds up, modulo the registers' 64 bits, to the
measured energy, as long as background and dynamic energy do not exceed it; only energy registers and the interval's
tallies change (R397).
DOMAIN_POWER_UP_COMPLETE of a domain switched on makes its units available and lets every command go on that was held for want of
them (R376, R383). -/
def Obligations.EnergyAndDomains : Prop :=
  (∀ (s : State) (total background : Nat) (dynamic times : List (Nat × Nat)),
     background + (dynamic.map (·.2)).sum ≤ total → (∀ x ∈ dynamic ++ times, x.1 < 4096) →
     ∃ t, exec (.energyWindow total background dynamic times) s = .next t ∧
       ((List.range 4096).map (fun n => (t.reg (Reg.PWR_CTX_ENERGY n)).toNat)).sum + (t.reg Reg.PWR_UNATTR).toNat ≡
         ((List.range 4096).map (fun n => (s.reg (Reg.PWR_CTX_ENERGY n)).toNat)).sum + (s.reg Reg.PWR_UNATTR).toNat + total
           [MOD 2 ^ 64] ∧
       (s.putTick t.tick).onlyRegs t (Reg.PWR_UNATTR :: (List.range 4096).map Reg.PWR_CTX_ENERGY)) ∧
  (∀ (s : State) (d : Nat), s.pwr.on.testBit d = true → s.pwr.ready.testBit d = false →
     ∃ t, exec (.domainPowerUpComplete d) s = .next t ∧ t.domReady d = true ∧
       (∀ k, k ≠ d → t.domReady k = s.domReady k) ∧
       t.flight = s.flight.map (fun e => if !s.unitsUp e && (s.putPwr t.pwr).unitsUp e then { e with held := none } else e) ∧
       t = (s.putPwr t.pwr).putFlight t.flight)

/-! ### Device states, boot and resets (00_scope.md, 14_contexts_and_scheduling.md, 16_boot_and_security.md) -/

/-- State requests, by the physical function or the BMC: SAFE is accepted in READY, READY in SAFE with no open context and a
verified structure, and held for the next edge; any other request sets GLB_STATE.REQ_REJECT and changes nothing else
(R4). The BMC's request is answered with success either way. -/
def Obligations.StateRequests : Prop :=
  ∀ s : State, 2 ≤ s.devState →
    (∃ t, exec (.stateReqSafe 0) s = .next t ∧
      (s.devState = stReady → t = s.putDev { s.dev with stateReq := some stSafe }) ∧
      (s.devState ≠ stReady → t.reg Reg.GLB_STATE = setFld (s.reg Reg.GLB_STATE) 8 8 1 ∧ s.onlyRegs t [Reg.GLB_STATE])) ∧
    (∃ t, exec (.stateReqReady 0) s = .next t ∧
      (s.devState = stSafe → s.openCtxs = [] → s.hol.verified = true → t = s.putDev { s.dev with stateReq := some stReady }) ∧
      (s.devState ≠ stSafe ∨ s.openCtxs ≠ [] ∨ (s.hol.verified = false ∧ s.hol.pendFull = none) →
        t.reg Reg.GLB_STATE = setFld (s.reg Reg.GLB_STATE) 8 8 1 ∧ s.onlyRegs t [Reg.GLB_STATE])) ∧
    (∀ v, v = 1 ∨ v = 2 →
      ∃ t, exec (.bmcStateRequest v) s = .next t ∧ t.out.resp = .pldm ccSuccess [] ∧
        (v = 2 → s.devState = stReady → t.dev.stateReq = some stSafe) ∧ s.sameMemory t ∧ s.sameWork t) ∧
    ∀ fn, fn ≠ 0 → exec (.stateReqSafe fn) s = .next s ∧ exec (.stateReqReady fn) s = .next s

/-- Entering BOOT. AUTO_BOOT_START in STANDBY at 40 V with auto-boot on, and DEVICE_POWER_ON at 40 V, lead to BOOT: the
always-on domains power, the fuses are read, and a boot that was requested to end in SAFE is noted (R381, R399, R409).
Below 40 V DEVICE_POWER_ON waits.
Firmware. In BOOT, FIRMWARE_ACCEPTED runs the preferred slot when its checks pass: the part enters TRAIN with every domain
powered, locks UDS and records the slot; when neither slot passes it enters FAULT (R402, R403, R411, Table 0.6).
BOOT_TIMEOUT in BOOT or TRAIN counts a failure and enters FAULT, and the third turns auto-boot off (R404). FAULT ends all work and
keeps memory (R275; log entry 83). -/
def Obligations.BootAndFirmware : Prop :=
  (∀ s : State, s.devState = stStandby →
     (4000 ≤ s.pwr.volts → s.fldR Reg.MGT_STAT 63 63 = 1 → s.dev.bmcOff = false →
       ∃ t, exec .autoBootStart s = .next t ∧ t.devState = stBoot ∧ t.pwr.on = 0xF ∧ t.sec.bootRevoke = s.sec.revoke ∧
         t.sec.bootRollback = s.sec.rollback ∧ t.dev.safeBoot = decide (s.fldR Reg.MGT_STAT 62 62 = 1) ∧
         t.fldR Reg.CLX_ID 15 0 = s.dev.slotId % 65536 ∧ s.sameMemory t ∧ s.sameWork t) ∧
     (4000 ≤ s.pwr.volts →
       ∃ t, exec .devicePowerOn s = .next t ∧ t.devState = stBoot ∧ t.fldR Reg.GLB_STATE 6 4 = stStandby ∧
         t.out.resp = .pldm ccSuccess []) ∧
     (s.pwr.volts < 4000 →
       ∃ t, exec .devicePowerOn s = .next t ∧ t.dev.onWaiting = true ∧ t = (s.putDev t.dev).putOut t.out ∧
         t.out.resp = .pldm ccSuccess [])) ∧
  (∀ s : State,
     (s.devState = stBoot → s.sec.boot.preferred < 2 → s.fwResult (s.sec.fwSlots.getD s.sec.boot.preferred []) = 0 →
       ∃ t, exec .firmwareAccepted s = .next t ∧ t.devState = stTrain ∧ t.pwr.on = 2 ^ 30 - 1 ∧ t.sec.udsLocked = true ∧
         t.sec.runSlot = s.sec.boot.preferred ∧ t.fldR Reg.SEC_STAT 55 55 = s.sec.boot.preferred ∧ s.sameMemory t ∧
         s.sameWork t) ∧
     (s.devState = stBoot → (∀ b ∈ [] :: s.sec.fwSlots, s.fwResult b ≠ 0) →
       ∃ t, exec .firmwareAccepted s = .next t ∧ t.devState = stFault ∧ t.workGone ∧ s.sameMemory t) ∧
     (s.devState = stBoot ∨ s.devState = stTrain →
       ∃ t, exec .bootTimeout s = .next t ∧ t.devState = stFault ∧ t.sec.boot.fails = s.sec.boot.fails + 1 ∧ t.workGone ∧
         s.sameMemory t ∧
         (3 ≤ s.sec.boot.fails + 1 → t.fldR Reg.MGT_STAT 63 63 = 0)))

/-- Power off and fault reset over the management path: DEVICE_POWER_OFF from any state but OFF and STANDBY, and FAULT_RESET
from FAULT, enter STANDBY with both tiers lost and no work left (Table 0.6, R275); after a power-off no boot starts by
itself (R381). -/
def Obligations.PowerOffAndFaultReset : Prop :=
  ∀ s : State,
    (2 ≤ s.devState →
      ∃ t, exec .devicePowerOff s = .next t ∧ t.devState = stStandby ∧ t.emptied ∧ t.dev.bmcOff = true ∧
        t.out.resp = .pldm ccSuccess []) ∧
    (s.devState = stFault →
      ∃ t, exec .faultReset s = .next t ∧ t.devState = stStandby ∧ t.fldR Reg.GLB_STATE 6 4 = stFault ∧ t.emptied ∧
        t.out.resp = .pldm ccSuccess [])

/-- TRAIN_COMPLETE ends in READY or SAFE, and in SAFE where a unit failed or the BMC asked for SAFE; the tick starts and this
moment is edge 0, BOOT_FAILS clears, and the trial slot is confirmed (R71, R75, R76, R409). -/
def Obligations.TrainEnds : Prop :=
  ∀ (s : State) (cores vaults channels ports awl kat : Nat), s.devState = stTrain →
    ∃ t, exec (.trainComplete cores vaults channels ports awl kat) s = .next t ∧
      (t.devState = stReady ∨ t.devState = stSafe) ∧
      ((cores ||| vaults ||| channels ||| ports ||| awl ||| kat) ≠ 0 → t.devState = stSafe) ∧
      (s.dev.safeBoot = true → t.devState = stSafe) ∧ t.tick.running = true ∧ t.tickNum = 0 ∧
      t.sec.boot.fails = 0 ∧ t.sec.boot.trial = false

/-- The PCIe link and function resets. PCIE_LINK_UP in a state with PD02 powered records the trained speed and width (R433).
SURPRISE_DOWN with the link up ends in STANDBY with everything lost (R5). FUNCTION_LEVEL_RESET of a virtual function
returns its configuration to reset and tears its contexts down, of the physical function closes every context (R357).
VF_ENABLE_CLEAR disables the virtual functions and leaves none of their contexts open (R357). -/
def Obligations.LinkAndFunctionResets : Prop :=
  ∀ s : State,
    (∀ speed width, s.working = true → (speed = 32 ∨ speed = 16 ∨ speed = 8) → (width = 16 ∨ width = 8 ∨ width = 4) →
      exec (.pcieLinkUp speed width) s =
        .next (s.putDev { s.dev with linkUp := true, linkSpeed := speed, linkWidth := width })) ∧
    (s.working = true → s.dev.linkUp = true →
      ∃ t, exec .surpriseDown s = .next t ∧ t.devState = stStandby ∧ t.emptied ∧ t.dev.linkUp = false) ∧
    (∀ fn, 0 < fn → fn < 17 → s.fns.length = 17 →
      ∃ t, exec (.functionLevelReset fn) s = .next t ∧ t.fn fn = FnCfg.reset fn ∧ (∀ k, k ≠ fn → t.fn k = s.fn k) ∧
        (∀ n, s.ctxState n = 1 → s.ctxFn n = fn → t.ctxState n = 5 ∧ (t.ctx n).cause = 4)) ∧
    (∃ t, exec (.functionLevelReset 0) s = .next t ∧ t.fn 0 = FnCfg.reset 0 ∧ t.ctxs = [] ∧
      ∀ n, n < 4096 → t.reg (Reg.CTX_PT_ROOT n) = regReset (Reg.CTX_PT_ROOT n)) ∧
    ∃ t, exec .vfEnableClear s = .next t ∧ (t.fn 0).vfEnable = false ∧
      ∀ n, s.ctxState n = 1 → s.ctxFn n ≠ 0 → t.ctxState n = 5 ∧ (t.ctx n).cause = 4

/-! ### The Hollon block (02_hollon_image.md) -/

/-- Staging. HOL_STAGE_WRITE of an aligned 4- or 8-byte value puts exactly those bytes into the window and returns STAGE to
LOADED; a virtual function's write, and any write while VERIFYING, is ignored; an unaligned one is an unsupported
request (R68, R436). HOL_VERIFY starts the check and HOL_DISCARD empties the window; both wait out a running check.
HOL_VERIFY_DONE ends VERIFYING in VERIFIED_FULL or VERIFIED_FRAGMENT, with REJECT_CODE 0, when the staged bytes pass every
check of Table 2.10, by the image's kind, and in REJECTED with the first failing check's code otherwise (R66, R67).
Only HOL_STATUS changes. -/
def Obligations.HollonVerified : Prop :=
  (∀ s : State, s.live = true →
     (∀ off bytes, (bytes.length = 4 ∨ bytes.length = 8) → off % bytes.length = 0 → off + bytes.length ≤ 0x100000 →
       (s.holStage ≠ stgVerifying →
         ∃ t, exec (.holStageWrite 0 off bytes) s = .next t ∧ t.holStage = stgLoaded ∧
           (∀ i, spGet 0 t.hol.window i =
             if off ≤ i ∧ i < off + bytes.length then bytes.getD (i - off) 0 else spGet 0 s.hol.window i) ∧
           t.hol = { s.hol with window := t.hol.window } ∧ (s.putHol t.hol).onlyRegs t [Reg.HOL_STATUS]) ∧
       (∀ fn, fn ≠ 0 ∨ s.holStage = stgVerifying → exec (.holStageWrite fn off bytes) s = .next s)) ∧
     (∀ fn off bytes, bytes.length ≠ 4 → bytes.length ≠ 8 →
       exec (.holStageWrite fn off bytes) s = .next (logAer s (.unsupportedRequest fn (0x1900000 + off)))) ∧
     (s.holStage ≠ stgVerifying →
       (∃ t, exec (.holVerify 0) s = .next t ∧ t.holStage = stgVerifying ∧ s.onlyRegs t [Reg.HOL_STATUS]) ∧
       ∃ t, exec (.holDiscard 0) s = .next t ∧ t.holStage = stgEmpty ∧ t.hol = { s.hol with window := [] } ∧
         (s.putHol t.hol).onlyRegs t [Reg.HOL_STATUS]) ∧
     (s.holStage = stgVerifying → exec (.holVerify 0) s = .next s ∧ exec (.holDiscard 0) s = .next s)) ∧
  (∀ s : State, s.holStage = stgVerifying →
     ∃ t, exec .holVerifyDone s = .next t ∧ s.onlyRegs t [Reg.HOL_STATUS] ∧
       let code := s.verify s.staged (s.fldR Reg.HOL_STAGE_LEN 20 0) true
       t.fldR Reg.HOL_STATUS 23 16 = code ∧
       (code = 0 → t.holStage = if (imgHeader s.staged).kind = 1 then stgFull else stgFragment) ∧
       (code ≠ 0 → t.holStage = stgRejected))

/-- HOL_COMMIT. A verified full image is accepted in READY, or in SAFE with no open context, and a verified fragment in READY,
RUN or SAFE, while no fragment waits, and for a fragment no full image either: the window empties, COMMIT_PENDING is
set, and the image waits; a fragment shows its partition in TARGET and starts its drain. REJECT_CODE says
NOT_VERIFIED (0x0E) when no verified image is staged, STATE (0x0C) for a full image in RUN, and BUSY (0x0D) for a fragment
while another commit waits; nothing else changes then (R68, R69, R72).
HOL_APPLY_COMPLETE clears APPLYING once every powered domain is ready (R70). FRAGMENT_ABANDON, once DRAIN_TICKS edges
have passed with a context of the partition open, drops the fragment: COMMIT_PENDING clears and the abandoned flag is
set (R72). A GLB_COMMIT write captures nothing (R438). -/
def Obligations.HollonCommitted : Prop :=
  (∀ s : State, s.live = true →
     (s.holStage = stgFull → (s.devState = stReady ∨ (s.devState = stSafe ∧ s.openCtxs = [])) → s.hol.pendFrag = none →
       ∃ t, exec (.holCommit 0) s = .next t ∧ t.holStage = stgEmpty ∧ t.fldR Reg.HOL_STATUS 11 11 = 1 ∧
         t.fldR Reg.HOL_STATUS 23 16 = 0 ∧
         t.hol = { s.hol with window := [], pendFull := some (readImage s.verifiedBytes) } ∧
         (s.putHol t.hol).onlyRegs t [Reg.HOL_STATUS]) ∧
     (s.holStage = stgFragment → s.hol.pendFrag = none → s.hol.pendFull = none →
       ∃ t, exec (.holCommit 0) s = .next t ∧ t.holStage = stgEmpty ∧ t.fldR Reg.HOL_STATUS 11 11 = 1 ∧
         t.hol.pendFrag = some (readImage s.verifiedBytes) ∧ t.hol.window = [] ∧ t.hol.draining = false ∧ t.hol.expired = false ∧
         t.fldR Reg.HOL_STATUS 15 12 = (readImage s.verifiedBytes).header.target % 16 ∧
         t.hol.drainLeft = s.fldR Reg.HOL_RELOAD_CFG 15 0 ∧ (s.putHol t.hol).onlyRegs t [Reg.HOL_STATUS]) ∧
     (∀ code, (code = 0x0E ∧ s.holStage ≠ stgFull ∧ s.holStage ≠ stgFragment) ∨
         (code = 0x0C ∧ s.holStage = stgFull ∧ s.devState = stRun) ∨
         (code = 0x0D ∧ s.holStage = stgFragment ∧ (s.hol.pendFrag.isSome = true ∨ s.hol.pendFull.isSome = true)) →
       ∃ t, exec (.holCommit 0) s = .next t ∧ t.fldR Reg.HOL_STATUS 23 16 = code ∧ t.holStage = s.holStage ∧
         s.onlyRegs t [Reg.HOL_STATUS]) ∧
     ∀ fn, fn ≠ 0 → exec (.holCommit fn) s = .next s) ∧
  (∀ s : State,
     (s.fldR Reg.HOL_STATUS 10 10 = 1 → s.pwr.on &&& s.pwr.ready = s.pwr.on →
       ∃ t, exec .holApplyComplete s = .next t ∧ t.fldR Reg.HOL_STATUS 10 10 = 0 ∧ s.onlyRegs t [Reg.HOL_STATUS]) ∧
     (s.hol.pendFrag.isSome = true → s.hol.expired = true →
       ∃ t, exec .fragmentAbandon s = .next t ∧ t.fldR Reg.HOL_STATUS 9 9 = 1 ∧ t.fldR Reg.HOL_STATUS 11 11 = 0 ∧
         t.hol = { s.hol with pendFrag := none, draining := false, expired := false, drainLeft := 0 } ∧
         (s.putHol t.hol).onlyRegs t [Reg.HOL_STATUS]) ∧
     ∀ fn mask, exec (.glbCommitWrite fn mask) s = .next s)

/-- HOL_STORE of a verified full image sets STORE_BUSY and starts the write of the slot that is free to be written; while a
write runs it is refused with BUSY. HOL_STORE_DONE clears STORE_BUSY; a good write leaves the image in the slot and
names it in the boot record, a failed one sets STORE_FAIL and leaves both slots alone (R74). -/
def Obligations.HollonStore : Prop :=
  ∀ s : State,
    (s.live = true → s.holStage = stgFull → s.fldR Reg.HOL_STATUS 8 8 = 0 → s.mgt.component ≠ some 2 →
      ∃ t, exec (.holStore 0) s = .next t ∧ t.fldR Reg.HOL_STATUS 8 8 = 1 ∧ t.fldR Reg.HOL_STATUS 23 16 = 0 ∧
        (∃ raise, t.hol = { s.hol with storing := some (s.storeSlot, s.verifiedBytes, raise) }) ∧
        (s.putHol t.hol).onlyRegs t [Reg.HOL_STATUS]) ∧
    (s.live = true → s.holStage = stgFull → s.fldR Reg.HOL_STATUS 8 8 = 1 →
      ∃ t, exec (.holStore 0) s = .next t ∧ t.fldR Reg.HOL_STATUS 23 16 = 0x0D ∧ s.onlyRegs t [Reg.HOL_STATUS]) ∧
    (∀ slot bs raise, s.hol.storing = some (slot, bs, raise) →
      (slot < s.sec.holSlots.length →
        ∃ t, exec (.holStoreDone true) s = .next t ∧ t.fldR Reg.HOL_STATUS 8 8 = 0 ∧ t.hol.storing = none ∧
          t.sec.holSlots.getD slot [] = bs ∧ t.sec.boot.holSlot = some slot ∧
          (∀ k, k ≠ slot → t.sec.holSlots.getD k [] = s.sec.holSlots.getD k []) ∧
          t.fldR Reg.HOL_VERSION_FLOOR 31 0 =
            if raise then max (s.fldR Reg.HOL_VERSION_FLOOR 31 0) (imgHeader bs).version % 2 ^ 32
            else s.fldR Reg.HOL_VERSION_FLOOR 31 0) ∧
      ∃ t, exec (.holStoreDone false) s = .next t ∧ t.fldR Reg.HOL_STATUS 8 8 = 0 ∧ t.fldR Reg.HOL_STATUS 7 7 = 1 ∧
        t.sec = s.sec ∧ t.hol = { s.hol with storing := none })

/-! ### Management (17_management_and_background.md) -/

/-- Effecters. In a powered part a value in range takes effect and is answered with success: AUTO_BOOT and SAFE_BOOT set or
clear their bit, POWER_MODE and STEP_CEILING show the BMC's value in PWR_STAT, DOMAIN_REQUEST sets or clears the
management request of a domain other than PD00 to PD03, LOG_SNAPSHOT 1 starts a log write. BMC_DEVICE_ID, and
CLX_ID_WRITE of the physical function, is taken while JOIN is 0 in force, clearing DUP_ID for an ID no known device
holds, and refused with ID_REJECT otherwise. A value out of range is answered ERROR_INVALID_DATA and
changes nothing else (R319, R322, R337, R375, R381, R386, R388, R409, R420, Table 17.1). -/
def Obligations.Effecters : Prop :=
  ∀ s : State, s.devState ≠ stOff →
    (∀ v, v = 1 ∨ v = 2 →
      (∃ t, exec (.autoBoot v) s = .next t ∧ t.fldR Reg.MGT_STAT 63 63 = 2 - v ∧ t.out.resp = .pldm ccSuccess [] ∧
        (s.putOut t.out).onlyRegs t [Reg.MGT_STAT]) ∧
      (∃ t, exec (.safeBoot v) s = .next t ∧ t.fldR Reg.MGT_STAT 62 62 = 2 - v ∧ t.out.resp = .pldm ccSuccess [] ∧
        (s.putOut t.out).onlyRegs t [Reg.MGT_STAT]) ∧
      (∃ t, exec (.logSnapshot v) s = .next t ∧ t.mgt.writing = (s.mgt.writing || decide (v = 1)) ∧
        t = (s.putMgt { s.mgt with writing := t.mgt.writing }).putOut t.out ∧ t.out.resp = .pldm ccSuccess []) ∧
      (∀ d, 4 ≤ d → d < 30 →
        ∃ t, exec (.domainRequest d v) s = .next t ∧ t.fldR Reg.MGT_DOMAIN d d = 2 - v ∧
          (∀ k, k < 30 → k ≠ d → t.fldR Reg.MGT_DOMAIN k k = s.fldR Reg.MGT_DOMAIN k k) ∧
          t.out.resp = .pldm ccSuccess [] ∧ t.pwr = s.pwr ∧ s.sameMemory t ∧ s.sameWork t) ∧
      ∀ d, d < 4 → exec (.domainRequest d v) s = .next (s.putOut { s.out with resp := .pldm ccSuccess [] })) ∧
    (∀ v, v ≤ 2 →
      ∃ t, exec (.powerMode v) s = .next t ∧ t.fldR Reg.PWR_STAT 49 48 = v ∧
        t.fldR Reg.PWR_STAT 55 55 = (if min 2 (s.fldR Reg.PWR_CFG 63 62) = v then 0 else 1) ∧
        t.out.resp = .pldm ccSuccess [] ∧ (s.putOut t.out).onlyRegs t [Reg.PWR_STAT]) ∧
    (∀ v, v ≤ 15 →
      ∃ t, exec (.stepCeiling v) s = .next t ∧ t.fldR Reg.PWR_STAT 53 50 = v ∧ t.out.resp = .pldm ccSuccess [] ∧
        (s.putOut t.out).onlyRegs t [Reg.PWR_STAT]) ∧
    (∀ v, v < 65536 →
      ∃ t, exec (.bmcDeviceId v) s = .next t ∧ t.out.resp = .pldm ccSuccess [] ∧
        (s.effF Reg.CLX_CFG 63 63 = 0 → t.fldR Reg.CLX_ID 15 0 = v ∧
          ((∀ k ∈ s.fab.known, k.1 = v → k.2.1 = s.reg Reg.GLB_SERIAL) → t.fldR Reg.CLX_STAT 57 57 = 0)) ∧
        (s.effF Reg.CLX_CFG 63 63 = 1 → t.reg Reg.CLX_ID = s.reg Reg.CLX_ID ∧ t.fldR Reg.CLX_STAT 56 56 = 1) ∧
        (s.putOut t.out).onlyRegs t [Reg.CLX_ID, Reg.CLX_STAT]) ∧
    (∀ fn v, (fn ≠ 0 ∨ s.live = false → exec (.clxIdWrite fn v) s = .next s) ∧
      (fn = 0 → s.live = true → s.effF Reg.CLX_CFG 63 63 = 0 →
        ∃ t, exec (.clxIdWrite fn v) s = .next t ∧ t.fldR Reg.CLX_ID 15 0 = fld v 15 0 ∧
          ((∀ k ∈ s.fab.known, k.1 = fld v 15 0 → k.2.1 = s.reg Reg.GLB_SERIAL) → t.fldR Reg.CLX_STAT 57 57 = 0) ∧
          s.onlyRegs t [Reg.CLX_ID, Reg.CLX_STAT]) ∧
      (fn = 0 → s.live = true → s.effF Reg.CLX_CFG 63 63 = 1 →
        ∃ t, exec (.clxIdWrite fn v) s = .next t ∧ t.fldR Reg.CLX_STAT 56 56 = 1 ∧ s.onlyRegs t [Reg.CLX_STAT])) ∧
    ∀ v, 65536 ≤ v → ∀ c ∈ [Instr.autoBoot v, .safeBoot v, .logSnapshot v, .domainRequest 4 v, .powerMode v, .stepCeiling v,
        .bmcDeviceId v, .bmcStateRequest v],
      exec c s = .next (s.putOut { s.out with resp := .pldm ccInvalidData [] })

/-- Reading over PLDM changes nothing but the response: sensors of input power and the error log, state sensors of
the device state, the power mode and the domains, the present values of AUTO_BOOT and STEP_CEILING, the repository's
summary and the error log's entries; an unknown sensor or effecter is answered INVALID_SENSOR_ID (R420, R424,
Tables 17.1, 17.2).
MCTP control: SET_ENDPOINT_ID takes the binding's endpoint ID into MGT_STAT, GET_ENDPOINT_ID returns it; version support
is answered 0x80 for a message type not carried, the types are control, PLDM and SPDM, and the UUID follows from the
serial number (R419). -/
def Obligations.SensorsAndEndpoints : Prop :=
  (∀ s : State, s.devState ≠ stOff →
     let tells (c : Instr) (cc : Nat) (body : List Nat) := exec c s = .next (s.putOut { s.out with resp := .pldm cc body })
     tells (.getSensorReading 0x11) ccSuccess
       [s.fldR Reg.PWR_INPUT 63 48, s.fldR Reg.PWR_INPUT 47 32, s.fldR Reg.PWR_INPUT 31 16] ∧
     tells (.getSensorReading 0x20) ccSuccess [s.mgt.log.length, s.fldR Reg.MGT_LOG_STAT 31 16] ∧
     tells (.getStateSensorReadings 0x10) ccSuccess [s.devState] ∧
     tells (.getStateSensorReadings 0x13) ccSuccess [s.fldR Reg.PWR_STAT 63 62] ∧
     (∀ d, d < 30 → tells (.getStateSensorReadings (0x100 + d)) ccSuccess
       [b2n (s.pwr.on.testBit d), s.fldR Reg.CTX_DISAGREE d d]) ∧
     tells (.getStateEffecterStates 2) ccSuccess [2 - s.fldR Reg.MGT_STAT 63 63] ∧
     tells (.getNumericEffecterValue 6) ccSuccess [s.fldR Reg.PWR_STAT 53 50] ∧
     (∀ h e, 0x1000 ≤ h → s.logView[h - 0x1000]? = some e →
       tells (.getPdr h) ccSuccess [e.w0.toNat, e.w1.toNat, e.w2.toNat, e.w3.toNat]) ∧
     (∀ id, 0x200 < id → tells (.getSensorReading id) ccInvalidSensor [] ∧ tells (.getStateSensorReadings id) ccInvalidSensor [] ∧
       tells (.getStateEffecterStates id) ccInvalidSensor [] ∧ tells (.getNumericEffecterValue id) ccInvalidSensor []) ∧
     tells .getPdrRepositoryInfo ccSuccess Config.pdrInfo) ∧
  (∀ s : State, s.devState ≠ stOff →
     (∀ b eid, b < 2 → eid < 256 →
       ∃ t, exec (.setEndpointId b eid) s = .next t ∧ (s.putOut t.out).onlyRegs t [Reg.MGT_STAT] ∧
         t.out = { s.out with resp := .mctp 0 [eid] } ∧
         exec (.getEndpointId b) t = .next t ∧
         ∀ k, k < 2 → k ≠ b → exec (.getEndpointId k) t =
           .next (t.putOut { t.out with resp := .mctp 0 [if k = 0 then s.fldR Reg.MGT_STAT 47 40 else s.fldR Reg.MGT_STAT 39 32] })) ∧
     ∀ b, exec (.getMessageTypeSupport b) s = .next (s.putOut { s.out with resp := .mctp 0 [0x00, 0x01, 0x05] }) ∧
       exec (.getEndpointUuid b) s = .next (s.putOut { s.out with resp := .mctp 0 (Config.uuid (s.reg Reg.GLB_SERIAL)) }) ∧
       ∀ ty, exec (.getMctpVersionSupport b ty) s = .next (respond s
         (if ty = 0 ∨ ty = 1 ∨ ty = 5 ∨ ty = 0xFF then .mctp 0 [1] else .mctp 0x80 [])))

/-- Platform events: SET_EVENT_RECEIVER names the receiver; PLATFORM_EVENT_ACKNOWLEDGE removes exactly the event named and
deasserts ALERT# when none is left and no power-fail sequence runs; POLL_FOR_PLATFORM_EVENT_MESSAGE acknowledges and
returns the oldest event left (R418, R420, R421). -/
def Obligations.Events : Prop :=
  ∀ s : State, s.devState ≠ stOff →
    (∀ eid, exec (.setEventReceiver eid) s =
      .next ((s.putMgt { s.mgt with receiver := some eid }).putOut { s.out with resp := .pldm ccSuccess [] })) ∧
    (∀ id, ∃ t, exec (.platformEventAcknowledge id) s = .next t ∧
      (∀ e, e ∈ t.mgt.events ↔ e ∈ s.mgt.events ∧ e.id ≠ id) ∧
      (t.out.alert = false ↔ (∀ e ∈ s.mgt.events, e.id = id) ∧ s.fldR Reg.PWR_STAT 58 58 = 0) ∧
      t = (s.putMgt { s.mgt with events := t.mgt.events }).putOut { s.out with alert := t.out.alert }) ∧
    ∀ e rest, s.mgt.events = e :: rest → (∀ x ∈ rest, x.id ≠ e.id) →
      (∃ t, exec (.pollForPlatformEventMessage none) s = .next t ∧ t.out.resp = .pldm ccSuccess [e.id, e.kind, e.data] ∧
        t = s.putOut t.out) ∧
      ∃ t, exec (.pollForPlatformEventMessage (some e.id)) s = .next t ∧ t.mgt.events = rest ∧
        t.out.resp = .pldm ccSuccess (match rest with
          | [] => []
          | x :: _ => [x.id, x.kind, x.data])

/-- Update. REQUEST_UPDATE opens update mode for one agent; UPDATE_COMPONENT and blocks of at most 4,096 B come from that agent
only; a block's bytes stand at its offset; a component that verifies is written (firmware to the slot that does not
run), one that does not is reported VERIFY_ERROR, and the running slot is never touched; ACTIVATE_FIRMWARE makes the
written slot preferred, on trial, and ends update mode (R403, R422, R423). -/
def Obligations.FirmwareUpdate : Prop :=
  ∀ (s : State) (agent : Nat),
    (s.live = true → s.mgt.updater = none →
      ∃ t, exec (.requestUpdate agent) s = .next t ∧ t.mgt.updater = some agent ∧ t.mgt.component = none ∧
        t.out.resp = .pldm ccSuccess [] ∧ t = (s.putMgt t.mgt).putOut t.out) ∧
    (s.devState ≠ stOff → s.mgt.updater = some agent →
      ∃ t, exec (.updateComponent agent 1) s = .next t ∧ t.mgt = { s.mgt with component := some 1, received := [] } ∧
        t.out.resp = .pldm ccSuccess [] ∧ t = (s.putMgt t.mgt).putOut t.out) ∧
    (∀ off bytes, s.mgt.updater = some agent → s.mgt.component.isSome = true → bytes.length ≤ 4096 →
      ∃ t, exec (.componentDataTransfer agent off bytes) s = .next t ∧
        (∀ i, i < bytes.length → t.mgt.received[off + i]? = bytes[i]?) ∧
        (∀ i, i < s.mgt.received.length → (i < off ∨ off + bytes.length ≤ i) → t.mgt.received[i]? = s.mgt.received[i]?) ∧
        t = s.putMgt { s.mgt with received := t.mgt.received }) ∧
    (s.mgt.component = some 1 → s.sec.runSlot < 2 → s.sec.fwSlots.length = 2 →
      ∃ t, exec .componentVerifyDone s = .next t ∧ t.mgt.component = none ∧
        t.sec.fwSlots.getD (1 - s.sec.runSlot) [] = s.mgt.received ∧
        t.sec.fwSlots.getD s.sec.runSlot [] = s.sec.fwSlots.getD s.sec.runSlot [] ∧
        (s.fwResult s.mgt.received = 0 → t.out.resp = .pldm ccSuccess [] ∧ t.mgt.activatable = some (1 - s.sec.runSlot)) ∧
        (s.fwResult s.mgt.received ≠ 0 → t.out.resp = .pldm ccVerifyError [] ∧ t.mgt.activatable = s.mgt.activatable)) ∧
    (∀ slot, s.devState ≠ stOff → s.mgt.updater = some agent → s.mgt.activatable = some slot →
      ∃ t, exec (.activateFirmware agent) s = .next t ∧ t.sec.boot.preferred = slot ∧ t.sec.boot.trial = true ∧
        t.mgt.updater = none ∧ t.mgt.activatable = none ∧ t.out.resp = .pldm ccSuccess []) ∧
    (s.devState ≠ stOff → s.mgt.updater ≠ some agent →
      (∀ off bytes, exec (.componentDataTransfer agent off bytes) s = .next s) ∧
      ∀ k, exec (.updateComponent agent k) s = .next (s.putOut { s.out with resp := .pldm ccNotInUpdateMode [] }))

/-- The error log and ageing. LOG_FLUSH_TIMER starts a write while an entry of severity 2 or more is unwritten;
LOG_WRITE_COMPLETE, unless a STORE or a component is being written, leaves the SRAM log as the newest of at most 16
snapshots; MGT_LOG_CLEAR empties the SRAM log and keeps the snapshots (R425, R429). AGEING_CHECK that finds a fallen
margin raises the group's trim by one of ten steps, never lowers one, and MGT_AGE shows the trim, with LIMIT at the tenth
(R430). -/
def Obligations.LogAndAgeing : Prop :=
  ∀ s : State,
    (s.devState ≠ stOff → s.mgt.unwritten = true → exec .logFlushTimer s = .next (s.putMgt { s.mgt with writing := true })) ∧
    (s.mgt.writing = true → s.fldR Reg.HOL_STATUS 8 8 = 0 → s.mgt.component = none →
      ∃ t, exec .logWriteComplete s = .next t ∧ t.mgt.snapshots = (s.mgt.log :: s.mgt.snapshots).take 16 ∧
        t.mgt.log = s.mgt.log ∧ t.mgt.writing = false ∧ t.mgt.unwritten = false ∧ t = s.putMgt t.mgt) ∧
    (s.live = true → exec (.mgtLogClear 0) s = .next (s.putMgt { s.mgt with log := [], unwritten := false })) ∧
    (∀ fn, fn ≠ 0 → exec (.mgtLogClear fn) s = .next s) ∧
    ∀ g, g < 16 → s.live = true → s.mgt.trims.length = 16 → s.mgt.trims.getD g 0 < 10 →
      exec (.ageingCheck g false) s = .next s ∧
      ∃ t, exec (.ageingCheck g true) s = .next t ∧ t.mgt.trims.getD g 0 = s.mgt.trims.getD g 0 + 1 ∧
        (∀ k, k ≠ g → t.mgt.trims.getD k 0 = s.mgt.trims.getD k 0) ∧
        fld (t.readPf (Reg.MGT_AGE g)) 3 0 = s.mgt.trims.getD g 0 + 1 ∧
        (s.mgt.trims.getD g 0 = 9 ↔ fld (t.readPf (Reg.MGT_AGE g)) 63 63 = 1) ∧
        (s.mgt.trims.getD g 0 < 9 → t = s.putMgt { s.mgt with trims := t.mgt.trims }) ∧ s.sameMemory t ∧ s.sameWork t

/-! ### Security (16_boot_and_security.md) -/

/-- SEC_CMD. While a command runs, another is refused with BUSY and changes only RESULT. ADVANCE_SVN and REVOKE_KEY are refused
with STATE outside READY, RUN and SAFE, RANGE for an argument above the running image's svn or for the running image's
own key; ADVANCE_SVN with SLOTS past the svn of the other valid slot; ENROLL_OWNER and CLEAR_OWNER with STATE outside SAFE. A
command that passes sets BUSY and RESULT 0; fuses change only when it completes (R405, Tables 16.5, 16.15).
SEC_OP_COMPLETE ends BUSY. Done: the rollback count reaches the argument and never falls, the key's REVOKE fuse is blown
and none is restored, the owner key of SEC_OWNER_KEY is stored or erased and the version floor of the next boot is 0.
Failed: RESULT is FUSE_FAIL and the rollback count lies between its old value and the argument (R405). -/
def Obligations.SecurityCommands : Prop :=
  (∀ s : State, 2 ≤ s.devState →
     let result (c : Instr) (op r : Nat) := ∃ t, exec c s = .next t ∧ t.fldR Reg.SEC_CMD_STATUS 62 60 = r ∧
       t.fldR Reg.SEC_CMD_STATUS 59 56 = op ∧ s.onlyRegs t [Reg.SEC_CMD_STATUS]
     let starts (c : Instr) (op arg : Nat) := ∃ t, exec c s = .next t ∧ t.fldR Reg.SEC_CMD_STATUS 63 63 = 1 ∧
       t.fldR Reg.SEC_CMD_STATUS 62 60 = secOk ∧ t.fldR Reg.SEC_CMD_STATUS 59 56 = op ∧
       t.sec = { s.sec with op := some (op, arg) } ∧ (s.putSec t.sec).onlyRegs t [Reg.SEC_CMD_STATUS]
     let otherSlot := Reg.SEC_SLOT (1 - s.fldR Reg.SEC_STAT 55 55)
     (s.fldR Reg.SEC_CMD_STATUS 63 63 = 1 → ∀ arg, ∀ c ∈ [Instr.advanceSvn 0 arg, .revokeKey 0 arg, .enrollOwner 0, .clearOwner 0],
       ∃ t, exec c s = .next t ∧ t.fldR Reg.SEC_CMD_STATUS 62 60 = secBusy ∧ s.onlyRegs t [Reg.SEC_CMD_STATUS]) ∧
     (s.fldR Reg.SEC_CMD_STATUS 63 63 = 0 → ∀ arg,
       (s.live = false → result (.advanceSvn 0 arg) 1 secState ∧ result (.revokeKey 0 arg) 2 secState) ∧
       (s.live = true → s.fldR Reg.SEC_STAT 45 39 < arg → result (.advanceSvn 0 arg) 1 secRange) ∧
       (s.live = true → arg ≤ s.fldR Reg.SEC_STAT 45 39 → s.fldR otherSlot 63 63 = 1 → s.fldR otherSlot 54 48 < arg →
         result (.advanceSvn 0 arg) 1 secSlots) ∧
       (s.live = true → arg ≤ s.fldR Reg.SEC_STAT 45 39 → s.fldR otherSlot 63 63 = 0 → s.sec.rollback < arg →
         starts (.advanceSvn 0 arg) 1 arg) ∧
       (s.live = true → arg % 2 = s.fldR Reg.SEC_STAT 46 46 → result (.revokeKey 0 arg) 2 secRange) ∧
       (s.live = true → arg % 2 ≠ s.fldR Reg.SEC_STAT 46 46 → s.fldR otherSlot 63 63 = 0 → starts (.revokeKey 0 arg) 2 arg) ∧
       (s.devState = stSafe → starts (.enrollOwner 0) 3 0 ∧ starts (.clearOwner 0) 4 0) ∧
       (s.devState ≠ stSafe → result (.enrollOwner 0) 3 secState ∧ result (.clearOwner 0) 4 secState)) ∧
     ∀ fn arg, fn ≠ 0 → ∀ c ∈ [Instr.advanceSvn fn arg, .revokeKey fn arg, .enrollOwner fn, .clearOwner fn], exec c s = .next s) ∧
  (∀ (s : State) (op arg : Nat), s.sec.op = some (op, arg) →
     (∃ t, exec (.secOpComplete true) s = .next t ∧ t.fldR Reg.SEC_CMD_STATUS 63 63 = 0 ∧
       t.fldR Reg.SEC_CMD_STATUS 62 60 = secOk ∧ t.sec.op = none ∧
       (op = 1 → t.sec.rollback = max s.sec.rollback arg ∧ t.sec.revoke = s.sec.revoke) ∧
       (op = 2 → (∀ k, t.sec.revoke.testBit k = (s.sec.revoke.testBit k || decide (k = arg % 2))) ∧
         t.sec.rollback = s.sec.rollback) ∧
       (op = 3 → t.sec.floorNext = some 0 ∧ ∃ key, t.sec.ownerStored = some key ∧ key.length = 32 ∧
         ∀ w, w < 4 → wordAt key w = s.reg (Reg.SEC_OWNER_KEY w)) ∧
       (op = 4 → t.sec.ownerStored = none ∧ t.sec.floorNext = some 0) ∧
       (s.putSec t.sec).onlyRegs t [Reg.SEC_CMD_STATUS]) ∧
     ∃ t, exec (.secOpComplete false) s = .next t ∧ t.fldR Reg.SEC_CMD_STATUS 63 63 = 0 ∧
       t.fldR Reg.SEC_CMD_STATUS 62 60 = secFuseFail ∧ t.sec.op = none ∧ t.sec.revoke = s.sec.revoke ∧
       t.sec.ownerStored = s.sec.ownerStored ∧
       (op = 1 → s.sec.rollback ≤ arg → s.sec.rollback ≤ t.sec.rollback ∧ t.sec.rollback ≤ arg) ∧
       (op ≠ 1 → t.sec.rollback = s.sec.rollback))

/-- SPDM before its turn. Until the firmware runs every request is answered ERROR Busy; then GET_VERSION starts a connection
anew, and a request that needs a later stage than the connection has reached is answered ERROR UnexpectedRequest; a
request the responder does not support is answered UnsupportedRequest. None of these touches the other connection
(R414, R415).
SPDM in its turn. GET_CAPABILITIES and NEGOTIATE_ALGORITHMS advance the connection; GET_DIGESTS carries the SHA-256 of the
certificate chain; these three add request and response to the transcript. GET_CERTIFICATE answers the chain's bytes from
the offset asked for; CHALLENGE a signature over the whole transcript; GET_MEASUREMENTS of operation 0 the number of
blocks, 6. The first chunk of CHUNK_SEND is acknowledged, the acknowledgement of the last carries the answer to the whole request,
and CHUNK_GET answers the chunk asked for. All but CHALLENGE
change nothing outside the connection, the response and the counter of free values (R413, R415, R416, Table 16.9). -/
def Obligations.SpdmRequests : Prop :=
  (∀ (s : State) (b : Nat) (req : List Byte), b < 2 → s.devState ≠ stOff →
     (s.spdmReady = false → ∀ c ∈ [Instr.getVersion b req, .getCapabilities b req, .negotiateAlgorithms b req, .getDigests b req,
         .getCertificate b req, .challenge b req, .getMeasurements b req, .chunkSend b req, .chunkGet b req,
         .respondIfReady b req, .spdmUnsupportedRequest b req],
       exec c s = .next (s.putOut { s.out with resp := .spdmError spdmBusy })) ∧
     (s.spdmReady = true →
       ((s.conn b).stage < 3 → ∀ c ∈ [Instr.getDigests b req, .getCertificate b req, .challenge b req, .getMeasurements b req,
           .chunkSend b req, .chunkGet b req, .respondIfReady b req],
         exec c s = .next (s.putOut { s.out with resp := .spdmError spdmUnexpected })) ∧
       ((s.conn b).stage = 0 → exec (.getCapabilities b req) s = .next (s.putOut { s.out with resp := .spdmError spdmUnexpected })) ∧
       ((s.conn b).stage < 2 →
         exec (.negotiateAlgorithms b req) s = .next (s.putOut { s.out with resp := .spdmError spdmUnexpected })) ∧
       exec (.spdmUnsupportedRequest b req) s = .next (s.putOut { s.out with resp := .spdmError spdmUnsupported }) ∧
       ((s.conn b).stage = 3 → req ≠ [] →
         exec (.respondIfReady b req) s = .next (s.putOut { s.out with resp := .spdmError spdmUnexpected })) ∧
       (s.sec.conns.length = 2 →
         ∃ t, exec (.getVersion b req) s = .next t ∧ (t.conn b).stage = 1 ∧
           (∃ rsp, (t.conn b).transcript = req ++ rsp ∧ t.out.resp = .spdm rsp ∧ (t.conn b).measTranscript = []) ∧
           (∀ k, k ≠ b → t.conn k = s.conn k) ∧
           t = (s.putSec { s.sec with conns := t.sec.conns }).putOut t.out))) ∧
  (∀ (s : State) (b : Nat) (req : List Byte), b < 2 → s.spdmReady = true → s.devState ≠ stOff → s.sec.conns.length = 2 →
     let answers (c : Instr) (P : State → List Byte → Prop) := ∃ t rsp, exec c s = .next t ∧ t.out.resp = .spdm rsp ∧ P t rsp ∧
       (∀ k, k ≠ b → t.conn k = s.conn k) ∧ t = ((s.putSec { s.sec with conns := t.sec.conns }).putOut t.out).putFree t.free
     ((s.conn b).stage = 1 → answers (.getCapabilities b req) fun t rsp => (t.conn b).stage = 2 ∧
       (t.conn b).transcript = (s.conn b).transcript ++ (req ++ rsp)) ∧
     ((s.conn b).stage = 2 → answers (.negotiateAlgorithms b req) fun t rsp => (t.conn b).stage = 3 ∧
       (t.conn b).transcript = (s.conn b).transcript ++ (req ++ rsp)) ∧
     (3 ≤ (s.conn b).stage →
       (s.sec.certArea.isSome = true → answers (.getDigests b req) fun t rsp => rsp.drop 4 = sha256 s.certChain ∧
         (t.conn b).transcript = (s.conn b).transcript ++ (req ++ rsp)) ∧
       (s.sec.certArea.isSome = true → rb req 2 % 16 = 0 → rb req 4 + 256 * rb req 5 < s.certChain.length →
         answers (.getCertificate b req) fun _ rsp => rsp.drop 8 =
           (s.certChain.drop (rb req 4 + 256 * rb req 5)).take (min (rb req 6 + 256 * rb req 7) 4088)) ∧
       (s.sec.certArea.isSome = true → rb req 2 = 0 → ∃ t body sig, exec (.challenge b req) s = .next t ∧
         (t.out.resp = .spdm (body ++ sig) ∨ (t.conn b).chunkOut = some (1, body ++ sig)) ∧
         sig = Config.slhSign s.sec.aliasSeeds (Config.spdmPrefix 0 ++ sha256 ((s.conn b).transcript ++ req ++ body))) ∧
       (rb req 3 = 0 → rb req 2 % 2 = 0 → answers (.getMeasurements b req) fun t rsp => rb rsp 2 = 6 ∧
         (t.conn b).measTranscript = (s.conn b).measTranscript ++ req ++ rsp) ∧
       (rb req 4 + 256 * rb req 5 = 0 → rb req 2 % 2 = 0 → answers (.chunkSend b req) fun t _ => (t.conn b).chunkIn =
         some (rb req 3, 1, (req.drop 16).take (leNat ((req.drop 8).take 4)))) ∧
       (rb req 4 + 256 * rb req 5 = 0 → rb req 2 % 2 = 1 → answers (.chunkSend b req) fun t rsp => (t.conn b).chunkIn = none ∧
         rsp.take 4 = [0x12, 0x05, 0, by8 (rb req 3)]) ∧
       (∀ msg, (s.conn b).chunkOut = some (rb req 3, msg) → rb req 4 + 256 * rb req 5 = 0 → msg ≠ [] → msg.length ≤ 4080 →
         answers (.chunkGet b req) fun t rsp => rsp.drop 16 = msg ∧ (t.conn b).chunkOut = none)))

/-! ### Contexts (14_contexts_and_scheduling.md) -/

/-- CTX_OPEN by the physical function of a FREE context in a defined partition with room, in READY, RUN or SAFE, with no
full image waiting, no structure applying, no fragment past its first edge, and a free ring range: the context is OPEN in that partition with that range, its address
registers, budget and return ring are at reset and in force, its class is the partition's default, and READY becomes RUN
(R356, R358, R359, Table 0.6). On a busy unit, a context not FREE, an undefined partition, or a range past the last ring,
only CTX_CMD_STATUS changes and names BUSY, STATE, PARTITION or RINGS.
CTX_CLOSE of an OPEN context closes every ring of its range: each reads CLOSING or CLOSED; with no ring open, no command
and no record waiting the context is FREE at once, and RUN becomes READY when it was the last (R82, R360, R361).
CTX_TEARDOWN leaves the context TORN_DOWN with cause 3 and nothing of it in flight, in slots, in the KV unit or in its
rings; every other context, and all of memory, stand (R373). -/
def Obligations.ContextsOpenAndEnd : Prop :=
  (∀ (s : State) (p n count first : Nat), s.live = true → n < 4096 →
     (s.ctxBusy = false → s.ctxState n = 0 → (s.part p).defined = true → s.fldR Reg.HOL_STATUS 10 10 = 0 →
       s.hol.pendFull = none → (s.hol.pendFrag = none ∨ s.hol.draining = false) →
       (s.openCtxs.filter fun m => decide (s.ctxPart m = p)).length < (s.part p).maxCtx → first + count ≤ 262144 →
       (∀ m ∈ s.openCtxs, first + count ≤ (s.ctx m).first ∨ (s.ctx m).first + (s.ctx m).count ≤ first) →
       ∃ t, exec (.ctxOpen 0 p n count first) s = .next t ∧ t.ctxState n = 1 ∧ t.ctxPart n = p ∧ t.ctxFn n = (s.part p).fn ∧
         (t.ctx n).first = first ∧ (t.ctx n).count = count ∧ (t.ctx n).recs = [] ∧
         (∀ off ∈ [Reg.CTX_CORES n, Reg.CTX_PT_ROOT n, Reg.CTX_SAVE n, Reg.CTX_STATE_TBL n, Reg.CTX_KEY_TBL n,
           Reg.TCK_CTX_BUDGET n], t.reg off = regReset off ∧ t.effReg off = regReset off) ∧
         t.effF (Reg.CTX_CFG n) 61 61 = (s.part p).frag.defClass % 2 ∧ t.fldR (Reg.RING_RET_CFG n) 63 63 = 0 ∧
         t.devState = (if s.devState = stReady then stRun else s.devState) ∧ t.fldR Reg.CTX_CMD_STATUS 43 40 = resOk ∧
         t.fldR Reg.CTX_CMD_STATUS 55 44 = n ∧ (∀ m, m ≠ n → t.ctxPart m = s.ctxPart m) ∧
         ((∀ x ∈ s.tick.discards, x.1 ≠ n) → s.sameMemory t ∧ t.rings = s.rings ∧ t.flight = s.flight ∧
           ∀ m, m ≠ n → t.ctx m = s.ctx m)) ∧
     ∀ res, (res = resBusy ∧ s.ctxBusy = true) ∨ (res = resState ∧ s.ctxBusy = false ∧ s.ctxState n ≠ 0) ∨
         (res = resPartition ∧ s.ctxBusy = false ∧ s.ctxState n = 0 ∧ (s.part p).defined = false) ∨
         (res = resRings ∧ s.openResult 0 p n 0 0 = resOk ∧ 262144 < first + count) →
       ∃ t, exec (.ctxOpen 0 p n count first) s = .next t ∧ t.fldR Reg.CTX_CMD_STATUS 43 40 = res ∧
         t.fldR Reg.CTX_CMD_STATUS 59 56 = opOpen ∧ s.onlyRegs t [Reg.CTX_CMD_STATUS]) ∧
  (∀ (s : State) (n : Nat), s.live = true → n < 4096 → s.ctxBusy = false → s.ctxState n = 1 →
     ((s.ctx n).closing = false →
       ∃ t, exec (.ctxClose 0 n) s = .next t ∧ t.fldR Reg.CTX_CMD_STATUS 43 40 = resOk ∧
         t.fldR Reg.CTX_CMD_STATUS 59 56 = opClose ∧
         (∀ r, (s.ctx n).first ≤ r → r < (s.ctx n).first + (s.ctx n).count → (t.ring r).state = 0 ∨ (t.ring r).state = 5) ∧
         ((∀ r, (s.ctx n).first ≤ r → r < (s.ctx n).first + (s.ctx n).count → (s.ring r).state = 0) → s.ctxFlight n = [] →
           (s.ctx n).recs = [] → t.ctxState n = 0 ∧ s.sameMemory t ∧ t.rings = s.rings ∧ t.flight = s.flight ∧
             (∀ m, m ≠ n → t.ctx m = s.ctx m) ∧
             (s.devState = stRun → t.openCtxs = [] → t.devState = stReady))) ∧
     ∃ t, exec (.ctxTeardown 0 n) s = .next t ∧ t.ctxState n = 5 ∧ (t.ctx n).cause = 3 ∧ (t.ctx n).recs = [] ∧
       t.fldR Reg.CTX_CMD_STATUS 43 40 = resOk ∧ t.flight = s.flight.filter (fun e => decide (e.ctx ≠ n)) ∧
       t.slots = s.slots.filter (fun x => decide (x.ctx ≠ n)) ∧ (∀ k ∈ t.kv.slots, k.ctx ≠ n) ∧
       (∀ r, (s.ctx n).first ≤ r → r < (s.ctx n).first + (s.ctx n).count → (t.ring r).state = 0) ∧
       (∀ r, r < (s.ctx n).first ∨ (s.ctx n).first + (s.ctx n).count ≤ r → t.ring r = s.ring r) ∧
       (∀ m, m ≠ n → t.ctx m = s.ctx m) ∧ s.sameMemory t)

/-- CTX_SAVE of an OPEN context stops its fetching: SAVING, BUSY set, and nothing else. SAVE_IMAGE_WRITE of a quiet SAVING context
that holds no command, slot or retained range, whose image fits the save area and can be written, ends BUSY with every ring of
the context CLOSED and the context SAVED, or TORN_DOWN where a ring's descriptor could not be written back; with its rings CLOSED
already it puts exactly that image at CTX_SAVE, leaves the context SAVED and every other context as it was. An image larger than
the area ends the SAVE with SAVE_AREA and the context OPEN again, memory untouched (R80, R368, R369, R373).
CTX_RESTORE into an OPEN context with every ring CLOSED and nothing in flight. An image whose rings are all CLOSED and that
keeps no slot and no command puts its budget and class in force, brings its records back behind those that wait, as long as the
return ring could hold each, and reports OK; a save area that holds no image is refused with FORMAT, one for another number of
rings with STATE, and neither changes contexts, rings or work, nor the bytes of memory in which no error stands (R371, R372). -/
def Obligations.ContextsSavedAndRestored : Prop :=
  (∀ (s : State) (n : Nat) (discard : Bool), s.live = true → n < 4096 →
     (s.ctxBusy = false → s.ctxState n = 1 → (s.ctx n).closing = false → s.saveUnavail n (s.saveHandles n) = false →
       ∃ t, exec (.ctxSave 0 n discard) s = .next t ∧ t.ctx n = { s.ctx n with state := 2, saving := some discard } ∧
         t.fldR Reg.CTX_CMD_STATUS 63 63 = 1 ∧ t.fldR Reg.CTX_CMD_STATUS 59 56 = opSave ∧
         t.fldR Reg.CTX_CMD_STATUS 55 44 = n ∧ (∀ m, m ≠ n → t.ctx m = s.ctx m) ∧
         (s.putCtxs t.ctxs).onlyRegs t [Reg.CTX_CMD_STATUS]) ∧
     ∀ bs, (s.ctx n).saving = some discard → s.ctxState n = 2 → s.quiet n = true → s.ctxFlight n = [] → s.ctxSlots n = [] →
       (∀ r ∈ s.retained, r.ctx ≠ n) → s.saveUnavail n (s.saveHandles n) = false → s.mem.clearing = [] →
       saveImage s n discard = .ok bs →
       (bs.length ≤ s.saveSize n → (vwrite s n (s.saveBase n) bs).2 = none →
         ∃ t, exec (.saveImageWrite n) s = .next t ∧ (t.ctxState n = 3 ∨ t.ctxState n = 5) ∧ (t.ctx n).saving = none ∧
           (t.ctx n).recs = [] ∧ t.fldR Reg.CTX_CMD_STATUS 63 63 = 0 ∧
           (∀ r, (s.ctx n).first ≤ r → r < (s.ctx n).first + (s.ctx n).count → (t.ring r).state = 0) ∧
           ((∀ r, (s.ctx n).first ≤ r → r < (s.ctx n).first + (s.ctx n).count → (s.ring r).state = 0) →
             t.ctxState n = 3 ∧ t.fldR Reg.CTX_CMD_STATUS 43 40 = resOk ∧
             (∀ pa, t.byteAt pa = (vwrite s n (s.saveBase n) bs).1.byteAt pa) ∧ ∀ m, m ≠ n → t.ctx m = s.ctx m)) ∧
       (s.saveSize n < bs.length →
         ∃ t, exec (.saveImageWrite n) s = .next t ∧ t.ctx n = { s.ctx n with state := 1, saving := none } ∧
           t.fldR Reg.CTX_CMD_STATUS 63 63 = 0 ∧ t.fldR Reg.CTX_CMD_STATUS 43 40 = resSaveArea ∧ s.sameMemory t ∧
           t.rings = s.rings ∧ t.flight = s.flight)) ∧
  (∀ (s : State) (n : Nat), s.live = true → n < 4096 → s.ctxBusy = false → s.ctxState n = 1 → (s.ctx n).closing = false →
     (∀ r, (s.ctx n).first ≤ r → r < (s.ctx n).first + (s.ctx n).count → (s.ring r).state = 0) → s.ctxFlight n = [] →
     s.saveUnavail n [] = false → s.mem.clearing = [] →
     (∀ bs i, readImage? s n = .ok (some bs) → readImg bs = some i → s.restoreResult n i = resOk → i.slots = [] → i.cmds = [] →
       (∀ x ∈ i.rings, x.state = 0) → s.saveUnavail n (i.rings.map (·.sh)) = false →
       (∀ r ∈ (s.ctx n).recs ++ i.recs, s.oversized n r = false) →
       ∃ t, exec (.ctxRestore 0 n) s = .next t ∧ t.fldR Reg.CTX_CMD_STATUS 43 40 = resOk ∧ t.ctxState n = 1 ∧
         (t.ctx n).restoreParked = 0 ∧ t.effF (Reg.TCK_CTX_BUDGET n) 39 0 = i.budget % 2 ^ 40 ∧
         t.effF (Reg.CTX_CFG n) 61 61 = i.cls % 2 ∧ (t.ctx n).recs.length = (s.ctx n).recs.length + i.recs.length ∧
         (∀ k, k < i.recs.length → ((t.ctx n).recs[(s.ctx n).recs.length + k]?.map (·.payload)) = i.recs[k]?.map (·.payload)) ∧
         t.rings = s.rings ∧ t.flight = s.flight ∧ t.slots = s.slots) ∧
     (readImage? s n = .ok none →
       ∃ t, exec (.ctxRestore 0 n) s = .next t ∧ t.fldR Reg.CTX_CMD_STATUS 43 40 = resFormat ∧ s.sameWork t ∧
         (s.mem.still → s.sameMemory t)) ∧
     ∀ bs i, readImage? s n = .ok (some bs) → readImg bs = some i → i.rings.length ≠ (s.ctx n).count →
       ∃ t, exec (.ctxRestore 0 n) s = .next t ∧ t.fldR Reg.CTX_CMD_STATUS 43 40 = resState ∧ s.sameWork t ∧
         (s.mem.still → s.sameMemory t))

/-! ### The tick (01_rollouts_and_ticks.md) -/

/-- Edges of the device's own tick. A Fixed tick has its edge exactly PERIOD after the last and at no other time. An Elastic one has none
before PERIOD; it falls at its limit while LC work of the interval is outstanding, and otherwise at PERIOD, or at the last LC
completion where that came later and its time is known. An edge that is not due changes nothing. At an edge that is due the tick
number rises by one, modulo 2^48, the interval's length is shown in TCK_LAST_INTERVAL, and the new interval has no completion yet;
the device state stands unless a state request waited, or RUN ends with its last context (R42, R43, R47, R50). A member without a CLASP applies its edge
itself and sets HOLDOVER (R328). -/
def Obligations.TickEdges : Prop :=
  ∀ (s : State) (len : Nat) (tel : List Nat) (used : List (Nat × Nat)), s.tick.running = true → len < 2 ^ 27 →
    (s.inGroup = false → s.fab.sched = none →
      (s.tckMode = 0 → len ≠ s.tckPeriod → exec (.tickEdge len ⟨tel, used⟩) s = .next s) ∧
      (s.tckMode = 1 → len < s.tckPeriod → exec (.tickEdge len ⟨tel, used⟩) s = .next s) ∧
      ((s.tckMode = 0 ∧ len = s.tckPeriod) ∨ (s.tckMode = 1 ∧ s.outstanding true = true ∧ len = s.tckLimit) ∨
          (s.tckMode = 1 ∧ s.outstanding true = false ∧ s.tick.lcOpen = false ∧
            len = min s.tckLimit (max s.tckPeriod s.tick.lcEnd)) → s.dev.stateReq = none →
        ∃ t, exec (.tickEdge len ⟨tel, used⟩) s = .next t ∧ t.tickNum = (s.tickNum + 1) % 2 ^ 48 ∧ t.tick.busyEnd = 0 ∧
          t.fab.edgeAt = s.fab.edgeAt + len ∧ t.fldR Reg.TCK_LAST_INTERVAL 58 32 = len ∧
          (t.devState = s.devState ∨ (s.devState = stRun ∧ t.devState = stReady)))) ∧
    (s.holdoverDue len = true → s.dev.stateReq = none →
      ∃ t, exec (.holdoverEdge len ⟨tel, used⟩) s = .next t ∧ t.tickNum = (s.tickNum + 1) % 2 ^ 48 ∧
        t.fldR Reg.CLX_STAT 59 59 = 1 ∧ t.tick.busyEnd = 0) ∧
    (s.inGroup = false → exec (.holdoverEdge len ⟨tel, used⟩) s = .next s)

/-- What waits for edges or for others. TICK_FENCE, PARK and RESUME, once reached, only mark their command begun: the edge does
the rest (R37, R92). TICK_FENCE_EXPIRY with its edges passed and every earlier command of the ring complete reports OK,
never late (R92), and advances the draw of a state handle it names (R257). STATE_TRANSFER_COMPLETE ends the ring's transfer and
reports its PARK or RESUME (R40). HOLD_LIMIT_EXPIRY after the hold limit in ticks reports UNIT_UNAVAILABLE (R24). Memory stands in
each, but for a draw advanced and pool pages given back.
CORE_YIELD_DONE on a core whose FINISH_LIMIT does not cover the item's remaining time, with no block of it converted: every item the
core holds of the command goes back to the reissue list, YIELDS counts the array's cores, each of which counts one abandoned item, and
the core time is charged to the context (R45, R152, R366, R367). -/
def Obligations.WaitsAndYields : Prop :=
  (∀ (s : State) (id : Nat) (e : Entry), s.runs id e →
     (∀ c op, (c, op) ∈ [(Instr.tickFence id, opcTickFence), (.park id, opcPark), (.resume id, opcResume)] → e.pkt.op = op →
       ∃ t, exec c s = .next t ∧ t.entry id = some { e with begun := true } ∧ (∀ k, k ≠ id → t.entry k = s.entry k) ∧
         t = s.putFlight t.flight) ∧
     (e.pkt.op = opcTickFence → e.edges = 0 → (∀ x ∈ s.ringFlight e.ring, x.id < id → x.done = true) →
       (e.pkt.sh = 0 → ∃ t, exec (.tickFenceExpiry id) s = .next t ∧ s.reports t e 0 ∧
         t.entry id = some { e with done := true, held := none, space := [] } ∧
         (∀ k, k ≠ id → t.entry k = s.entry k) ∧ (∀ n, n ≠ e.ctx → t.ctx n = s.ctx n) ∧ s.sameRegs t [] ∧ s.sameMemory t) ∧
       ∀ u, e.pkt.sh ≠ 0 → advanceDraws s e.ctx [e.pkt.sh] = (u, none) →
         exec (.tickFenceExpiry id) s = .next (complete u id { status := 0 })) ∧
     (e.pkt.op = opcTickFence → e.edges ≠ 0 → exec (.tickFenceExpiry id) s = .next s) ∧
     (e.pkt.op = opcPark ∨ e.pkt.op = opcResume → (s.ring e.ring).transfer = true →
       (∀ x ∈ s.ringFlight e.ring, x.done = true ∨ x = e) → e ∈ s.flight →
       ∃ t, exec (.stateTransferComplete e.ring) s = .next t ∧ (t.ring e.ring).transfer = false ∧ s.reports t e 0 ∧
         (∀ r, r ≠ e.ring → t.ring r = s.ring r) ∧ s.sameRegs t [] ∧ s.sameMemory t) ∧
     ∀ t0, waitSince s e = some t0 → t0 + s.holdLimit ≤ s.tickNum →
       ∃ t, exec (.holdLimitExpiry id) s = .next t ∧ s.reports t e 1 ∧ (∀ k, k ≠ id → t.entry k = s.entry k) ∧
         (∀ n, n ≠ e.ctx → t.ctx n = s.ctx n) ∧ ((∀ r ∈ s.kv.reserved, r.1 ≠ id) → s.sameMemory t)) ∧
  (∀ (s : State) (array time left core : Nat) (e : Entry), array < 64 →
     (s.flight.find? fun e => !e.done && e.run.claims.any (fun c => decide (c.array = array)) && s.mustYield e array) = some e →
     s.entry e.id = some e → s.effF (Reg.SEQ_CFG array) 15 0 < left ∨ s.effF (Reg.SEQ_CFG array) 15 0 = 0 →
     ∃ t x, exec (.coreYieldDone array time ⟨left, core, 0⟩) s = .next t ∧ t.entry e.id = some x ∧
       x.run.claims = e.run.claims.filter (fun c => decide (c.array ≠ array)) ∧
       x.run.reissue = e.run.reissue ++ (e.run.claims.filter fun c => decide (c.array = array)).map (·.item) ∧
       x.run.done = e.run.done ∧ x.core = e.core + core ∧ (t.ctx e.ctx).used = (s.ctx e.ctx).used + core ∧
       t.fldR Reg.CTX_PREEMPT 63 32 = (s.fldR Reg.CTX_PREEMPT 63 32 + (arrayCores (gangOf s e) array).length) % 2 ^ 32 ∧
       (∀ c ∈ arrayCores (gangOf s e) array,
         t.fldR (Reg.SEQ_CLAIM c) 31 0 = (s.fldR (Reg.SEQ_CLAIM c) 31 0 + 1) % 2 ^ 32) ∧
       (∀ k, k ≠ e.id → t.entry k = s.entry k) ∧
       s.sameRegs t (Reg.CTX_PREEMPT :: (arrayCores (gangOf s e) array).map Reg.SEQ_CLAIM) ∧ s.sameMemory t)

/-! ### Rings (03_command_rings.md) -/

/-- Doorbells. CMD_DOORBELL by the physical function or the owner records the tail of a ring that is neither CLOSED nor
CLOSING, and only that, as long as no more entries are offered than the ring holds; on any other ring, from any other
function, or for a ring of no context it is ignored (R84). RETURN_HEAD_DOORBELL records the host's head (R83). -/
def Obligations.Doorbells : Prop :=
  ∀ (s : State) (r n : Nat) (v : Word), s.live = true →
    (s.ctxOfRing r = some n →
      ((s.ring r).state ≠ 0 → (s.ring r).state ≠ 5 → ((fld v 31 0) + 2 ^ 32 - (s.ring r).head) % 2 ^ 32 ≤ (s.ring r).cap →
        (∀ fn, fn = 0 ∨ (s.fnOn fn = true ∧ s.ctxFn n = fn ∧ s.ctxState n ≠ 0) →
          exec (.cmdDoorbell fn r v) s = .next (s.setRing r { s.ring r with
            tail := fld v 31 0, stall := if (s.ring r).stall = 2 then 0 else (s.ring r).stall })) ∧
        ∀ fn, fn ≠ 0 → fn ≠ s.ctxFn n → exec (.cmdDoorbell fn r v) s = .next s) ∧
      ((s.ring r).state = 0 ∨ (s.ring r).state = 5 → ∀ fn, exec (.cmdDoorbell fn r v) s = .next s)) ∧
    (s.ctxOfRing r = none → ∀ fn, exec (.cmdDoorbell fn r v) s = .next s) ∧
    (n < 4096 →
      ∃ t, exec (.returnHeadDoorbell 0 n v) s = .next t ∧ t.fldR (Reg.RING_RET_STATUS n) 31 0 = fld v 31 0 ∧
        t.fldR (Reg.RING_RET_STATUS n) 63 32 = s.fldR (Reg.RING_RET_STATUS n) 63 32 ∧ s.onlyRegs t [Reg.RING_RET_STATUS n])

/-- RING_OPEN of a CLOSED ring of an OPEN context, whose descriptor can be read and written back: the ring is HELD or FETCHING
as word 1 says, empty, with the descriptor's words; in memory that holds no error only the descriptor's words 4 and 5 are stored, and no
other ring changes. RING_CLOSE of a ring that holds no stream, no command and no record waiting leaves it CLOSED; a range with a ring
outside every context is refused whole with RING_CTL_STATUS.REJECT (R79 to R82). -/
def Obligations.RingsOpenAndClose : Prop :=
  ∀ (s : State) (r n : Nat), s.live = true →
    (s.ctxOfRing r = some n → s.ctxState n = 1 → s.canStore n (s.descVa n r + 32) 16 →
      (∀ bs, (s.ring r).state = 0 → s.fldR Reg.RING_CTL_STATUS 1 1 = 0 → s.mem.still → vread s n (s.descVa n r) 32 = .ok bs →
        ∃ t, exec (.ringOpen 0 r 1) s = .next t ∧
          (t.ring r).state = (if fld (wordAt bs 1) 59 59 = 1 then 1 else 2) ∧ (t.ring r).head = 0 ∧ (t.ring r).tail = 0 ∧
          (t.ring r).w0 = wordAt bs 0 ∧ (t.ring r).w1 = wordAt bs 1 ∧ (t.ring r).w2 = wordAt bs 2 ∧
          (t.ring r).fetched = none ∧ (∀ k, k ≠ r → t.ring k = s.ring k) ∧ t.ctxs = s.ctxs ∧ t.flight = s.flight ∧
          s.storesOnly t n (s.descVa n r + 32) 16) ∧
      ((s.ring r).state ≠ 0 → (s.ring r).state ≠ 5 → (s.ring r).descVa = s.descVa n r → (s.ring r).stream = none →
        s.ringFlight r = [] → (∀ x ∈ (s.ctx (s.ring r).owner).recs, x.ring ≠ r) → s.fldR Reg.RING_CTL_STATUS 1 1 = 0 →
        ∃ t, exec (.ringClose 0 r 1) s = .next t ∧ t.ring r = Ring.closed ∧
          (t.ctxState n = 1 → (∀ k, k ≠ r → t.ring k = s.ring k) ∧ t.ctxs = s.ctxs ∧ t.flight = s.flight))) ∧
    ∀ first count k, first ≤ k → k < first + count → s.ctxOfRing k = none →
      ∀ c ∈ [Instr.ringOpen 0 first count, .ringClose 0 first count],
        ∃ t, exec c s = .next t ∧ t.fldR Reg.RING_CTL_STATUS 0 0 = 1 ∧ s.onlyRegs t [Reg.RING_CTL_STATUS]

/-- PACKET_FETCH of the ring whose turn it is, from a ring in host memory: the packet's 8 header words and its payload are
taken from the head on, the head moves past the header entry and the payload's entries, and nothing else changes but the
turn; with a head write-back address in host memory, the new head stands there. A compute packet stays in the ring while the ring's
stream is parked, and a packet that fits its ring but that the tail does not yet cover stays in it too; the turn is then not taken
(R38, R84, R86, R87, R99; for a packet not yet covered, the model's reading, log entry 61). -/
def Obligations.PacketsFetched : Prop :=
  ∀ (s : State) (r n : Nat) (host : List Byte), s.live = true → s.fldR Reg.PWR_STAT 58 58 = 0 → s.ctxOfRing r = some n →
    s.turnOf (s.ctxPart n) = some r → fld (s.ring r).w0 0 0 = 0 →
    let len := fld (wordAt host 0) 18 0
    let bars := s.barsCompute r && isCompute (fld (wordAt host 0) 63 56)
    64 * packetEntries len ≤ host.length → fld (s.ring r).w2 0 0 = 0 →
    (bars = true → exec (.packetFetch r host) s = .next (s.setRing r { s.ring r with stall := 1 })) ∧
    (bars = false → (s.ring r).avail < packetEntries len → packetEntries len ≤ (s.ring r).cap →
      exec (.packetFetch r host) s = .next (s.setRing r { s.ring r with stall := 2 })) ∧
    (bars = false → (packetEntries len ≤ (s.ring r).avail ∨ (s.ring r).cap < packetEntries len) →
    ∃ t, exec (.packetFetch r host) s = .next t ∧
      t.ring r = { s.ring r with
        fetched := some ⟨(List.range 8).map (wordAt host), (host.drop 64).take len, (s.ring r).head⟩
        stall := 0
        head := ((s.ring r).head + packetEntries len) % 2 ^ 32 } ∧
      (∀ k, k ≠ r → t.ring k = s.ring k) ∧ t = (((s.putTick t.tick).putRings t.rings).putOut t.out) ∧
      (fld (s.ring r).w2 63 6 = 0 → t.out = s.out) ∧
      (fld (s.ring r).w2 63 6 ≠ 0 → ∀ k, k < 8 →
        spGet 0 t.out.hostMem (fld (s.ring r).w2 63 6 * 64 + k) = BitVec.ofNat 8 ((t.ring r).head / 256 ^ k)))

/-- COMMAND_ADMIT. A control command that is well formed, and names no state or list of a command of another ring, takes an entry of the
in-flight table, bound to its ring, its context and the current tick, under the next number; the fetch buffer empties; with count
zero it completes at once with OK, the draw of a state handle that it names advanced first, and otherwise memory stands (R14, R44, R98,
R257). Over budget, it stays where it is and the context is marked deferred, once an interval (R45). -/
def Obligations.CommandsAdmitted : Prop :=
  ∀ (s : State) (r n : Nat) (p : Packet), (s.ring r).fetched = some p → s.ctxOfRing r = some n →
    (s.mayAdmit r n p = true →
      p.op ∈ [opcLoad, opcStore, opcEvent, opcTickFence, opcPark, opcResume, opcConfig, opcCommit, opcCollective] →
      packetBad (s.ring r) p = false → s.entry s.nextId = none → (takeEntry s n r p).handleClash (newEntry s n r p) = false →
      (p.count ≠ 0 ∨ p.sh = 0 ∨ p.op ∈ [opcPark, opcResume] →
        ∃ t e, exec (.commandAdmit r) s = .next t ∧ t.entry s.nextId = some e ∧ e.ctx = n ∧ e.ring = r ∧ e.pkt = p ∧
          e.part = s.ctxPart n ∧ e.admitTick = s.tickNum ∧ (e.lc = true ↔ s.ctxClass n = 0) ∧ t.nextId = s.nextId + 1 ∧
          (t.ring r).fetched = none ∧ (t.ring r).head = (s.ring r).head ∧ (∀ k, k ≠ s.nextId → t.entry k = s.entry k) ∧
          (∀ k, k ≠ r → t.ring k = s.ring k) ∧ s.sameMemory t ∧ (∀ m, m ≠ n → t.ctx m = s.ctx m) ∧
          (e.done = true ↔ p.count = 0) ∧ (p.count = 0 → s.reports t e 0) ∧ (p.count ≠ 0 → t.ctxs = s.ctxs)) ∧
      ∀ u, p.count = 0 → p.sh ≠ 0 → p.op ∉ [opcPark, opcResume] → advanceDraws (takeEntry s n r p) n [p.sh] = (u, none) →
        exec (.commandAdmit r) s = .next (complete u s.nextId { status := 0 })) ∧
    (s.admissible r = true → s.overBudget n r p = true →
      ∃ t, exec (.commandAdmit r) s = .next t ∧ t.ctx n = { s.ctx n with deferred := true } ∧
        t = (s.putCtxs t.ctxs).putTick t.tick ∧ ∀ m, m ≠ n → t.ctx m = s.ctx m)

/-- Zero counts. A well-formed command whose count is zero needs no budget: admitted, it completes at once with OK, charges its
context nothing and leaves its record waiting; as a FORK, or whatever it is, it starts no other ring, freezes no snapshot, and
the state handle of its ring's stream stands where the ring had one. Of a state handle it names, the draw advances first, but for
FORK, PARK and RESUME (R14, R32, R257). -/
def Obligations.ZeroCount : Prop :=
  ∀ (s : State) (r n : Nat) (p : Packet), (s.ring r).fetched = some p → s.ctxOfRing r = some n → p.count = 0 →
    s.overBudget n r p = false ∧
    (s.mayAdmit r n p = true → packetBad (s.ring r) p = false → s.entry s.nextId = none →
      (takeEntry s n r p).handleClash (newEntry s n r p) = false → (p.op = opcWait → (s.ring r).state = (s.ring r).base) →
      (p.sh = 0 ∨ p.op ∈ [opcFork, opcPark, opcResume] →
        ∃ t e, exec (.commandAdmit r) s = .next t ∧ t.entry s.nextId = some e ∧ e.pkt = p ∧ e.done = true ∧ s.reports t e 0 ∧
          (t.ctx n).used = (s.ctx n).used ∧ s.sameMemory t ∧ t.slots = s.slots ∧ t.images = s.images ∧
          (∀ k, k ≠ r → t.ring k = s.ring k) ∧ ((s.ring r).stream ≠ none ∨ p.sh = 0 →
            (t.ring r).stream.map (·.sh) = (s.ring r).stream.map (·.sh))) ∧
      ∀ u, p.sh ≠ 0 → p.op ∉ [opcFork, opcPark, opcResume] →
        advanceDraws (takeEntry s n r p) n (if isCompute p.op then drawHandles (newEntry s n r p) else [p.sh]) = (u, none) →
        exec (.commandAdmit r) s = .next (complete u s.nextId { status := 0 }))

/-- WAIT. One whose counter has not reached its threshold sets its ring WAITING and stays fetched; polling leaves waiting rings
whose counters still stand below alone, memory and work as they were. Once the threshold is reached, and a command could be admitted,
WAIT and WAIT_POLL alike let the ring fetch again and complete the WAIT with OK (R91, R98, R99; in memory that holds no error). -/
def Obligations.WaitsTested : Prop :=
  ∀ (s : State) (r n : Nat) (p : Packet), s.live = true → s.mem.still →
    ((s.ring r).fetched = some p → s.ctxOfRing r = some n → p.op = opcWait → packetBad (s.ring r) p = false →
      s.canStore n ((s.ring r).descVa + 32) 16 → (s.ring r).descVa % 64 = 0 →
      (s.mayAdmit r n p = true → waitMet s n p = .ok false →
        ∃ t, exec (.wait r) s = .next t ∧ t.ring r = { s.ring r with state := 3 } ∧ (∀ k, k ≠ r → t.ring k = s.ring k) ∧
          t.flight = s.flight ∧ t.ctxs = s.ctxs ∧ s.storesOnly t n ((s.ring r).descVa + 32) 16) ∧
      ((s.ring r).state = 3 → s.ctxState n = 1 → (s.ctx n).saving = none → waitMet s n p = .ok true →
        (s.setRing r { s.ring r with state := (s.ring r).base }).mayAdmit r n p = true → p.sh = 0 → p.kh = 0 →
        s.entry s.nextId = none → ∀ c, c = .wait r ∨ (c = .waitPoll ∧ s.waitingRings = [r]) →
        ∃ t e, exec c s = .next t ∧ (t.ring r).state = (s.ring r).base ∧ (t.ring r).fetched = none ∧
          t.entry s.nextId = some e ∧ e.pkt = p ∧ e.done = true ∧ s.reports t e 0 ∧ (∀ k, k ≠ r → t.ring k = s.ring k) ∧
          s.storesOnly t n ((s.ring r).descVa + 32) 16)) ∧
    ((∀ k ∈ s.waitingRings, ∃ q m, (s.ring k).fetched = some q ∧ s.ctxOfRing k = some m ∧ waitMet s m q = .ok false) →
      ∃ t, exec .waitPoll s = .next t ∧ s.sameWork t ∧ s.sameMemory t)

/-- RECORD_WRITE. With the return ring enabled in host memory and room in it, the oldest waiting record's header is stored at
the tail's entry with its PHASE bit, TAIL moves past it and its payload, the record leaves the queue and its entry the
in-flight table. Without room, or with the ring disabled, it waits (R103, R104; the model looks at records larger than the ring first). RETURN_IRQ_TIMEOUT signals the ring's
vector, sent or pending in the PBA, and starts the count anew (R102, R435). -/
def Obligations.RecordsWritten : Prop :=
  ∀ (s : State) (n : Nat) (rec : Record) (rest : List Record), s.live = true → s.ctxState n = 1 → n < 4096 →
    ((s.ctx n).recs = rec :: rest → (∀ x ∈ (s.ctx n).recs, s.oversized n x = false) →
      let tail := s.fldR (Reg.RING_RET_STATUS n) 63 32
      let need := packetEntries rec.payload.length
      (s.fldR (Reg.RING_RET_CFG n) 63 63 = 0 ∨ s.retFree n < need → exec (.recordWrite n) s = .next s) ∧
      (s.fldR (Reg.RING_RET_CFG n) 63 63 = 1 → need ≤ s.retFree n → s.fldR (Reg.RING_RET_BASE n) 0 0 = 0 →
        rec.words.length = 7 → rec.tear = none →
        ∃ t, exec (.recordWrite n) s = .next t ∧ t.fldR (Reg.RING_RET_STATUS n) 63 32 = (tail + need) % 2 ^ 32 ∧
          (∀ i k, i < 7 → k < 8 →
            spGet 0 t.out.hostMem (s.fldR (Reg.RING_RET_BASE n) 63 6 * 64 + 64 * (tail % s.retCap n) + 8 * i + k) =
              BitVec.ofNat 8 ((rec.words.getD i 0).toNat / 256 ^ k)) ∧
          (spGet 0 t.out.hostMem (s.fldR (Reg.RING_RET_BASE n) 63 6 * 64 + 64 * (tail % s.retCap n) + 63)).toNat =
            128 * (1 - tail / s.retCap n % 2) ∧
          (t.ctxState n = 1 → (t.ctx n).recs = rest) ∧ t.entry rec.entry = none)) ∧
    (0 < (s.ctx n).unsignalled → s.fldR (Reg.RING_RET_CFG n) 15 0 ≠ 0 →
      let v := s.fldR (Reg.RING_RET_CFG n) 42 32
      ∃ t, exec (.returnIrqTimeout n) s = .next t ∧ t.ctx n = { s.ctx n with unsignalled := 0 } ∧
        (s.msixOpen (s.ctxFn n) v = true → t = (s.putCtxs t.ctxs).putOut { s.out with msi := s.out.msi ++ [(s.ctxFn n, v)] }) ∧
        (s.msixOpen (s.ctxFn n) v = false → (t.msixAt (s.ctxFn n) v).pend = true ∧ t = (s.putCtxs t.ctxs).putMsix t.msix))

/-! ### Commands of the rings (03_command_rings.md, 11_memory_tiers.md) -/

/-- LOAD and STORE. A LOAD whose destination can be written, and that touches nothing the part writes itself, completes with OK
(TICK_OVERRUN when late), the draw of a state handle it names advanced after its bytes are written; in memory that holds no error its
bytes stand at their translated addresses, and no other byte changes. A STORE whose source can be read returns exactly those bytes as
its record's payload and changes no byte; a payload its return ring cannot hold gives no record, and frees the entry. A translation
fault is reported as status 2; unavailable memory holds the command and does nothing else (R22, R44, R104, R257, R291, R295, R450). -/
def Obligations.LoadsAndStores : Prop :=
  ∀ (s : State) (id : Nat) (e : Entry), s.runs id e →
    let va := e.pkt.va
    let n := e.pkt.count
    (e.pkt.op = opcLoad → n ≤ e.pkt.payload.length →
      ((∀ c ∈ s.openCtxs, s.hostHits (s.reaches e.ctx va n) (some id) c = false) →
        (s.canStore e.ctx va n → e.pkt.sh = 0 →
          ∃ t, exec (.load id) s = .next t ∧ s.reports t e (s.okStatus e) ∧ (∀ k, k ≠ id → t.entry k = s.entry k) ∧
            t.rings = s.rings ∧ (∀ m, m ≠ e.ctx → t.ctx m = s.ctx m) ∧
            (s.mem.still → s.storesOnly t e.ctx va n ∧ ∀ i l, i < n → translate s e.ctx (va + i) true = .ok l →
              (∀ j m, j < n → translate s e.ctx (va + j) true = .ok m → m.pa = l.pa → j = i) →
              t.byteAt l.pa = e.pkt.payload.getD i 0)) ∧
        (∀ u, s.canStore e.ctx va n → e.pkt.sh ≠ 0 →
          advanceDraws (vwrite s e.ctx va (e.pkt.payload.take n)).1 e.ctx [e.pkt.sh] = (u, none) →
          exec (.load id) s = .next (complete u id { status := 0 })) ∧
        (∀ a, writeErr s e.ctx (pieces va n) = some (.trans a) → ∃ t, exec (.load id) s = .next t ∧ s.reports t e 2)) ∧
      (writeErr s e.ctx (pieces va n) = some .unavail →
        ∃ t, exec (.load id) s = .next t ∧ t.entry id = some { e with held := some (e.held.getD s.tickNum) } ∧
          t = s.putFlight t.flight)) ∧
    (e.pkt.op = opcStore → n ≤ 262144 →
      (∀ bs, vread s e.ctx va n = .ok bs → e.pkt.sh = 0 →
        (packetEntries n ≤ s.retCap e.ctx →
          ∃ t, exec (.store id) s = .next t ∧ s.reports t e (s.okStatus e) ∧
            (t.ctx e.ctx).recs.getLast?.map (·.payload) = some bs ∧ (s.mem.still → s.sameMemory t) ∧
            (∀ k, k ≠ id → t.entry k = s.entry k) ∧ t.rings = s.rings ∧ ∀ m, m ≠ e.ctx → t.ctx m = s.ctx m) ∧
        (s.retCap e.ctx < packetEntries n → ∃ t, exec (.store id) s = .next t ∧ t.entry id = none)) ∧
      (∀ bs u, vread s e.ctx va n = .ok bs → e.pkt.sh ≠ 0 → advanceDraws (vtouch s e.ctx va n) e.ctx [e.pkt.sh] = (u, none) →
        exec (.store id) s = .next (complete u id { status := 0, payload := bs })) ∧
      (∀ a, vread s e.ctx va n = .error (.trans a) →
        ∃ t, exec (.store id) s = .next t ∧ s.reports t e 2 ∧ (s.mem.still → s.sameMemory t)))

/-- EVENT adds its count to the 64-bit counter it names, stores only the counter's 8 bytes, and completes (R91). MIGRATE whose
pages all lie in the target tier completes; with a frame for every page its moves are queued, each with a target, behind
those that wait; with an empty stack it is held (R300). FORK of a ring without streams into a HELD ring starts that ring,
whose stream is one deeper in the same chain (R25, R27, R28). FORK at depth 64 is ABORTED (R33). All of them in memory that holds no
error; EVENT and MIGRATE without a state handle, whose draw would advance (R257). -/
def Obligations.ControlCommands : Prop :=
  ∀ (s : State) (id : Nat) (e : Entry), s.runs id e → s.mem.still →
    (∀ v, e.pkt.op = opcEvent → e.pkt.sh = 0 → vread64 s e.ctx e.pkt.counter = .ok v → s.canStore e.ctx e.pkt.counter 8 →
      s.waitersOn e.ctx e.pkt.counter = [] →
      ∃ t, exec (.event id) s = .next t ∧ s.reports t e (s.okStatus e) ∧ s.storesOnly t e.ctx e.pkt.counter 8 ∧
        (∀ l, translate s e.ctx e.pkt.counter true = .ok l → ∀ k, k < 8 →
          t.byteAt (l.pa + k) = BitVec.ofNat 8 ((v + e.pkt.count) / 256 ^ k)) ∧
        (∀ k, k ≠ id → t.entry k = s.entry k) ∧ t.rings = s.rings) ∧
    (e.pkt.op = opcMigrate → e.begun = false →
      (migratePlan s e = .ok [] → e.pkt.sh = 0 →
        ∃ t, exec (.migrate id) s = .next t ∧ s.reports t e (s.okStatus e) ∧ s.sameMemory t ∧ t.mig = s.mig) ∧
      ∀ m ms, migratePlan s e = .ok (m :: ms) →
        (s.stackLen e.part m.tier = 0 →
          ∃ t, exec (.migrate id) s = .next t ∧ t.entry id = some { e with held := some (e.held.getD s.tickNum) } ∧
            t = s.putFlight t.flight) ∧
        (∀ u fs, popFrames s e.part m.tier (ms.length + 1) = .ok (u, fs) →
          ∃ t q, exec (.migrate id) s = .next t ∧ t.mig.queue = s.mig.queue ++ q ∧ q.length = ms.length + 1 ∧
            (∀ k, k ≤ ms.length → q[k]?.bind (·.target) = fs[k]? ∧ (q[k]?.map (·.src)) = ((m :: ms)[k]?.map (·.src))) ∧
            t.entry id = some { e with begun := true, held := none } ∧ s.sameMemory t ∧
            t.stackLen e.part m.tier + (ms.length + 1) = s.stackLen e.part m.tier)) ∧
    (∀ kid, e.pkt.op = opcFork → e.seeded = true → e.paged = true → childrenOf e.pkt = [kid] → 16 ≤ e.pkt.payload.length →
      (s.ring kid.ring).state = 1 → s.ctxOfRing kid.ring = some e.ctx →
      (((s.ring e.ring).stream.map (·.depth)).getD 0 = 64 → ∃ t, exec (.fork id) s = .next t ∧ s.reports t e 8 ∧
        s.sameMemory t ∧ t.rings = s.rings) ∧
      (((s.ring e.ring).stream.map (·.depth)).getD 0 ≠ 64 → e.pkt.sh = 0 → e.pkt.kh = 0 → kid.sh = 0 →
        s.chainWidth (((s.ring e.ring).stream.map (·.chain)).getD id) < 262144 → s.domReady 24 = true →
        s.canStore e.ctx ((s.ring kid.ring).descVa + 32) 16 → (s.ring kid.ring).descVa % 64 = 0 →
        ∃ t x, exec (.fork id) s = .next t ∧ (t.ring kid.ring).state = 2 ∧ (t.ring kid.ring).stream = some x ∧
          x.depth = ((s.ring e.ring).stream.map (·.depth)).getD 0 + 1 ∧
          x.chain = ((s.ring e.ring).stream.map (·.chain)).getD id ∧ x.kh = kid.kh ∧ s.reports t e (s.okStatus e) ∧
          (∀ r, r ≠ kid.ring → r ≠ e.ring → t.ring r = s.ring r) ∧
          s.storesOnly t e.ctx ((s.ring kid.ring).descVa + 32) 16))

/-- CONFIG performs its register writes in payload order, each as a REGISTER_WRITE of 8 bytes by the context's function, and
then completes; it always completes where every write is aligned and goes to a reserved offset or to a register without further
effect. COMMIT captures nothing and completes, changing no register. Of a state handle they name, the draw advances last (R93, R94,
R257, R436, R438). -/
def Obligations.ConfigAndCommit : Prop :=
  ∀ (s : State) (id : Nat) (e : Entry), s.runs id e →
    (e.pkt.op = opcConfig → 16 * e.pkt.count ≤ e.pkt.payload.length →
      (∀ u, u = (List.range e.pkt.count).foldl (fun x k => match exec (.registerWrite (s.ctxFn e.ctx)
          (wordAt e.pkt.payload (2 * k)).toNat 8 (wordAt e.pkt.payload (2 * k + 1))) x with
        | .next y => y
        | _ => x) s →
        u.entry id = some e →
        (e.pkt.sh = 0 → ∃ t, exec (.config id) s = .next t ∧ u.reports t e (u.okStatus e) ∧
          t.entry id = some { e with done := true, held := none, space := [] } ∧ u.sameRegs t [] ∧ t.eff = u.eff ∧ t.mem = u.mem) ∧
        ∀ w, e.pkt.sh ≠ 0 → advanceDraws u e.ctx [e.pkt.sh] = (w, none) →
          exec (.config id) s = .next (complete w id { status := 0 })) ∧
      (e.pkt.sh = 0 →
        (∀ k, k < e.pkt.count →
          let off := (wordAt e.pkt.payload (2 * k)).toNat
          off % 8 = 0 ∧ (off < 0x1900000 ∨ 0x1A00000 ≤ off) ∧ ∀ g, findReg off = some g → g.1.plain = true) →
        ∃ t, exec (.config id) s = .next t ∧ s.reports t e (s.okStatus e) ∧ t.mem = s.mem ∧
          (∀ k, k ≠ id → t.entry k = s.entry k) ∧ t.rings = s.rings)) ∧
    (e.pkt.op = opcCommit →
      (e.pkt.sh = 0 →
        ∃ t, exec (.commit id) s = .next t ∧ s.reports t e (s.okStatus e) ∧ s.sameRegs t [] ∧ t.eff = s.eff ∧ t.mem = s.mem ∧
          (∀ k, k ≠ id → t.entry k = s.entry k) ∧ t.rings = s.rings) ∧
      ∀ w, e.pkt.sh ≠ 0 → advanceDraws s e.ctx [e.pkt.sh] = (w, none) →
        exec (.commit id) s = .next (complete w id { status := 0 }))

/-! ### What a function reaches over PCIe (00_scope.md, 11_memory_tiers.md, 18_host_interface.md) -/

/-- REGISTER_WRITE of 8 aligned bytes to a register whose write has no further effect, by a function that may write it, in a
state in which its block is reached: every RW and RWT field takes its bits of the value, every W1C bit written 1 clears,
every RO field stands, the values in force stand, and no other register changes (R8, R9, R436). An unaligned write is
logged as an unsupported request and nothing else; outside every register nothing happens. -/
def Obligations.RegisterWrites : Prop :=
  ∀ (s : State) (fn off : Nat) (v : Word), 2 ≤ s.devState →
    (∀ r i j, off % 8 = 0 → (off < 0x1900000 ∨ 0x1A00000 ≤ off) → findReg off = some (r, i, j) → r.plain = true →
      s.reachable off = true → s.mayWrite fn r i j = true →
      ∃ t, exec (.registerWrite fn off 8 v) s = .next t ∧ s.onlyRegs t [off] ∧
        ∀ f ∈ r.fields,
          (f.acc = .rw ∨ f.acc = .rwt → fld (t.reg off) f.hi f.lo = fld v f.hi f.lo) ∧
          (f.acc = .ro → fld (t.reg off) f.hi f.lo = fld (s.reg off) f.hi f.lo) ∧
          (f.acc = .w1c → ∀ b, f.lo ≤ b → b ≤ f.hi →
            (t.reg off).toNat.testBit b = ((s.reg off).toNat.testBit b && !v.toNat.testBit b))) ∧
    (∀ r i j, findReg (off / 8 * 8) = some (r, i, j) → off % 8 = 0 → (off < 0x1900000 ∨ 0x1A00000 ≤ off) →
      s.mayWrite fn r i j = false → exec (.registerWrite fn off 8 v) s = .next s) ∧
    (off % 8 ≠ 0 → exec (.registerWrite fn off 8 v) s = .next (logAer s (.unsupportedRequest fn off))) ∧
    (off % 8 = 0 → (off < 0x1900000 ∨ 0x1A00000 ≤ off) → findReg off = none → exec (.registerWrite fn off 8 v) s = .next s)

/-- BAR4 in READY, RUN and SAFE, where no frame it touches is being cleared. A read of reachable bytes, none in error, returns them; a
write that touches nothing the part writes itself stores exactly its bytes, and no other byte changes, in memory that holds no error. A
virtual function reaches only the memory of its own partition: elsewhere a read is an unsupported request, and a write changes
nothing but the log. An access of a frame that is being cleared waits. In BOOT and TRAIN a read returns zeros and a write is ignored
(R276, R289, R294, R408). -/
def Obligations.Bar4Accesses : Prop :=
  ∀ (s : State) (fn addr : Nat),
    (∀ len p, s.bar4Reach fn addr len = some p → s.clears addr len = false → s.badUnit addr len = none →
      ∃ t, exec (.bar4Read fn addr len) s = .next t ∧ t.out.resp = .data (s.phys addr len) ∧
        (s.mem.still → s.sameMemory t) ∧ t.ctxs = s.ctxs ∧ t.rings = s.rings ∧ t.flight = s.flight) ∧
    (∀ bytes p, s.bar4Reach fn addr bytes.length = some p → s.clears addr bytes.length = false →
      s.packetOwners addr bytes.length = [] → (∀ c ∈ s.openCtxs, s.hostHits [(addr, bytes.length)] none c = false) →
      ∃ t, exec (.bar4Write fn addr bytes) s = .next t ∧
        (s.mem.still → (∀ i, i < bytes.length → t.byteAt (addr + i) = bytes.getD i 0) ∧
          ∀ pa, pa < addr ∨ addr + bytes.length ≤ pa → t.byteAt pa = s.byteAt pa) ∧
        t.ctxs = s.ctxs ∧ t.rings = s.rings ∧ t.flight = s.flight) ∧
    (s.live = true → fn ≠ 0 → s.hol.cur.ownerOf addr ≠ s.hol.cur.partOfFn fn →
      (∀ bytes : List Byte, s.clears addr bytes.length = false →
        exec (.bar4Write fn addr bytes) s = .next (logAer s (.unsupportedRequest fn addr))) ∧
      ∀ len, s.clears addr len = false →
        exec (.bar4Read fn addr len) s = .next (respond (logAer s (.unsupportedRequest fn addr)) .unsupportedRequest)) ∧
    (s.live = true →
      (∀ bytes : List Byte, s.clears addr bytes.length = true → exec (.bar4Write fn addr bytes) s =
        .next (s.putMem { s.mem with waiting := s.mem.waiting ++ [⟨fn, addr, bytes.length, some bytes⟩] })) ∧
      ∀ len, s.clears addr len = true → exec (.bar4Read fn addr len) s =
        .next (s.putMem { s.mem with waiting := s.mem.waiting ++ [⟨fn, addr, len, none⟩] })) ∧
    (s.devState = stBoot ∨ s.devState = stTrain →
      (∀ len, exec (.bar4Read fn addr len) s = .next (respond s (.data (zeros len)))) ∧
      ∀ bytes, exec (.bar4Write fn addr bytes) s = .next s)

/-- Configuration space, MSI-X tables and the KV pool. A field written stands in the function's configuration and in no other;
returning from D3hot to D0 is a function-level reset; a BAR4 size outside 256 MiB to 512 GiB is not taken (R357, R434); no write
anywhere in configuration space changes a function's identity (R432). An
MSI-X entry takes the written words, and unmasking a vector sends what it has pending and clears its PBA bit (R435).
KV_CTX_CFG_WRITE that is no host error and whose new records can be read and linked sets the pool's size: the free list
keeps what the new size covers and gains the free records newly covered, in ascending order (R211). -/
def Obligations.FunctionSettings : Prop :=
  ∀ s : State, s.fns.length = 17 →
    (∀ fn, 2 ≤ s.devState → fn < 17 → s.fnOn fn = true →
      (∀ on, ∃ t, exec (.configurationSpaceWrite fn (.memEnable on)) s = .next t ∧ t.fn fn = { s.fn fn with memEnable := on } ∧
        (∀ k, k ≠ fn → t.fn k = s.fn k) ∧ t = s.putFns t.fns) ∧
      (∀ on, ∃ t, exec (.configurationSpaceWrite fn (.msixEnable on)) s = .next t ∧
        t.fn fn = { s.fn fn with msixEnable := on } ∧ (∀ k, k ≠ fn → t.fn k = s.fn k)) ∧
      ((s.fn fn).d3hot = true →
        exec (.configurationSpaceWrite fn (.powerState false)) s = exec (.functionLevelReset fn) s) ∧
      (∀ log, fn = 0 → 28 ≤ log → log ≤ 39 →
        exec (.configurationSpaceWrite fn (.bar4Size log)) s = .next (s.updFn 0 fun c => { c with bar4Log := log })) ∧
      (∀ log, log < 28 ∨ 39 < log → exec (.configurationSpaceWrite fn (.bar4Size log)) s = .next s) ∧
      (∀ off v, ∃ t, exec (.configurationSpaceWrite fn (.other off v)) s = .next t ∧ (t.fn fn).ident = (s.fn fn).ident ∧
        (off ∈ [0x00, 0x08, 0x2C] → spGet 0 (t.fn fn).other off = 0) ∧ (∀ k, k ≠ fn → t.fn k = s.fn k) ∧ t = s.putFns t.fns)) ∧
    (∀ fn v, s.live = true → s.fnOn fn = true → fn < 17 → v < 2048 →
      (∀ w : Word, ∃ t, exec (.msiXTableWrite fn (16 * v + 8) 4 w) s = .next t ∧ (t.msixAt fn v).data = w.toNat % 2 ^ 32 ∧
        (t.msixAt fn v).addr = (s.msixAt fn v).addr ∧ (t.msixAt fn v).mask = (s.msixAt fn v).mask) ∧
      ((s.msixAt fn v).pend = true → (s.fn fn).msixEnable = true → (s.fn fn).msixMask = false →
        ∃ t, exec (.msiXTableWrite fn (16 * v + 12) 4 0) s = .next t ∧ (t.msixAt fn v).mask = false ∧
          (t.msixAt fn v).pend = false ∧ (fn, v) ∈ t.out.msi)) ∧
    ∀ c value fresh, s.live = true → c < 4096 → s.mem.still →
      let kib := fld value 63 55
      let size := fld value 31 0
      let kept := (s.pool c).2.filter fun i => decide (i < size)
      let s1 := s.setReg (Reg.KV_CTX_CFG c)
        ((s.reg (Reg.KV_CTX_CFG c) &&& ~~~(maskOf 63 55 ||| maskOf 31 0)) ||| (value &&& (maskOf 63 55 ||| maskOf 31 0)))
      let s2 := (vtouch s1 c (s.poolVa c (s.pool c).1) (16 * (size - (s.pool c).1))).setPool c (size, kept ++ fresh)
      kvCfgBad s c kib size = false → freshPages s c (s.pool c).1 (size - (s.pool c).1) = .ok fresh →
      (linkPool s2 c (s.pool c).2 (kept ++ fresh)).2 = none →
      ∃ t, exec (.kvCtxCfgWrite 0 c value) s = .next t ∧ t.pool c = (size, kept ++ fresh) ∧
        t.fldR (Reg.KV_CTX_CFG c) 63 55 = kib ∧ t.fldR (Reg.KV_CTX_CFG c) 31 0 = size ∧ (∀ k, k ≠ c → t.pool k = s.pool k) ∧
        t.ctxs = s.ctxs ∧ t.rings = s.rings ∧ t.flight = s.flight

/-! ### Memory tiers (11_memory_tiers.md) -/

/-- MEM_CLASS_WRITE and BLK_CLASS_WRITE by the physical function, with no command in flight. Each of the 32 frames takes the
class written, except that 0b11 leaves it; a frame whose class changes reads zero everywhere, every other byte of memory
stands; CLASS_CLEAR_COMPLETE ends the clear of its frame, and a BAR4 read that waited for it is answered then. A virtual function's
write to another partition's vault is ignored (R289, R308, R309). -/
def Obligations.ClassWrites : Prop :=
  ∀ (s : State) (index : Nat) (v : Word), s.live = true →
    (s.flight = [] → ∀ c pa reg, (∃ vault, vault < 64 ∧ index < 48 ∧ c = Instr.memClassWrite 0 vault index v ∧
          pa = vault * vaultSize + index * 32 * frameSize ∧ reg = Reg.MEM_CLASS vault index) ∨
        (index < 4096 ∧ c = Instr.blkClassWrite 0 index v ∧ pa = bulkBase + index * 32 * frameSize ∧ reg = Reg.BLK_CLASS index) →
      ∃ t, exec c s = .next t ∧ (s.retained = [] → s.sameRegs t [reg]) ∧
        (∀ f, f < 32 → let cls := fld v (2 * f + 1) (2 * f)
          let a := pa + f * frameSize
          t.classOf a = (if cls = 3 then s.classOf a else cls) ∧
          ∀ b, b < frameSize → t.byteAt (a + b) = if cls = 3 ∨ cls = s.classOf a then s.byteAt (a + b) else 0) ∧
        (∀ x, x < pa ∨ pa + 32 * frameSize ≤ x → t.byteAt x = s.byteAt x) ∧ s.sameWork t) ∧
    (∀ fn vault, fn ≠ 0 → s.hol.cur.partOfCore vault ≠ s.hol.cur.partOfFn fn →
      exec (.memClassWrite fn vault index v) s = .next s) ∧
    (∀ f, s.mem.waiting = [] →
      ∃ t, exec (.classClearComplete f) s = .next t ∧ (∀ x, x ∈ t.mem.clearing ↔ x ∈ s.mem.clearing ∧ x ≠ f) ∧
        t = s.putMem { s.mem with clearing := t.mem.clearing }) ∧
    ∀ f fn addr len, s.mem.waiting = [⟨fn, addr, len, none⟩] → ∀ u, u = s.putMem { s.mem with
        clearing := s.mem.clearing.filter fun x => decide (x ≠ f)
        waiting := [] } → u.clears addr len = false → exec (.classClearComplete f) s = exec (.bar4Read fn addr len) u

/-- Refresh and scrubbing. REFRESH changes no byte of class C or D memory that held no error before, whatever upsets the cells have
developed, and nothing at all without one; an upset of a class C unit of the refreshed channel, given as a value below 256, stands as an
error of that unit.
PATROL_SCRUB changes no byte: a correctable error of a scrubbed unit is corrected, counted in its controller and gone; an
uncorrectable one stays; the last range of a pass counts the pass (R282, R290, R292, R305). -/
def Obligations.RefreshAndScrub : Prop :=
  ∀ s : State, s.live = true →
    (∀ tier vault channel, exec (.refresh tier vault channel []) s = .next s) ∧
    (∀ tier vault channel ups, s.mem.still → ∃ t, exec (.refresh tier vault channel ups) s = .next t ∧
      (∀ pa, s.classOf pa < 2 → t.byteAt pa = s.byteAt pa) ∧ s.sameRegs t [] ∧ t.flight = s.flight ∧ t.ctxs = s.ctxs ∧
      ((∀ u ∈ ups, u.2 < 512) → s.sameWork t)) ∧
    (∀ p a k, k < 256 → s.hol.cur.ownerOf a = some p → a < nearTop → a % 64 = 0 → s.classOf a = 0 → (a, UnitError.bad) ∉ s.mem.errs →
      ∃ t, exec (.refresh 0 (s.hol.cur.nearPlace p a).1 (s.hol.cur.nearPlace p a).2.1 [(a, k)]) s = .next t ∧
        (a, if k % 2 = 0 then UnitError.correctable else UnitError.bad) ∈ t.mem.errs ∧
        ∀ u, u.1 ≠ a → (u ∈ t.mem.errs ↔ u ∈ s.mem.errs)) ∧
    (∀ addr len last, s.fldR (s.memCfg addr) 31 16 ≠ 0 →
      ∃ t, exec (.patrolScrub addr len last) s = .next t ∧ (∀ pa, t.byteAt pa = s.byteAt pa) ∧
        (∀ u, (u, UnitError.bad) ∈ t.mem.errs ↔ (u, UnitError.bad) ∈ s.mem.errs) ∧ s.sameWork t ∧
        (last = true → t.fldR (s.memStat addr) 31 0 = (s.fldR (s.memStat addr) 31 0 + 1) % 2 ^ 32) ∧
        (len = 64 → addr % 64 = 0 → s.classOf addr = 0 → (s.hol.cur.ownerOf addr).isSome = true → s.reachOk addr 64 = true →
          (addr, UnitError.correctable) ∈ s.mem.errs → (addr, UnitError.bad) ∉ s.mem.errs →
          (addr, UnitError.correctable) ∉ t.mem.errs ∧
            t.fldR (s.errReg addr) 63 48 = min 65535 (s.fldR (s.errReg addr) 63 48 + 1)))

/-- Invalidations and free frames. MIG_INVAL waits behind those before it; MIG_INVAL_COMPLETE ends the oldest: no retained
range of its context that it covers is left, every other one is kept, memory stands. MIG_PUSH of a frame of the
partition's own memory, of the right tier and not in use, below CAP, raises the stack's count and, in memory that holds no error,
stores the frame's address in its next entry and nowhere else; a frame of the wrong tier sets PUSH_REJECT and nothing else (R298, R304). -/
def Obligations.FramesAndInvalidations : Prop :=
  ∀ s : State, s.live = true →
    (∀ v, fld v 51 51 = 1 ∨ fld v 7 0 ≠ 0 →
      exec (.migInval 0 v) s = .next (s.putMig { s.mig with
        inval := s.mig.inval ++ [(fld v 63 52, decide (fld v 51 51 = 1), fld v 47 8, fld v 7 0)] })) ∧
    (∀ c all vpn n rest, s.mig.inval = (c, all, vpn, n) :: rest →
      ∃ t, exec .migInvalComplete s = .next t ∧ t.mig.inval = rest ∧ s.sameMemory t ∧
        ∀ r, r ∈ t.retained ↔ r ∈ s.retained ∧ ¬(r.ctx = c ∧
          (if all then r.va < 2 ^ 52 ∧ 0 < r.va + r.len else r.va < vpn * 4096 + n * 4096 ∧ vpn * 4096 < r.va + r.len))) ∧
    ∀ p v, p < 16 →
      let tier := fld v 63 63
      let pa := frameAddr (fld v 38 21)
      (s.hol.cur.ownerOf pa = some p → s.hol.cur.ownerOf (pa + frameSize - 1) = some p → isBulk pa = decide (tier = 1) →
        s.frameInUse p pa = false → s.stackLen p tier < s.fldR (Reg.MIG_STACK p tier) 63 48 →
        s.stackOk p tier (s.stackLen p tier) = true →
        ∃ t, exec (.migPush 0 p v) s = .next t ∧ t.stackLen p tier = s.stackLen p tier + 1 ∧
          (s.mem.still →
            (∀ k, k < 8 → t.byteAt (s.stackVa p tier (s.stackLen p tier) + k) = BitVec.ofNat 8 (pa / 256 ^ k)) ∧
            (∀ x, x < s.stackVa p tier (s.stackLen p tier) ∨ s.stackVa p tier (s.stackLen p tier) + 8 ≤ x →
              t.byteAt x = s.byteAt x) ∧
            (s.retained = [] → s.sameRegs t [Reg.MIG_COUNT p, Reg.BLK_CACHE p])) ∧ s.sameWork t) ∧
      (s.hol.cur.ownerOf pa ≠ some p ∨ isBulk pa ≠ decide (tier = 1) →
        ∃ t, exec (.migPush 0 p v) s = .next t ∧ t.fldR Reg.MIG_STAT 62 62 = 1 ∧ s.onlyRegs t [Reg.MIG_STAT])

/-- The migration engine. MIGRATION_EPOCH due resets the partition's epoch, halves the access counts of its frames and keeps
the moves of MIGRATE commands. MIGRATION_MOVE of a move whose target is taken, whose leaf entry still reads as planned,
and whose memory is available and free of errors: the target frame holds the source's bytes, the leaf entry, which lies in neither
frame, maps it, the move leaves the queue and MIG_MOVES counts it; a move without a target whose stack is empty is dropped (R301 to R303). -/
def Obligations.MigrationEngine : Prop :=
  ∀ (s : State) (p : Nat), s.live = true → p < 16 →
    (s.effF (Reg.MIG_PART_CFG p) 63 56 ≠ 0 → s.effF (Reg.MIG_PART_CFG p) 63 56 ≤ s.mig.epoch.getD p 0 → s.mig.epoch.length = 16 →
      spWf (fun _ => (0 : Nat)) s.mem.counts = true →
      ∃ t, exec (.migrationEpoch p) s = .next t ∧ t.mig.epoch.getD p 0 = 0 ∧
        (∀ k, k ≠ p → t.mig.epoch.getD k 0 = s.mig.epoch.getD k 0) ∧
        (∀ f, spGet 0 t.mem.counts f =
          if s.hol.cur.ownerOf (frameAddr f) = some p then spGet 0 s.mem.counts f / 2 else spGet 0 s.mem.counts f) ∧
        (∀ m ∈ s.mig.queue, m.cmd ≠ none → m ∈ t.mig.queue) ∧ s.sameMemory t ∧ s.sameRegs t [] ∧ s.sameWork t) ∧
    ∀ m, (s.mig.queue.find? fun m => decide (m.part = p)) = some m →
      s.partOn p = true →
      (m.target = none → s.stackLen p m.tier = 0 →
        exec (.migrationMove p) s = .next (s.putMig { s.mig with queue := s.mig.queue.erase m })) ∧
      (∀ dst, m.target = some dst → Memory.wf s.mem = true → s.mem.still → s.physNat m.entryPa = m.entryVal →
        s.reachOk m.src frameSize = true → s.reachOk dst frameSize = true → s.physOk m.entryPa = true → dst % frameSize = 0 →
        m.src % frameSize = 0 → m.src ≠ dst → (∀ i e, m.cmd = some i → s.entry i = some e → e.pkt.sh = 0) →
        (m.entryPa < m.src ∨ m.src + frameSize ≤ m.entryPa) →
        let slot := s.stackVa p (1 - m.tier) (s.stackLen p (1 - m.tier))
        s.stackOk p (1 - m.tier) (s.stackLen p (1 - m.tier)) = true → slot % 8 = 0 → m.entryPa % 8 = 0 → slot ≠ m.entryPa →
        (m.entryPa < dst ∨ dst + frameSize ≤ m.entryPa) → (slot < dst ∨ dst + frameSize ≤ slot) →
        ∃ t, exec (.migrationMove p) s = .next t ∧ (∀ i, i < frameSize → t.byteAt (dst + i) = s.byteAt (m.src + i)) ∧
          t.physNat m.entryPa = withAddr m.entryVal dst % 2 ^ 64 ∧ t.mig.queue = s.mig.queue.erase m ∧
          t.fldR Reg.MIG_MOVES 63 32 + t.fldR Reg.MIG_MOVES 31 0 ≡
            s.fldR Reg.MIG_MOVES 63 32 + s.fldR Reg.MIG_MOVES 31 0 + 1 [MOD 2 ^ 32])

/-- Margining and recalibration. In SAFE, with PD29 ready and no run under way, a START of a vault, of the bulk tier or of a
Pelvas port sets BUSY; outside SAFE, or while a run is under way, it sets REJECT and nothing else (R307, R336). The run's
end clears BUSY and shows its errors with DONE. A port's run of
DWELL zero has compared nothing. Recalibration of a bulk channel or of a lane takes time and changes no state (R283,
R315, R428). -/
def Obligations.Margining : Prop :=
  ∀ (s : State) (v : Word), s.live = true → fld v 63 63 = 1 →
    (∀ c stat res busy,
        (∃ k, k < 64 ∧ c = Instr.memMarginStart 0 k v ∧ stat = Reg.MEM_STAT k ∧ res = Reg.MEM_MARGIN_RES k ∧ busy = 50) ∨
        (c = Instr.blkMarginStart 0 v ∧ stat = Reg.BLK_STAT ∧ res = Reg.BLK_MARGIN_RES ∧ busy = 50) ∨
        (∃ p, p < 12 ∧ c = Instr.plkMarginStart 0 p v ∧ stat = Reg.PLK_STAT p ∧ res = Reg.PLK_MARGIN_RES p ∧ busy = 58) →
      (s.devState = stSafe → s.fldR stat busy busy = 0 → s.domReady 29 = true →
        ∃ t, exec c s = .next t ∧ t.fldR stat busy busy = 1 ∧ t.fldR res 0 0 = 0 ∧
          t.fldR stat (busy - 1) (busy - 1) = s.fldR stat (busy - 1) (busy - 1) ∧ s.sameMemory t ∧ s.sameWork t) ∧
      (s.devState ≠ stSafe ∨ s.fldR stat busy busy = 1 →
        ∃ t, exec c s = .next t ∧ t.fldR stat (busy - 1) (busy - 1) = 1 ∧ s.onlyRegs t [stat])) ∧
    (∀ p errors, p < 12 → s.fldR (Reg.PLK_STAT p) 58 58 = 1 → errors < 2 ^ 32 →
      ∃ t, exec (.plkMarginDone p errors) s = .next t ∧ t.fldR (Reg.PLK_STAT p) 58 58 = 0 ∧
        t.fldR (Reg.PLK_MARGIN_RES p) 63 32 = (if s.fldR (Reg.PLK_MARGIN p) 39 16 = 0 then 0 else errors) ∧
        t.fldR (Reg.PLK_MARGIN_RES p) 0 0 = 1 ∧ s.onlyRegs t [Reg.PLK_STAT p, Reg.PLK_MARGIN_RES p]) ∧
    (∀ k errors stat res, (k < 64 ∧ stat = Reg.MEM_STAT k ∧ res = Reg.MEM_MARGIN_RES k) ∨
        (k = 64 ∧ stat = Reg.BLK_STAT ∧ res = Reg.BLK_MARGIN_RES) → s.fldR stat 50 50 = 1 → errors < 2 ^ 32 →
      ∃ t, exec (.marginDone k errors) s = .next t ∧ t.fldR stat 50 50 = 0 ∧ t.fldR res 63 32 = errors ∧ t.fldR res 0 0 = 1 ∧
        s.onlyRegs t [stat, res]) ∧
    ∀ k lane retrain, exec (.bulkRecalibration k retrain) s = .next s ∧ exec (.pelvasRecalibration k lane) s = .next s

/-! ### Compute commands (03 to 10) -/

/-- STAGE_START, and SLOT_ACQUIRE of a SCAN held for a slot. In stream order, with the core time of the pre-pass charged, what the
admission still lacked taken, the auxiliary block and the pointer list read and no host error in them: a stage with items starts at
this tick on the arrays granted to it, with W items and none done by its start, and every state handle of a SCAN has a slot; other
commands, contexts and rings stand. With no unit left to serve it, the command is held; with none granted it waits
(R45, R95, R100, R127, R142, R147, R199, R363). -/
def Obligations.StageStarts : Prop :=
  ∀ (s : State) (id core : Nat) (e : Entry), s.runs id e → isCompute e.pkt.op = true → e.stage < e.pkt.stages →
    e.run.started = false → (s.ctx e.ctx).saving = none →
    ∀ c sc ec, (c = Instr.stageStart ⟨id, core⟩ ∧ sc = charge s e core) ∨
        (c = .slotAcquire id ∧ sc = s ∧ e.desc.op = opcScan ∧ e.held ≠ none) → sc.entry id = some ec →
      (s.streamWait e = true ∨ (s.ring e.ring).transfer = true → exec c s = .next s) ∧
      ∀ sa ea aux ps, admitTake sc ec = (sa, none) → sa.entry id = some ea → ea.run.welt = [] →
        64 * ea.pkt.stages ≤ ea.pkt.payload.length → s.streamWait e = false → (s.ring e.ring).transfer = false →
        readAux sa ea ea.desc = .ok aux → readPtrs sa ea ea.desc = .ok ps →
        let d := ea.desc
        let e1 := { ea with run := { ea.run with aux := aux, ptrs := ps } }
        let s1 := updRun (touchAll sa ea.ctx ((if auxVa d = 0 then [] else [(auxVa d, 64)]) ++
          if ptrsVa d = 0 then [] else [(ptrsVa d, 32 * ea.pkt.count)])) id fun r => { r with aux := aux, ptrs := ps }
        descBad s1 e1 d = false → s1.handleClash e1 = false → d.op = opcUpdate ∨ stageEmpty s1 e1 d = false →
        (s1.stageUnits e1 d = [] → ∃ t x, exec c s = .next t ∧ t.entry id = some x ∧ x.held.isSome = true ∧
          x.run.started = false ∧ s.othersKept t id) ∧
        (s1.stageUnits e1 d ≠ [] → s1.stageArrays e1 d = [] → exec c s = .next sa) ∧
        ∀ s2 e2 w u v, s1.stageArrays e1 d ≠ [] → s1.stageUnits e1 d ≠ [] → stageTake s1 e1 d = (s2, none) →
          s2.entry id = some e2 → stageWork s2 e2 d = .ok w → w.count ≠ 0 → stageBegin s2 e2 d (s2.stageArrays e1 d) = (u, none) →
          (if d.op = opcAttn then ringProgress u ((u.entry id).getD e2) d else (u, none)) = (v, none) →
          ∃ x, exec c s = .next v ∧ v.entry id = some x ∧ x.run.started = true ∧ x.run.startTick = s.tickNum ∧
            x.run.arrays = s2.stageArrays e1 d ∧ x.run.items = w.count ∧ x.run.aux = aux ∧ x.run.ptrs = ps ∧
            x.run.done = e.run.done ∧ x.stage = e.stage ∧ x.core = ec.core ∧ x.begun = true ∧ x.held = none ∧ x.done = false ∧
            (s.mem.still → e.desc.op = opcScan → e.pkt.len ≠ 0 → e.desc.scD ≠ 0 → ∀ i, i < e.pkt.count →
              (v.reservedSlot e.ctx (e.pkt.sh + i)).isSome = true ∨
                ∃ n, readSEnt s1 e.ctx (e.pkt.sh + i) = .ok n ∧ n.wh ≠ whNone ∧ n.wh ≠ whSnapshot ∧ n.wh ≠ whParked) ∧
            s.othersKept v id ∧ v.ctxs = sc.ctxs ∧ v.rings = s.rings ∧ v.hol = s.hol

/-- ITEM_CLAIM gives the array the lowest item of the reissue list open to it, else the lowest item not yet given out: the
claim joins the command's claims and SEQ_CLAIM of every core of the array counts it. An array that may not claim, or finds no item, gets
none. ITEM_COMPLETE of the item an array holds first: its bit is set, its claim gone and its core time charged; a
translation fault in it ends the command with TRANSLATION_FAULT (R45, R151 to R155, R158). -/
def Obligations.ItemsClaimedAndCompleted : Prop :=
  ∀ (s : State) (id array : Nat) (e : Entry), s.runs id e → e.run.started = true →
    (∀ w, e.run.welt = [] → stageWork s e e.desc = .ok w →
      (s.mayClaim e array = false ∨ nextItem s e w array = none → exec (.itemClaim id array) s = .next s) ∧
      ∀ i re, s.mayClaim e array = true → nextItem s e w array = some (i, re) →
        (re = true → i ∈ e.run.reissue ∧ ∀ j ∈ e.run.reissue, itemOpen s e w array j = true → i ≤ j) ∧
        (re = false → i < e.run.items ∧ e.run.taken i = false ∧
          ∀ j, j < i → e.run.taken j = true ∨ j ∈ e.run.reissue ∨ itemOpen s e w array j = false) ∧
        ∃ t x, exec (.itemClaim id array) s = .next t ∧ t.entry id = some x ∧
          x.run.claims = e.run.claims ++ [⟨array, i⟩] ∧ (∀ j, j ∈ x.run.reissue ↔ j ∈ e.run.reissue ∧ j ≠ i) ∧
          x.run.done = e.run.done ∧ s.othersKept t id ∧ t.ctxs = s.ctxs ∧ t.mem = s.mem ∧
          (array < 64 → ∀ c ∈ arrayCores (gangOf s e) array,
            t.fldR (Reg.SEQ_CLAIM c) 63 32 = (s.fldR (Reg.SEQ_CLAIM c) 63 32 + 1) % 2 ^ 32) ∧
          s.sameRegs t ((arrayCores (gangOf s e) array).map Reg.LPE_FILL ++ (arrayCores (gangOf s e) array).map Reg.SEQ_CLAIM)) ∧
    ∀ core, let s1 := charge s e core
      ((e.run.claims.find? fun c => decide (c.array = array)) = none ∨ s.unitOn e array = false →
        exec (.itemComplete id array core) s = .next s) ∧
      ∀ c, (e.run.claims.find? fun c => decide (c.array = array)) = some c → s.unitOn e array = true →
        (∀ t, finishItem s1 e c.item array = (t, none) →
          ∃ x, exec (.itemComplete id array core) s = .next t ∧ t.entry id = some x ∧ c.item ∈ x.run.done.map (·.item) ∧
            (∀ k ∈ x.run.claims, k.item ≠ c.item) ∧ x.core = e.core + core ∧ x.done = false ∧
            (t.ctx e.ctx).used = (s.ctx e.ctx).used + core ∧ (s.weltSent id → s.othersKept t id) ∧
            ∀ n, n ≠ e.ctx → t.ctx n = s.ctx n) ∧
        ∀ u va, finishItem s1 e c.item array = (u, some (.trans va)) →
          ∃ t, exec (.itemComplete id array core) s = .next t ∧ s.reports t e 2 ∧ (s.weltSent id → s.othersKept t id)

/-- What follows the items. SLICE_ADD takes a waiting slice partial into its tile's sum, each 64-bit value modulo 2^64; the
partial whose add is the tile's last commits every block of the tile, and the sum gives its space back. CHUNK_RECURRENCE of a chunk with a
sweep that can start, and that no lower one of its engine precedes, runs the sweep's positions once from its incoming carry and leaves
its outgoing seam; with no sweep that can start, as of a chunk already run, nothing but the time is booked. Both charge their core time.
SEAM_RECEIVE of a seam whose packets have all come marks it arrived, and only that, where its space can be held; any other it leaves
(R45, R122, R155, R156, R202 to R205). -/
def Obligations.SlicesChunksAndSeams : Prop :=
  ∀ (s : State) (id : Nat) (e : Entry), s.runs id e →
    (∀ i c, e.desc.op = opcScan →
      (e.seamDue e.desc i c = false → exec (.seamReceive id i c) s = .next s) ∧
      (e.seamDue e.desc i c = true → 8 * e.desc.scD ≤ s.regionFree (seamTarget s e e.desc i c) ∨
          s.areaHeld e.ctx + 8 * e.desc.scD ≤ s.spillSize e.ctx →
        ∃ t x, exec (.seamReceive id i c) s = .next t ∧ t = s.putFlight t.flight ∧ t.entry id = some x ∧
          x.run.seams = e.run.seams.map (fun y => if y.entry = i ∧ y.chunk = c then { y with arrived := true } else y) ∧
          x.run.sweeps = e.run.sweeps ∧ x.run.done = e.run.done ∧ s.othersKept t id)) ∧
    (e.run.started = true → ∀ core, let s0 := charge s e core
      (∀ item pt key p t, (e.run.parts.find? fun x => decide (x.key = item)) = some pt → keyOf s0 e = .ok key →
        stageWork s0 e e.desc = .ok (.prod p) → addSlice s0 e item = (t, none) →
        let ti := p.itemTile item
        let all := (List.range p.slices).all fun sl => (e.run.adds ++ [item]).contains (ti * p.slices + sl)
        exec (.sliceAdd id ⟨item, core⟩) s = .next t ∧ t.ctxs = s0.ctxs ∧ (s.weltSent id → s.othersKept t id) ∧
          ∃ x, t.entry id = some x ∧ x.run.adds = e.run.adds ++ [item] ∧ x.core = e.core + core ∧
            (∀ y, y ∈ x.run.parts ↔ y ∈ e.run.parts ∧ y.key ≠ item) ∧
            (all = false → t = s0.putFlight t.flight ∧
              ∃ r, (x.run.red.find? fun y => decide (y.key = ti)) = some r ∧
                ((e.run.red.find? fun y => decide (y.key = ti)) = none → r.vals = pt.vals) ∧
                ∀ o, (e.run.red.find? fun y => decide (y.key = ti)) = some o →
                  r.vals = List.zipWith (fun a b => wrap64 (a + b)) o.vals pt.vals) ∧
            (all = true → (∀ y ∈ x.run.red, y.key ≠ ti) ∧
              ∀ q ∈ p.passes (p.tiles.getD ti ⟨0, 0, 0⟩), p.blockNo ti q ∈ x.run.commits)) ∧
      ∀ i c key p o, e.desc.op = opcScan → keyOf s0 e = .ok key → stageProd s0 e e.desc = .ok p →
        sweepDue s0 e e.desc p i c = .ok o →
        (e.run.sweeps.contains (i, c, 0) = true → e.desc.scMode = false ∨ e.run.sweeps.contains (i, c, 1) = true → o = none) ∧
        (o = none ∨ lowerDue s0 e e.desc p i c = true → exec (.chunkRecurrence id i ⟨c, core⟩) s = .next s0) ∧
        ∀ w t, o = some w → lowerDue s0 e e.desc p i c = false → chunkAct s0 e i c = (t, none) →
          exec (.chunkRecurrence id i ⟨c, core⟩) s = .next t ∧ t.ctxs = s0.ctxs ∧ (s.weltSent id → s.othersKept t id) ∧
            ∃ x, t.entry id = some x ∧ x.run.sweeps = (i, c, w.kind) :: e.run.sweeps ∧ x.core = e.core + core ∧
              (w.seam = true → ∃ k here, ⟨i, c, k, here⟩ ∈ x.run.seams ∧ k.pos = w.c0.pos + w.ts.length) ∧
              (w.seam = false → x.run.seams = e.run.seams))

/-- STAGE_COMPLETE. While an item, an add, a chunk or a ring block of the stage is missing nothing happens. Once all are in
and the stage's last writes succeed: with a stage to follow, the command goes on to it, its output handed over where
out_dst says so; after the last stage it completes with OK, or TICK_OVERRUN when late, where its return ring can hold the record
(R44, R95, R104, R154). -/
def Obligations.StageCompletes : Prop :=
  ∀ (s : State) (id time : Nat) (e : Entry), s.runs id e → e.run.started = true →
    (stageDone s e = false → exec (.stageComplete id time) s = .next s) ∧
    ∀ u e1 t, stageDone s e = true → stageFinish s e = (u, none) → u.entry id = some e1 → stageNext u e1 (some time) = (t, none) →
      exec (.stageComplete id time) s = .next t ∧
        (e.stage + 1 < e.pkt.stages → t.ctxs = s.ctxs ∧ s.othersKept t id ∧ t.rings = s.rings ∧
          ∃ x, t.entry id = some x ∧ x.stage = e.stage + 1 ∧ x.run.started = false ∧ x.run.done = [] ∧ x.done = false ∧
            x.handover = (if e.desc.outDst = 1 then e1.run.outBuf else []) ∧
            x.ret = if e.desc.outDst = 2 then e1.ret ++ e1.run.outBuf else e1.ret) ∧
        (e.pkt.stages ≤ e.stage + 1 →
          packetEntries (if e.desc.outDst = 2 then e1.ret ++ e1.run.outBuf else e1.ret).length ≤ s.retCap e.ctx →
          s.reports t e (s.okStatus e) ∧ (∃ x, t.entry id = some x ∧ x.done = true) ∧ s.othersKept t id ∧ t.rings = s.rings ∧
            ∀ n, n ≠ e.ctx → t.ctx n = s.ctx n)

/-- Halos and prefetch. WELT_PACKET_RECEIVE with a good CRC acknowledges the packet: at its final array it is no longer outstanding, and
at an array on its way it goes on to the final one with its bytes. With a bad one it is resent and both counted; the third failed
resend counts a failure and ends the stage that needs it with DATA_ERROR_DETECTED (R162 to R164). PREFETCH in RUN, for a granted array,
marks what the array holds ahead, in place of what waited there, and writes no byte of memory in which no error stands (R172 to R176). -/
def Obligations.HalosAndPrefetch : Prop :=
  ∀ (s : State) (id : Nat) (e : Entry), s.runs id e →
    (∀ dst seq p, (e.run.welt.find? fun p => p.sent && decide (p.dst = dst ∧ p.seq = seq ∧ p.fails < 4)) = some p →
      (∀ t, acceptPacket s e p = (t, none) →
        exec (.weltPacketReceive id dst seq true) s = .next t ∧ t.ctxs = s.ctxs ∧ t.mem = s.mem ∧
          (s.weltSent id → s.othersKept t id) ∧
          ∃ x, t.entry id = some x ∧ x.run.done = e.run.done ∧
            (p.dst = p.final → ∀ n, n ∈ x.run.welt.map (·.seq) ↔ n ∈ e.run.welt.map (·.seq) ∧ n ≠ seq) ∧
            (p.dst ≠ p.final → ∃ q ∈ x.run.welt, q.seq = seq ∧ q.src = p.dst ∧ q.dst = p.final ∧ q.fails = 0 ∧ q.bytes = p.bytes)) ∧
      (p.fails < 3 → p.src < 64 →
        ∃ t x, exec (.weltPacketReceive id dst seq false) s = .next t ∧ t.entry id = some x ∧
          { p with fails := p.fails + 1 } ∈ x.run.welt ∧ x.run.welt.length = e.run.welt.length ∧ x.done = false ∧
          t.fldR (Reg.SEQ_WELT p.src) 63 32 = (s.fldR (Reg.SEQ_WELT p.src) 63 32 + 1) % 2 ^ 32 ∧
          t.fldR (Reg.SEQ_WELT p.src) 31 16 = min 65535 (s.fldR (Reg.SEQ_WELT p.src) 31 16 + 1) ∧
          s.sameRegs t [Reg.SEQ_WELT p.src] ∧ s.sameMemory t ∧ t.ctxs = s.ctxs) ∧
      (p.fails = 3 → p.stage + 1 = e.stage ∨ (p.stage = e.stage ∧ e.desc.op = opcScan) → p.src < 64 →
        ∃ t, exec (.weltPacketReceive id dst seq false) s = .next t ∧ s.reports t e 3 ∧
          t.fldR (Reg.SEQ_WELT p.src) 15 0 = min 65535 (s.fldR (Reg.SEQ_WELT p.src) 15 0 + 1) ∧ s.othersKept t id)) ∧
    ∀ array va len fmt,
      (s.devState = stRun → isCompute e.pkt.op = true → fmt < 12 → prefetchStage e < e.pkt.stages →
        (s.grantedArrays e.ctx e.cls).contains array = true → prefetchBarred s e va len = false →
        ∃ t i, exec (.prefetch id array va len fmt) s = .next t ∧
          ⟨array, id, prefetchStage e, i, va, len, false⟩ ∈ t.prefetched ∧
          (∀ x ∈ t.prefetched, x.array = array → x.used = false → x = ⟨array, id, prefetchStage e, i, va, len, false⟩) ∧
          (∀ x, x.array ≠ array → (x ∈ t.prefetched ↔ x ∈ s.prefetched)) ∧ (s.mem.still → s.sameMemory t) ∧ s.sameWork t) ∧
      (s.devState ≠ stRun ∨ prefetchBarred s e va len = true → exec (.prefetch id array va len fmt) s = .next s)

/-- The compute commands MATMUL, CONV, SCAN, ATTN, UPDATE and RNG_FILL, run on what is left of a started stage of their
opcode whose halos have come: no item that was done is undone, the core time is charged, and the command goes on; where every array may
claim, every item of RNG_FILL, and of a product that is not in grid order, is done; a translation fault ends it with
TRANSLATION_FAULT; no other command, context or ring is touched, and a stage of another opcode is left alone. The one
output of a MATMUL of one row and column stored to memory is the code of the converted exact sum; the sum of products
none of which is limited is their sum on the grid, modulo 2^64 (R95, R120, R131, R151, R155). -/
def Obligations.StageResults : Prop :=
  (∀ (s : State) (id core : Nat) (e : Entry), s.runs id e → e.run.started = true →
    ∀ c op, (c, op) ∈ [(Instr.matmul id core, opcMatmul), (.conv id core, opcConv), (.scan id core, opcScan),
        (.attn id core, opcAttn), (.update id core, opcUpdate), (.rngFill id core, opcRngFill)] →
      (e.desc.op ≠ op → exec c s = .next s) ∧
      (e.desc.op = op → (∀ p ∈ e.run.welt, e.stage ≤ p.stage) →
        (∀ t, runRest (charge s e core) id op = (t, none) →
          exec c s = .next t ∧ (s.weltSent id → s.othersKept t id) ∧ ∃ x, t.entry id = some x ∧
            (∀ i ∈ e.run.done.map (·.item), i ∈ x.run.done.map (·.item)) ∧
            (∀ w, stageWork s e e.desc = .ok w → (∃ p, w = .prod p ∧ p.order ≠ 3) ∨ (∃ n, w = .rng n) → e.run.claims = [] →
              e.run.arrays ≠ [] → (∀ a ∈ e.run.arrays, a < 64 ∧ s.mayClaim e a = true) →
              ∀ i, i < e.run.items → i ∈ x.run.done.map (·.item)) ∧
            x.core = e.core + core ∧ x.done = false ∧ x.stage = e.stage ∧ x.run.items = e.run.items ∧
            (t.ctx e.ctx).used = (s.ctx e.ctx).used + core ∧ (∀ n, n ≠ e.ctx → t.ctx n = s.ctx n) ∧ t.rings = s.rings) ∧
        ∀ u va, runRest (charge s e core) id op = (u, some (.trans va)) →
          ∃ t, exec c s = .next t ∧ s.reports t e 2 ∧ (s.weltSent id → s.othersKept t id))) ∧
  (∀ (s : State) (id core : Nat) (e : Entry) (key : Key) (p : Prod) (q : Pass) (o : ItemSums) (cv : Conv1), s.runs id e → s.mem.still →
    e.run.started = true → e.desc.op = opcMatmul → e.pkt.count = 1 → e.run.items = 1 → e.run.done = [] → e.run.parts = [] →
    e.run.claims = [] → e.run.commits = [] → e.run.welt = [] → e.run.arrays.headD 0 < 64 →
    s.mayClaim e (e.run.arrays.headD 0) = true →
    e.desc.mmN = 1 → mmRows e e.desc 0 = 1 → e.desc.outDst = 0 → e.desc.onAwl = false → keyOf s e = .ok key →
    stageProd s e e.desc = .ok p → p.slices = 1 → p.kOuter = false → p.order ≠ 3 → p.tiles = [⟨0, 0, 0⟩] →
    p.passes ⟨0, 0, 0⟩ = [q] → (∃ l, mmSums s e e.desc p (p.ent 0) q = .ok l) →
    p.sums s key (e.run.anchors.getD 0 0) ⟨0, 0, 0⟩ 0 0 = .ok o →
    mmConvert s e e.desc key (e.run.anchors.getD 0 0) 0 [0] 0 o.pt.vals = .ok [cv] →
    let y := (mmAddr e e.desc 0).y
    s.canStore e.ctx y (outBytes e.desc.mmOut) → y % 64 = 0 →
    ∃ t, exec (.matmul id core) s = .next t ∧
      (∀ k l, k < outBytes e.desc.mmOut → translate s e.ctx (y + k) true = .ok l →
        t.byteAt l.pa = BitVec.ofNat 8 (cv.code / 256 ^ k)) ∧
      s.storesOnly t e.ctx y (outBytes e.desc.mmOut)) ∧
  ∀ (a : Int) (word : Nat → Nat) (xs ws : List Ex), xs.length = ws.length →
    let grid (x : Ex × Ex) : Int := roundGrid ((x.1.mul x.2).scale (48 - a)) false fun _ => 0
    (∀ x ∈ xs.zip ws, 0 < (x.1.mul x.2).den ∧ (grid x).natAbs < 2 ^ 48) →
    (dotFrom a false word 0 Acc64.zero xs ws).v = wrap64 (((xs.zip ws).map grid).foldl (· + ·) 0) ∧
      (dotFrom a false word 0 Acc64.zero xs ws).sat = 0

/-! ### Collectives (13_collectives_and_scale.md) -/

/-- A COLLECTIVE starts when its group is VALID, of the context's partition, holds this device at its rank, its operands are
defined and the spill area has room. It is then running, what an ALLTOALL drops is counted, and each message for another
rank goes out on its route. Alone in its group it completes at once: its own contribution is the result, which an
ALLGATHER, a BROADCAST and a reduction to A64 store unchanged; ANCHOR adds the largest exponent to its destination's
16-bit field; a RECV waits. One already running is settled when everything has arrived and waits otherwise; a SEND completes once none
of its messages waits for an acknowledgement. In memory that holds no error, without a state handle, whose draw would advance (R257,
R339 to R352, R354). -/
def Obligations.CollectivesIssued : Prop :=
  ∀ (s : State) (id : Nat) (e : Entry), s.runs id e → e.pkt.op = opcCollective →
    let c := collOf e.pkt
    let g := s.group c.group
    ∀ i op, (i, op) ∈ [(Instr.allreduce id, coAllreduce), (.reduceScatter id, coReduceScatter), (.allgather id, coAllgather),
        (.broadcast id, coBroadcast), (.alltoall id, coAlltoall), (.send id, coSend), (.recv id, coRecv), (.anchor id, coAnchor)] →
      (c.op ≠ op → exec i s = .next s) ∧
      (c.op = op → e.begun = true →
        (c.op = coSend ∨ collArrived e c g = false → exec i s = .next (settleSends s)) ∧
        ((∀ x ∈ s.flight, x.pkt.op = opcCollective → x = e) → e.pkt.sh = 0 → s.mem.still →
          (c.op = coSend → e.recvd = [] → e.detail = 0 → s.unacked = [] →
            ∃ t, exec i s = .next t ∧ s.reports t e (s.okStatus e) ∧ s.sameMemory t ∧ s.othersKept t id) ∧
          (c.op = coSend → e.recvd ≠ [] → exec i s = .next s) ∧
          (c.op ≠ coSend → c.op ≠ coAnchor → collArrived e c g = true → s.canStore e.ctx c.dst (collOut e c g).1.length →
            ∃ t, exec i s = .next t ∧ s.reports t e (if e.detail = 0 then s.okStatus e else 7) ∧
              s.storesOnly t e.ctx c.dst (collOut e c g).1.length ∧ s.othersKept t id))) ∧
      (c.op = op → e.begun = false → e.pkt.sh = 0 → s.mem.still → e.recvd = [] → e.stagedVals = [] → e.stagedRaw = [] → s.fab.store = [] →
        (∀ x ∈ s.flight, x.pkt.op = opcCollective → x = e) → s.unacked = [] →
        g.valid = true → g.part = e.part → g.rank < g.size → collBad e.pkt c g = false → g.members.getD g.rank 65536 = s.devId →
        s.areaHeld e.ctx + c.dstBytes g ≤ s.spillSize e.ctx → s.fldR Reg.FI_CTL 0 0 = 0 →
        ∀ bs, vread s e.ctx c.src (c.srcBytes g) = .ok bs →
          (2 ≤ g.size → c.n ≠ 0 → s.canStore e.ctx c.dst (c.dstBytes g) →
            ∃ t x, exec i s = .next t ∧ t.entry id = some x ∧ x.begun = true ∧ x.held = none ∧ x.detail = dropped e.pkt c g ∧
              t.fldR Reg.CLX_COLL_DROP 63 0 = (s.fldR Reg.CLX_COLL_DROP 63 0 + dropped e.pkt c g) % 2 ^ 64 ∧
              (∀ o ∈ outgoing e.pkt c g bs, (o.rank ≠ g.rank ∨ (c.reduces = true ∧ g.algo = 0)) → ∀ p,
                let dst := g.members.getD o.rank 0
                let body := FabBody.coll c.op g.key g.rank o.contributors false o.first
                  (if c.reduces then toTwos 16 c.anchor else 0) o.data
                s.egress (decide (g.algo = 1)) dst body = some p →
                  ∃ q, (p, ⟨dst, s.devId, false, c.seq, q, body⟩) ∈ t.out.sent) ∧
              s.othersKept t id ∧ (∀ n, n ≠ e.ctx → t.ctx n = s.ctx n)) ∧
          (g.size = 1 → c.op ≠ coRecv → c.op ≠ coAnchor → s.canStore e.ctx c.dst (c.dstBytes g) →
            ∃ t, exec i s = .next t ∧ s.reports t e (if dropped e.pkt c g = 0 then s.okStatus e else 7) ∧
              s.storesOnly t e.ctx c.dst (c.dstBytes g) ∧ (∀ k, k ≠ id → t.entry k = s.entry k) ∧
              (c.op = coAllgather ∨ c.op = coBroadcast ∨ (c.reduces = true ∧ c.fmt = 6) → ∀ k l, k < c.dstBytes g →
                translate s e.ctx (c.dst + k) true = .ok l →
                (∀ j m, j < c.dstBytes g → translate s e.ctx (c.dst + j) true = .ok m → m.pa = l.pa → j = k) →
                t.byteAt l.pa = bs.getD k 0)) ∧
          (c.op = coRecv → c.n ≠ 0 →
            ∃ t x, exec i s = .next t ∧ t.entry id = some x ∧ x.begun = true ∧ x.held = none ∧ x.done = false ∧ s.sameMemory t ∧
              t.ctxs = s.ctxs ∧ ∀ k, k ≠ id → t.entry k = s.entry k) ∧
          (c.op = coAnchor → g.size = 1 → ∀ v l, exponentOf c bs ≠ noExponent → vread64 s e.ctx (c.dst / 8 * 8) = .ok v →
            s.canStore e.ctx (c.dst / 8 * 8) 8 → translate s e.ctx (c.dst / 8 * 8) true = .ok l →
            ∃ t, exec i s = .next t ∧ s.reports t e (s.okStatus e) ∧ s.storesOnly t e.ctx (c.dst / 8 * 8) 8 ∧
              ∀ k, k < 8 → t.byteAt (l.pa + k) =
                BitVec.ofNat 8 ((v / 2 ^ 16 * 2 ^ 16 + toTwos 16 ((v : Int) + exponentOf c bs)) / 256 ^ k)))

/-- Messages of collectives as they arrive, for this device, on an UP port of a part whose ID is its own; no other is taken.
COLLECTIVE_DATA: of a collective that failed it
is discarded; of one not yet admitted it is kept while the receive store has room; of a running one it joins the entry's
contributions, and when it is the last, the destination is written and the command completes. COLLECTIVE_ABORT completes
a matching command with UNIT_UNAVAILABLE and lets nothing of that collective in again. RING_KV_BLOCK is kept for its stage,
and forwarded by one that runs until it has made SIZE − 1 hops; of a failed exchange it is discarded (R232, R233, R347 to
R349). -/
def Obligations.CollectivesReceived : Prop :=
  ∀ (s : State) (port : Nat) (m : FabMsg),
    (s.takesVc12 port m = false → exec (.collectiveData port m) s = .next s ∧ exec (.collectiveAbort port m) s = .next s) ∧
    (s.takesVc12 port m = true → ∀ op key rank k first anchor data,
      (m.body = .coll op key rank k false first anchor data →
        (s.fab.dead.contains (key, m.tag) = true → exec (.collectiveData port m) s = .next s) ∧
        (s.fab.dead.contains (key, m.tag) = false →
          (s.collMatch key m.tag op false = none →
            (s.storeBytes + bodyLength m.body ≤ 4 * 2 ^ 20 →
              exec (.collectiveData port m) s = .next (s.putFab { s.fab with store := s.fab.store ++ [m] })) ∧
            (4 * 2 ^ 20 < s.storeBytes + bodyLength m.body → exec (.collectiveData port m) s = .next s)) ∧
          ∀ e, s.collMatch key m.tag op false = some e → s.entry e.id = some e →
            let c := collOf e.pkt
            let g := s.group c.group
            collAgrees e c g op rank first anchor data.length = true → (c.op = coRecv → rank = c.peer) →
            let e1 := if c.reduces then takeSum e k first data else takeBytes e c rank k first data
            (collArrived e1 c g = false →
              ∃ t, exec (.collectiveData port m) s = .next t ∧ t.entry e.id = some e1 ∧ s.sameMemory t ∧ t.ctxs = s.ctxs ∧
                ∀ n, n ≠ e.id → t.entry n = s.entry n) ∧
            (collArrived e1 c g = true → c.op ≠ coAnchor → s.canStore e.ctx c.dst (collOut e1 c g).1.length → e.pkt.sh = 0 →
              s.mem.still → ∃ t, exec (.collectiveData port m) s = .next t ∧ s.reports t e (if e.detail = 0 then s.okStatus e else 7) ∧
                s.storesOnly t e.ctx c.dst (collOut e1 c g).1.length ∧ ∀ n, n ≠ e.id → t.entry n = s.entry n))) ∧
      (m.body = .coll op key rank k true first anchor data → s.fab.dead.contains (key, m.tag) = false →
        ∀ e, s.collMatch key m.tag op true = some e → s.entry e.id = some e →
          ∃ t, exec (.collectiveAbort port m) s = .next t ∧ s.reports t e 1 ∧ t.fab.dead = (key, m.tag) :: s.fab.dead ∧
            (∀ x ∈ t.fab.store, x ∈ s.fab.store) ∧ s.sameMemory t ∧ ∀ n, n ≠ e.id → t.entry n = s.entry n)) ∧
    ∀ kind origin hops base page kf vf rows data, m.body = .ringBlock kind origin hops base page kf vf rows data →
      (s.kv.dead.contains m.tag = true → exec (.ringKvBlock port m) s = .next s) ∧
      (s.takesVc12 port m = false → exec (.ringKvBlock port m) s = .next s) ∧
      (s.takesVc12 port m = true → s.kv.dead.contains m.tag = false →
        let s1 := s.putKv { s.kv with blocks := s.kv.blocks ++ [m] }
        (s.ringStage m.tag = none → exec (.ringKvBlock port m) s = .next s1) ∧
        ∀ e t, s.ringStage m.tag = some e → useBlock s1 e m = (t, none) →
          exec (.ringKvBlock port m) s = .next t ∧ t.kv.blocks = s.kv.blocks ++ [m] ∧
          (s.fldR Reg.FI_CTL 0 0 = 0 → ∀ p,
            let ring := s.kvRing e.desc
            let body := FabBody.ringBlock kind origin (hops + 1) base page kf vf rows data
            hops + 1 < ring.1 → s.egress false ring.2.2 body = some p →
              ∃ q, (p, ⟨ring.2.2, s.devId, false, m.tag, q, body⟩) ∈ t.out.sent))

/-! ### Ports of the fabric (12_pelvas_fabric.md) -/

/-- Ports. PORT_UP of an enabled port whose lanes give width 4 or 2 brings it UP and sends HELLO and TIME; with both lane
pairs failed it stays DOWN. LINK_DOWN clears the port, counts the fall of an UP link, loses its replay buffer, and makes a
manager announce the departure of the member behind it; on a device that is no manager no other port changes. A retrain counts
and leaves the port UP at the width its lanes give; a packet in order is acknowledged, its message acting as a command of
its own, and any other is replayed, the eighth in a row starting a retrain (R312, R313, R315, R321, R324, R332, R335). -/
def Obligations.Links : Prop :=
  ∀ (s : State) (p : Nat), p < 12 → s.fab.ports.length = 12 →
    let r := Reg.PLK_STAT p
    let st := s.fldR r 63 62
    (∀ bad, 3 ≤ s.devState → s.devState ≤ 6 → s.portOk p = true → s.fldR (Reg.PLK_CTL p) 63 63 = 1 → st < 2 →
      (widthOf bad ≠ 0 → s.fldR Reg.FI_CTL 0 0 = 0 → s.fab.held = [] →
        ∃ t a b, exec (.portUp p bad) s = .next t ∧ t.fldR r 63 62 = 2 ∧ t.fldR r 61 60 = widthOf bad ∧
          t.out.sent = s.out.sent ++ [(p, ⟨0, s.devId, true, 0, a, .hello s.devId (s.reg Reg.GLB_SERIAL) p s.eligible false⟩),
            (p, ⟨s.fldR r 47 32, s.devId, false, 0, b, .time 0 0⟩)] ∧
          (t.port p).rxSeq = 0 ∧ (t.port p).partnerSeen = false ∧ (∀ q, q ≠ p → t.port q = s.port q) ∧ s.sameRegs t [r]) ∧
      (widthOf bad = 0 → ∃ t, exec (.portUp p bad) s = .next t ∧ t.fldR r 63 62 = 0 ∧ t.fldR r 61 60 = 0 ∧ s.onlyRegs t [r])) ∧
    (st ≠ 0 → ∃ t, exec (.linkDown p) s = .next t ∧ t.fldR r 63 62 = 0 ∧ t.fldR r 61 60 = 0 ∧
      (s.isManager = false → t.port p = Port.down ∧ ∀ q, q ≠ p → t.port q = s.port q) ∧
      t.fldR (Reg.PLK_ERR p) 3 0 = (if st = 2 then min 15 (s.fldR (Reg.PLK_ERR p) 3 0 + 1) else s.fldR (Reg.PLK_ERR p) 3 0) ∧
      (s.isManager = true → (s.port p).partnerSeen = true → s.portSwitch p = false → s.fldR r 47 32 ≠ s.devId →
        s.fldR r 47 32 ∈ s.fab.members.map (·.id) → (∀ k ∈ s.fab.changes, k.2.1 = s.fldR r 47 32 → k.2.2 = true) →
        (s.tickNum + 1, s.fldR r 47 32, false) ∈ t.fab.changes)) ∧
    (st = 0 → exec (.linkDown p) s = .next s) ∧
    (s.live = true → st = 2 → ∃ t, exec (.plkRetrain 0 p) s = .next t ∧ t.fldR r 63 62 = 3 ∧
      t.fldR (Reg.PLK_ERR p) 7 4 = min 15 (s.fldR (Reg.PLK_ERR p) 7 4 + 1) ∧ s.sameRegs t [r, Reg.PLK_ERR p] ∧ s.sameWork t) ∧
    (∀ fn, fn ≠ 0 → exec (.plkRetrain fn p) s = .next s) ∧
    (∀ bad, (st ≠ 3 → exec (.retrainComplete p bad) s = .next s) ∧
      (st = 3 → widthOf bad ≠ 0 → ∃ t, exec (.retrainComplete p bad) s = .next t ∧ t.fldR r 63 62 = 2 ∧
        t.fldR r 61 60 = widthOf bad ∧ s.onlyRegs t [r]) ∧
      (st = 3 → widthOf bad = 0 → ∃ t, exec (.retrainComplete p bad) s = .next t ∧ t.fldR r 63 62 = 0)) ∧
    (st = 2 → ∀ seq ack n,
      let s1 := (s.addF (Reg.PLK_ERR p) 63 32 n).setPort p fun q =>
        { q with rxSeq := wrapAdd 16 seq 1, replays := 0, replay := acked ack q.replay }
      (seq = (s.port p).rxSeq → exec (.linkPacketReceive p seq ack n true true none) s = .next (settleSends s1) ∧
        ∀ m u, s.fldR Reg.FI_CTL 0 0 = 0 → s.fab.held = [] → u.fab.held = [] →
          (∃ c, exec c s1 = .next u ∧ (c, bodyType m.body) ∈ [(Instr.hello p m, 0x01), (.elect p m, 0x02), (.heartbeat p m, 0x03),
            (.time p m, 0x04), (.clasp p m, 0x10), (.ready p m, 0x11), (.unready p m, 0x12), (.member p m, 0x13),
            (.flockDrop p m, 0x14)]) →
          exec (.linkPacketReceive p seq ack n true true (some m)) s = .next (settleSends u)) ∧
      ∀ crcOk fecOk msg, seq ≠ (s.port p).rxSeq ∨ crcOk = false ∨ fecOk = false →
        ∃ t, exec (.linkPacketReceive p seq ack n crcOk fecOk msg) s = .next t ∧ (t.port p).rxSeq = (s.port p).rxSeq ∧
          t.fldR (Reg.PLK_ERR p) 23 8 = min 65535 (s.fldR (Reg.PLK_ERR p) 23 8 + 1) ∧
          t.fldR (Reg.PLK_ERR p) 63 32 = (s.fldR (Reg.PLK_ERR p) 63 32 + n) % 2 ^ 32 ∧
          t.fldR r 63 62 = (if 7 ≤ (s.port p).replays then 3 else 2) ∧
          (t.port p).replays = (if 7 ≤ (s.port p).replays then 0 else (s.port p).replays + 1) ∧ s.sameWork t) ∧
    ∀ k, ((s.fab.held.find? fun h => decide (h.1 = k)) = none → exec (.fiHoldRelease k) s = .next s) ∧
      ∀ m, (s.fab.held.find? fun h => decide (h.1 = k)) = some (k, p, m) → st = 2 → s.fldR (Reg.FI_RULE k) 45 45 = 0 →
        ∃ t, exec (.fiHoldRelease k) s = .next (settleSends t) ∧ t.out.sent = s.out.sent ++ [(p, m)] ∧
          t.fab.held = s.fab.held.erase (k, p, m) ∧ s.sameWork t ∧ s.sameRegs t []

/-- The domain. A message for another device is ignored. HELLO records the partner, or the switch, and what is told of the fabric;
another device with this ID sets DUP_ID. ELECT is answered by the manager with an admission, and a lower eligible ID is kept and sent
on; 100 µs later the device that holds the lowest eligible ID is manager, and it and every device it has heard join at the edge that is
scheduled next (the model's reading, log entry 77). HEARTBEAT proves
its sender alive and, from the manager, gives the domain time; TIME is answered, and an answer gives the link's delay.
The 1 ms and 10 µs timers send HELLO, TIME and HEARTBEAT (R321 to R324, R326, R332). -/
def Obligations.DomainMessages : Prop :=
  ∀ (s : State) (p : Nat) (m : FabMsg), s.portUp p = true → s.fab.ports.length = 12 →
    (s.forMe m = false → ∀ c ∈ [Instr.hello p m, .elect p m, .heartbeat p m, .clasp p m, .ready p m, .unready p m, .member p m,
      .flockDrop p m], exec c s = .next s) ∧
    (s.forMe m = true → ∀ id serial pport elig switch, m.body = .hello id serial pport elig switch →
      let r := Reg.PLK_STAT p
      ∃ t, exec (.hello p m) s = .next t ∧ s.sameMemory t ∧ s.sameWork t ∧
        (switch = true ∨ ¬((s.port p).partnerSeen = true ∧ s.portSwitch p = true) →
          t.fldR r 59 59 = b2n switch ∧ t.fldR r 51 48 = pport % 16 ∧ t.fldR r 47 32 = (if switch then 0 else id % 2 ^ 16) ∧
          t.reg (Reg.PLK_PARTNER p) = serial ∧ (t.port p).partnerSeen = true) ∧
        (switch = false → serial ≠ s.reg Reg.GLB_SERIAL → (id, serial, elig) ∈ t.fab.known ∧
          (∀ k ∈ t.fab.known, k.2.1 = serial → k = (id, serial, elig)) ∧ (id = s.devId → t.fldR Reg.CLX_STAT 57 57 = 1))) ∧
    (s.forMe m = true → ∀ low, m.body = .elect low →
      (s.dupId = true ∨ s.joined = false → s.isManager = false → exec (.elect p m) s = .next s) ∧
      (s.dupId = false → s.joined = true → s.leads = true → m.src ≠ s.devId → m.src ∉ s.fab.members.map (·.id) →
        (∀ k ∈ s.fab.changes, k.2.1 = m.src → k.2.2 = false) →
        ∃ t, exec (.elect p m) s = .next t ∧ (s.nextOpenEdge, m.src, true) ∈ t.fab.changes ∧ t.fab.members.length = s.fab.members.length) ∧
      (s.dupId = false → s.joined = true → s.isManager = false → s.manager = none →
        ∃ t, exec (.elect p m) s = .next t ∧ m.src ∈ t.fab.members.map (·.id) ∧
          t.fab.best = (if (∀ b, s.bestKnown = some b → low < b) then some low else s.fab.best) ∧
          (s.fldR Reg.FI_CTL 0 0 = 0 → (∀ b, s.bestKnown = some b → low < b) → ∀ q ∈ s.upPorts, ∃ n,
            (q, ⟨0, s.devId, true, 0, n, .elect low⟩) ∈ t.out.sent))) ∧
    (s.dupId = false → s.joined = true → s.eligible = true → s.manager = none → s.inGroup = false →
      (s.bestKnown = some s.devId →
        ∃ t, exec .electionTimeout s = .next t ∧ t.leads = true ∧ t.inGroup = false ∧ t.manager = some s.devId ∧
          t.fab.members = [] ∧ (s.nextOpenEdge, s.devId, true) ∈ t.fab.changes ∧ s.sameRegs t [Reg.CLX_MGR, Reg.CLX_STAT] ∧
          ∀ i ∈ s.fab.members.map (·.id), i ≠ s.devId → (s.nextOpenEdge, i, true) ∈ t.fab.changes) ∧
      (s.bestKnown ≠ some s.devId → exec .electionTimeout s = .next s)) ∧
    (s.forMe m = true → ∀ time corr, m.body = .heartbeat time corr →
      ∃ t, exec (.heartbeat p m) s = .next t ∧ (∀ x ∈ t.fab.members, x.id = m.src → x.silent = 0) ∧
        t.fab.domainTime = (if s.manager = some m.src then time + corr + (s.port p).delay else s.fab.domainTime) ∧
        t = s.putFab t.fab ∧ ∀ x ∈ s.fab.members, x.id ≠ m.src → x ∈ t.fab.members) ∧
    (∀ trip resid, m.body = .time trip resid →
      (¬(trip = 0 ∧ resid = 0) → ∃ t, exec (.time p m) s = .next t ∧ (t.port p).delay = (trip - resid) / 2 ∧
        t = s.putFab t.fab ∧ ∀ q, q ≠ p → t.port q = s.port q) ∧
      (trip = 0 → resid = 0 → s.fldR Reg.FI_CTL 0 0 = 0 →
        ∃ t n v, exec (.time p m) s = .next t ∧
          (p, ⟨s.fldR (Reg.PLK_STAT p) 47 32, s.devId, false, 0, n, .time 0 v⟩) ∈ t.out.sent ∧ s.sameMemory t ∧ s.sameWork t)) ∧
    (s.fldR Reg.FI_CTL 0 0 = 0 → s.fab.held = [] →
      (∃ t, exec .helloTimer s = .next t ∧ s.sameRegs t [] ∧ s.sameWork t ∧ t.out.sent.length = s.out.sent.length + s.upPorts.length ∧
        ∀ q ∈ s.upPorts, ∃ n,
          (q, ⟨0, s.devId, true, 0, n, .hello s.devId (s.reg Reg.GLB_SERIAL) q s.eligible false⟩) ∈ t.out.sent) ∧
      (∃ t, exec .timeTimer s = .next t ∧ s.sameRegs t [] ∧ s.sameWork t ∧ t.out.sent.length = s.out.sent.length + s.upPorts.length ∧
        ∀ q ∈ s.upPorts, ∃ n, (q, ⟨s.fldR (Reg.PLK_STAT q) 47 32, s.devId, false, 0, n, .time 0 0⟩) ∈ t.out.sent) ∧
      (s.inGroup = true → s.dupId = false →
        ∃ t, exec .heartbeatTimer s = .next t ∧ t.fab.domainTime = s.fab.domainTime + 1000 ∧
          t.fab.members = s.fab.members.map (fun x => if x.id = s.devId then x else { x with silent := x.silent + 10 }) ∧
          ∀ d q, (s.isManager = true ∧ d ∈ s.otherMembers) ∨ (s.isManager = false ∧ s.manager = some d ∧ d ≠ s.devId) →
            s.egress false d (.heartbeat (s.fab.domainTime + 1000) 0) = some q →
            ∃ n, (q, ⟨d, s.devId, false, 0, n, .heartbeat (s.fab.domainTime + 1000) 0⟩) ∈ t.out.sent) ∧
      (s.inGroup = false ∨ s.dupId = true → exec .heartbeatTimer s = .next s))

/-! ### The tick group (12_pelvas_fabric.md, 01_rollouts_and_ticks.md) -/

/-- The clasp and READY. CLASP_SEND by the manager schedules the next edge once, at the time R330 gives: in Fixed mode
the period's end; in Elastic the earliest allowed once every member is READY, else the limit, forced; in Free likewise. Every other
member is sent it. A CLASP from the manager is the schedule of the next edge, late once domain time has passed it; one of an edge already
applied is kept for the next edge, schedules none and changes nothing else (log entry 78); from any other device it is ignored. READY is sent once an interval when its
work is complete; READY and UNREADY of the current interval mark the member, UNREADY no longer once a CLASP is sent (R328 to
R332). -/
def Obligations.ClaspAndReady : Prop :=
  ∀ (s : State) (p : Nat) (m : FabMsg), s.portUp p = true → s.dupId = false → s.forMe m = true →
    (∀ now et forced, s.leads = true → s.joined = true → s.tick.running = true → s.fabricMode = false ∨ s.root = none ∨ s.root = some s.devId →
      let lim := s.fab.edgeAt + s.tckLimit
      let due := now + s.lead
      (s.tckMode = 0 ∧ lim ≤ due ∧ et = lim ∧ forced = false) ∨
        (s.tckMode = 1 ∧ s.allReady = true ∧ s.fab.edgeAt + s.tckPeriod ≤ due ∧ forced = false ∧
          et = min lim (max (s.fab.edgeAt + s.tckPeriod) due)) ∨
        (s.tckMode = 2 ∧ s.allReady = true ∧ forced = false ∧ et = min lim (max (s.fab.edgeAt + 2000) due)) ∨
        (s.tckMode ≠ 0 ∧ s.allReady = false ∧ lim ≤ due ∧ et = lim ∧ forced = true) →
      (s.fab.sched = none → ∃ t c, exec (.claspSend now) s = .next t ∧ t.fab.sched = some c ∧ c.tick = s.tickNum + 1 ∧
        c.edgeTime = et ∧ c.forced = forced ∧ c.tck = s.tckWord ∧ c.step = s.lockStep ∧ t.tickNum = s.tickNum ∧
        (s.fldR Reg.FI_CTL 0 0 = 0 → ∀ d q, d ∈ s.otherMembers → s.egress false d (claspOf c) = some q →
          ∃ n, (q, ⟨d, s.devId, false, 0, n, claspOf c⟩) ∈ t.out.sent) ∧ s.sameMemory t ∧ s.sameWork t) ∧
      (s.fab.sched ≠ none → exec (.claspSend now) s = .next s)) ∧
    (∀ now, s.leads = false ∨ s.joined = false → exec (.claspSend now) s = .next s) ∧
    (∀ k st sv et tck ep sb sbv, m.body = .clasp k st sv et tck ep sb sbv → s.isManager = false →
      (s.manager ≠ some m.src → exec (.clasp p m) s = .next s) ∧
      (s.manager = some m.src → m.src ≠ s.devId →
        (s.tickNum < k → ∃ t, exec (.clasp p m) s = .next t ∧ t.fab.sched = some ⟨k, et, st, sv, tck, ep, sb, sbv, false⟩ ∧
          t.fldR Reg.CLX_STAT 58 58 = (if et < s.fab.domainTime then 1 else s.fldR Reg.CLX_STAT 58 58) ∧ t.tickNum = s.tickNum ∧
          s.sameRegs t [Reg.CLX_STAT] ∧ s.sameWork t) ∧
        (k ≤ s.tickNum → s.inGroup = true → ∃ t, exec (.clasp p m) s = .next t ∧ t.fab.sched = s.fab.sched ∧
          t.fab.late = some ⟨k, et, st, sv, tck, ep, sb, sbv, false⟩ ∧ t = s.putFab t.fab))) ∧
    (∀ k, m.body = .ready k ∨ m.body = .unready k → s.isManager = true →
      ∀ c, c = (if m.body = .ready k then Instr.ready p m else .unready p m) →
      (k ≠ s.tickNum → ∃ t, exec c s = .next t ∧ t.fab.members.map (·.ready) = s.fab.members.map (·.ready) ∧ t = s.putFab t.fab) ∧
      (k = s.tickNum → m.src / 1024 = s.devId / 1024 →
        ∃ t, exec c s = .next t ∧ t.fab.sched = s.fab.sched ∧ t.fab.members.map (·.id) = s.fab.members.map (·.id) ∧
          (∀ x ∈ t.fab.members, x.id = m.src → x.silent = 0 ∧ (m.body = .ready k → x.ready = true) ∧
            (m.body = .unready k → s.fab.sched = none → x.ready = false)) ∧
          (∀ x ∈ s.fab.members, x.id ≠ m.src → x ∈ t.fab.members))) ∧
    (s.isManager = false → ∀ k, (m.body = .ready k → exec (.ready p m) s = .next s) ∧
      (m.body = .unready k → exec (.unready p m) s = .next s)) ∧
    (s.inGroup = true → s.tick.running = true → s.fab.readySent = false → s.tckMode ≠ 0 →
      s.outstanding (decide (s.tckMode = 1)) = false →
      ∃ t, exec .readySend s = .next t ∧ t.fab.readySent = true ∧ (∀ x ∈ t.fab.members, x.id = s.devId → x.ready = true) ∧
        (s.fldR Reg.FI_CTL 0 0 = 0 → ∀ d q, s.manager = some d → d ≠ s.devId → s.egress false d (.ready s.tickNum) = some q →
          ∃ n, (q, ⟨d, s.devId, false, 0, n, .ready s.tickNum⟩) ∈ t.out.sent) ∧ s.sameMemory t ∧ s.sameWork t) ∧
    (s.fab.readySent = true ∨ s.tckMode = 0 ∨ s.outstanding (decide (s.tckMode = 1)) = true → exec .readySend s = .next s)

/-- Membership and frequency lock. A change a MEMBER announces from the manager, or from a standby taking over, waits for its
edge; a takeover names its sender manager at once; from any other device, a part that has a manager ignores it. A manager
announces the departure of a member silent for 30 µs for the next edge and no longer waits for its READY; the standby
that has lost the manager takes its place and announces its departure. FLOCK_DROP is kept by the manager and ignored by
a member; reports age out at 2 ms, and a follower held below F15 reports again (R323 to R325, R328, R334, R395, R396). -/
def Obligations.MembershipAndLock : Prop :=
  ∀ (s : State) (p : Nat) (m : FabMsg), s.portUp p = true → s.dupId = false → s.forMe m = true →
    (∀ cs edge take sb ep, m.body = .member cs edge take sb ep →
      (s.isManager = false → s.manager ≠ none → s.manager ≠ some m.src →
        (take = some m.src → s.standby ≠ some m.src) → exec (.member p m) s = .next s) ∧
      (s.manager = some m.src ∨ (take = some m.src ∧ s.standby = some m.src ∧ s.manager ≠ none) →
        ∃ t, exec (.member p m) s = .next t ∧ t.fab.changes = s.fab.changes ++ cs.map (fun c => (edge, c.1, c.2)) ∧
          t.fab.members.map (·.id) = s.fab.members.map (·.id) ∧ (take = none → t.manager = s.manager) ∧
          (∀ d, take = some d → d < 2 ^ 16 → t.manager = some d) ∧ s.sameMemory t ∧ s.sameWork t)) ∧
    (∀ id, (s.isManager = false ∨ id = s.devId ∨ (∀ x ∈ s.fab.members, x.id = id → x.silent < 30) →
        exec (.memberLossTimeout id) s = .next s) ∧
      (∀ x ∈ s.fab.members, s.isManager = true → x.id = id → id ≠ s.devId → 30 ≤ x.silent →
        (∀ k ∈ s.fab.changes, k.2.1 = id → k.2.2 = true) →
        ∃ t, exec (.memberLossTimeout id) s = .next t ∧ t.fab.changes = s.fab.changes ++ [(s.tickNum + 1, id, false)] ∧
          (∀ y ∈ t.fab.members, y.id = id → y.ready = true) ∧ (∀ y ∈ s.fab.members, y.id ≠ id → y ∈ t.fab.members) ∧
          s.sameMemory t ∧ s.sameWork t)) ∧
    (s.isStandby = false → exec .standbyTakeover s = .next s) ∧
    (∀ d x, s.isStandby = true → s.inGroup = true → s.manager = some d → d ≠ s.devId → x ∈ s.fab.members → x.id = d →
      30 ≤ x.silent →
      ∃ t, exec .standbyTakeover s = .next t ∧ t.manager = some s.devId ∧ t.isManager = true ∧
        t.fab.changes = s.fab.changes ++ [(s.tickNum + 1, d, false)] ∧
        t.fab.members.map (·.id) = s.fab.members.map (·.id) ∧ s.sameMemory t ∧ s.sameWork t) ∧
    (∀ step term, m.body = .flockDrop step term →
      (s.isManager = false → exec (.flockDrop p m) s = .next s) ∧
      (s.isManager = true → s.root = none ∨ s.root = some s.devId ∨ s.fabricMode = false →
        ∃ t, exec (.flockDrop p m) s = .next t ∧ t.fab.drops = s.fab.drops ++ [(step, 0)] ∧ t = s.putFab t.fab)) ∧
    let aged := (s.fab.drops.map fun d => (d.1, d.2 + 1)).filter fun d => decide (d.2 < 2)
    (s.follower = false ∨ 15 ≤ s.heldTerm.1 → exec .flockDropTimer s = .next (s.putFab { s.fab with drops := aged })) ∧
    (s.follower = true → s.isManager = true → s.heldTerm.1 < 15 →
      exec .flockDropTimer s = .next (s.putFab { s.fab with drops := aged ++ [(s.heldTerm.1, 0)] }))

end
end

