-- ==== Sys2Proof/Laws/Bits.lean ====
section
/-!
SUPPORT. Laws of bit fields and list updates: what a field reads after a field is set.
-/
namespace Sys2Proof.Machine

theorem bits_lt (n hi lo : Nat) : bits n hi lo < 2 ^ (hi + 1 - lo) := Nat.mod_lt _ (Nat.two_pow_pos _)

theorem fld_lt (w : Word) (hi lo : Nat) : fld w hi lo < 2 ^ (hi + 1 - lo) := bits_lt _ _ _

/-- Bit i of a field of a number. -/
theorem testBit_bits (n hi lo i : Nat) : (bits n hi lo).testBit i = (decide (i < hi + 1 - lo) && n.testBit (lo + i)) := by
  simp [bits, Nat.testBit_mod_two_pow, Nat.testBit_shiftRight]

/-- A number as what lies below a field, the field, and what lies above it. -/
theorem split_field (n hi lo : Nat) (h : lo ≤ hi) :
    n = n % 2 ^ lo + bits n hi lo * 2 ^ lo + n / 2 ^ (hi + 1) * 2 ^ (hi + 1) := by
  have hp : 2 ^ (hi + 1) = 2 ^ lo * 2 ^ (hi + 1 - lo) := by rw [← pow_add]; congr 1; omega
  have h1 : n = n % 2 ^ lo + n / 2 ^ lo * 2 ^ lo := by rw [Nat.mul_comm]; exact (Nat.mod_add_div n (2 ^ lo)).symm
  have h2 := Nat.mod_add_div (n / 2 ^ lo) (2 ^ (hi + 1 - lo))
  have h3 : n / 2 ^ lo / 2 ^ (hi + 1 - lo) = n / 2 ^ (hi + 1) := by rw [Nat.div_div_eq_div_mul, hp]
  have h4 : bits n hi lo = n / 2 ^ lo % 2 ^ (hi + 1 - lo) := by rw [bits, Nat.shiftRight_eq_div_pow]
  have h5 : n / 2 ^ lo = bits n hi lo + 2 ^ (hi + 1 - lo) * (n / 2 ^ (hi + 1)) := by rw [h4, ← h3]; exact h2.symm
  have h6 : (2 ^ (hi + 1 - lo) * (n / 2 ^ (hi + 1))) * 2 ^ lo = n / 2 ^ (hi + 1) * 2 ^ (hi + 1) := by rw [hp]; ring
  calc n = n % 2 ^ lo + n / 2 ^ lo * 2 ^ lo := h1
    _ = n % 2 ^ lo + (bits n hi lo * 2 ^ lo + (2 ^ (hi + 1 - lo) * (n / 2 ^ (hi + 1))) * 2 ^ lo) := by
        rw [← Nat.add_mul, ← h5]
    _ = _ := by rw [h6]; ring

/-- A word after a field is set: below, the new value, above. -/
theorem toNat_setFld (w : Word) (hi lo v : Nat) (h : lo ≤ hi) (h64 : hi < 64) :
    (setFld w hi lo v).toNat = w.toNat % 2 ^ lo + v % 2 ^ (hi + 1 - lo) * 2 ^ lo + w.toNat / 2 ^ (hi + 1) * 2 ^ (hi + 1) := by
  have hs := split_field w.toNat hi lo h
  have hw := w.isLt
  have hp : 2 ^ (hi + 1) = 2 ^ lo * 2 ^ (hi + 1 - lo) := by rw [← pow_add]; congr 1; omega
  have hv : v % 2 ^ (hi + 1 - lo) < 2 ^ (hi + 1 - lo) := Nat.mod_lt _ (Nat.two_pow_pos _)
  have hl : w.toNat % 2 ^ lo < 2 ^ lo := Nat.mod_lt _ (Nat.two_pow_pos _)
  have hq : (v % 2 ^ (hi + 1 - lo) + 1) * 2 ^ lo ≤ 2 ^ (hi + 1) := by
    rw [hp, Nat.mul_comm (2 ^ lo)]; exact Nat.mul_le_mul_right _ hv
  have hq' : v % 2 ^ (hi + 1 - lo) * 2 ^ lo + 2 ^ lo ≤ 2 ^ (hi + 1) := by
    calc _ = (v % 2 ^ (hi + 1 - lo) + 1) * 2 ^ lo := by ring
      _ ≤ _ := hq
  have h64' : (2 : Nat) ^ 64 = 2 ^ (hi + 1) * 2 ^ (63 - hi) := by rw [← pow_add]; congr 1; omega
  have hd : w.toNat / 2 ^ (hi + 1) < 2 ^ (63 - hi) := by
    apply Nat.div_lt_of_lt_mul; rw [← h64']; exact hw
  have hd' : w.toNat / 2 ^ (hi + 1) * 2 ^ (hi + 1) + 2 ^ (hi + 1) ≤ 2 ^ 64 := by
    calc _ = (w.toNat / 2 ^ (hi + 1) + 1) * 2 ^ (hi + 1) := by ring
      _ ≤ 2 ^ (63 - hi) * 2 ^ (hi + 1) := Nat.mul_le_mul_right _ hd
      _ = 2 ^ 64 := by rw [h64']; ring
  simp only [setFld, BitVec.toNat_ofNat]
  rw [Nat.mod_eq_of_lt] <;> omega

/-- A field just set reads the value, cut to its width. -/
theorem fld_setFld_same (w : Word) (hi lo v : Nat) (h : lo ≤ hi) (h64 : hi < 64) :
    fld (setFld w hi lo v) hi lo = v % 2 ^ (hi + 1 - lo) := by
  have hp : 2 ^ (hi + 1) = 2 ^ lo * 2 ^ (hi + 1 - lo) := by rw [← pow_add]; congr 1; omega
  have hl : w.toNat % 2 ^ lo < 2 ^ lo := Nat.mod_lt _ (Nat.two_pow_pos _)
  rw [fld, bits, toNat_setFld _ _ _ _ h h64, Nat.shiftRight_eq_div_pow]
  have e : w.toNat % 2 ^ lo + v % 2 ^ (hi + 1 - lo) * 2 ^ lo + w.toNat / 2 ^ (hi + 1) * 2 ^ (hi + 1)
      = w.toNat % 2 ^ lo + 2 ^ lo * (v % 2 ^ (hi + 1 - lo) + 2 ^ (hi + 1 - lo) * (w.toNat / 2 ^ (hi + 1))) := by rw [hp]; ring
  rw [e, Nat.add_mul_div_left _ _ (Nat.two_pow_pos _), Nat.div_eq_of_lt hl, Nat.zero_add, Nat.add_mul_mod_self_left,
    Nat.mod_mod]

/-- Bits outside a field that is set keep their value. -/
theorem testBit_setFld_ne (w : Word) (hi lo v i : Nat) (h : lo ≤ hi) (h64 : hi < 64) (hi' : i < lo ∨ hi < i) :
    (setFld w hi lo v).toNat.testBit i = w.toNat.testBit i := by
  have hp : 2 ^ (hi + 1) = 2 ^ lo * 2 ^ (hi + 1 - lo) := by rw [← pow_add]; congr 1; omega
  have hv : v % 2 ^ (hi + 1 - lo) < 2 ^ (hi + 1 - lo) := Nat.mod_lt _ (Nat.two_pow_pos _)
  have hl : w.toNat % 2 ^ lo < 2 ^ lo := Nat.mod_lt _ (Nat.two_pow_pos _)
  rw [toNat_setFld _ _ _ _ h h64]
  rcases hi' with hi' | hi'
  · have e : w.toNat % 2 ^ lo + v % 2 ^ (hi + 1 - lo) * 2 ^ lo + w.toNat / 2 ^ (hi + 1) * 2 ^ (hi + 1)
        = 2 ^ lo * (v % 2 ^ (hi + 1 - lo) + 2 ^ (hi + 1 - lo) * (w.toNat / 2 ^ (hi + 1))) + w.toNat % 2 ^ lo := by rw [hp]; ring
    rw [e, Nat.testBit_two_pow_mul_add _ hl, if_pos hi', Nat.testBit_mod_two_pow]
    simp [hi']
  · have hlt : w.toNat % 2 ^ lo + v % 2 ^ (hi + 1 - lo) * 2 ^ lo < 2 ^ (hi + 1) := by
      have : (v % 2 ^ (hi + 1 - lo) + 1) * 2 ^ lo ≤ 2 ^ (hi + 1) := by
        rw [hp, Nat.mul_comm (2 ^ lo)]; exact Nat.mul_le_mul_right _ hv
      have : v % 2 ^ (hi + 1 - lo) * 2 ^ lo + 2 ^ lo ≤ 2 ^ (hi + 1) := by
        calc _ = (v % 2 ^ (hi + 1 - lo) + 1) * 2 ^ lo := by ring
          _ ≤ _ := this
      omega
    rw [Nat.add_comm, Nat.mul_comm, Nat.testBit_two_pow_mul_add _ hlt, if_neg (by omega), ← Nat.shiftRight_eq_div_pow,
      Nat.testBit_shiftRight]
    congr 1; omega

/-- A field disjoint from the one set keeps its value. -/
theorem fld_setFld_ne (w : Word) (hi lo v hi' lo' : Nat) (h : lo ≤ hi) (h64 : hi < 64) (hd : hi' < lo ∨ hi < lo') :
    fld (setFld w hi lo v) hi' lo' = fld w hi' lo' := by
  apply Nat.eq_of_testBit_eq
  intro i
  simp only [fld, testBit_bits]
  by_cases hx : i < hi' + 1 - lo'
  · rw [testBit_setFld_ne _ _ _ _ _ h h64 (by omega)]
  · simp [hx]

theorem fld_zero (hi lo : Nat) : fld 0 hi lo = 0 := by simp [fld, bits]

@[simp] theorem b2n_true : b2n true = 1 := rfl
@[simp] theorem b2n_false : b2n false = 0 := rfl

@[simp] theorem updAt_length {α : Type} (l : List α) (i : Nat) (f : α → α) : (updAt l i f).length = l.length := by
  induction l generalizing i with
  | nil => rfl
  | cons a as ih => cases i <;> simp [updAt, ih]

/-- The element updated, and the others. -/
theorem updAt_getD {α : Type} (l : List α) (i j : Nat) (f : α → α) (d : α) (hi : i < l.length) :
    (updAt l i f).getD j d = if j = i then f (l.getD i d) else l.getD j d := by
  induction l generalizing i j with
  | nil => simp at hi
  | cons a as ih =>
    cases i with
    | zero => cases j <;> simp [updAt]
    | succ i => cases j with
      | zero => simp [updAt]
      | succ j => simpa [updAt] using ih i j (by simpa using hi)

end Sys2Proof.Machine
end

