-- ==== Sys2Proof/Laws/Sparse.lean ====
section
/-!
SUPPORT. Laws of sparse maps: what a read gives after a write, a removal or a clear, and that every operation keeps the
canonical form.
-/
namespace Sys2Proof.Machine

variable {α : Type}

@[simp] theorem spGet_nil (d : α) (k : Nat) : spGet d [] k = d := rfl

theorem spGet_spErase_same (d : α) (m : List (Nat × α)) (k : Nat) : spGet d (spErase m k) k = d := by
  induction m with
  | nil => rfl
  | cons c m ih =>
    by_cases h : c.1 = k
    · simpa [spErase, h] using ih
    · have h' : ¬ k = c.1 := fun e => h e.symm
      simpa [spErase, h, spGet, h'] using ih

theorem spGet_spErase_ne (d : α) (m : List (Nat × α)) (k k' : Nat) (h : k' ≠ k) : spGet d (spErase m k) k' = spGet d m k' := by
  induction m with
  | nil => rfl
  | cons c m ih =>
    by_cases hc : c.1 = k
    · simpa [spErase, hc, spGet, h] using ih
    · by_cases hk : k' = c.1
      · simp [spErase, hc, spGet, hk]
      · simpa [spErase, hc, spGet, hk] using ih

theorem spGet_spPut_same (d : α) (m : List (Nat × α)) (k : Nat) (v : α) : spGet d (spPut m k v) k = v := by
  induction m with
  | nil => simp [spPut, spGet]
  | cons c m ih =>
    obtain ⟨k', v'⟩ := c
    by_cases h : k = k'
    · simp [spPut, spGet, h]
    · by_cases hl : k < k'
      · simp [spPut, spGet, h, hl]
      · simpa [spPut, spGet, h, hl] using ih

theorem spGet_spPut_ne (d : α) (m : List (Nat × α)) (k k' : Nat) (v : α) (h : k' ≠ k) :
    spGet d (spPut m k v) k' = spGet d m k' := by
  induction m with
  | nil => simp [spPut, spGet, h]
  | cons c m ih =>
    obtain ⟨c1, c2⟩ := c
    by_cases hk : k = c1
    · subst hk; simp [spPut, spGet, h]
    · by_cases hl : k < c1
      · simp [spPut, spGet, hk, hl, h]
      · by_cases hc : k' = c1
        · simp [spPut, spGet, hk, hl, hc]
        · simpa [spPut, spGet, hk, hl, hc] using ih

/-- A read of the key just written. -/
theorem spGet_spSet_same [DecidableEq α] (d : α) (m : List (Nat × α)) (k : Nat) (v : α) : spGet d (spSet d m k v) k = v := by
  by_cases h : v = d
  · simp [spSet, h, spGet_spErase_same]
  · simp [spSet, h, spGet_spPut_same]

/-- A read of any other key, whatever either key's default. -/
theorem spGet_spSet_ne [DecidableEq α] (d d' : α) (m : List (Nat × α)) (k k' : Nat) (v : α) (h : k' ≠ k) :
    spGet d' (spSet d m k v) k' = spGet d' m k' := by
  by_cases hv : v = d
  · simp [spSet, hv, spGet_spErase_ne, h]
  · simp [spSet, hv, spGet_spPut_ne, h]

theorem spGet_spSet [DecidableEq α] (d : α) (m : List (Nat × α)) (k k' : Nat) (v : α) :
    spGet d (spSet d m k v) k' = if k' = k then v else spGet d m k' := by
  by_cases h : k' = k
  · subst h; simp [spGet_spSet_same]
  · simp [h, spGet_spSet_ne]

/-- A key inside a cleared range reads as its default, one outside as before. -/
theorem spGet_spClear (d : α) (m : List (Nat × α)) (lo hi k : Nat) :
    spGet d (spClear m lo hi) k = if lo ≤ k ∧ k < hi then d else spGet d m k := by
  induction m with
  | nil => simp [spClear]
  | cons c m ih =>
    by_cases hc : c.1 < lo ∨ hi ≤ c.1
    · by_cases hk : k = c.1
      · have : ¬ (lo ≤ k ∧ k < hi) := by omega
        rw [if_neg this]
        simp [spClear, hc, spGet, hk]
      · simpa [spClear, hc, spGet, hk] using ih
    · by_cases hk : k = c.1
      · have : lo ≤ k ∧ k < hi := by omega
        rw [if_pos this] at *
        simpa [spClear, hc] using ih
      · simpa [spClear, hc, spGet, hk] using ih

/-! ### The canonical form -/

variable [DecidableEq α]

theorem spWfFrom_mono (d : Nat → α) (m : List (Nat × α)) {lo lo' : Nat} (h : spWfFrom d lo m = true) (hl : lo' ≤ lo) :
    spWfFrom d lo' m = true := by
  cases m with
  | nil => rfl
  | cons c m =>
    simp only [spWfFrom, Bool.and_eq_true, decide_eq_true_eq] at h ⊢
    exact ⟨⟨by omega, h.1.2⟩, h.2⟩

theorem spWfFrom_filter (d : Nat → α) (p : Nat × α → Bool) (m : List (Nat × α)) (lo : Nat) (h : spWfFrom d lo m = true) :
    spWfFrom d lo (m.filter p) = true := by
  induction m generalizing lo with
  | nil => rfl
  | cons c m ih =>
    simp only [spWfFrom, Bool.and_eq_true, decide_eq_true_eq] at h
    by_cases hp : p c = true
    · simp only [List.filter_cons, hp, if_true, spWfFrom, Bool.and_eq_true, decide_eq_true_eq]
      exact ⟨h.1, ih _ h.2⟩
    · simp only [List.filter_cons, hp]
      exact spWfFrom_mono d _ (ih _ h.2) (by omega)

theorem spWfFrom_spPut (d : Nat → α) (m : List (Nat × α)) (lo k : Nat) (v : α) (h : spWfFrom d lo m = true) (hk : lo ≤ k)
    (hv : v ≠ d k) : spWfFrom d lo (spPut m k v) = true := by
  induction m generalizing lo with
  | nil => simp [spPut, spWfFrom, hk, hv]
  | cons c m ih =>
    obtain ⟨c1, c2⟩ := c
    simp only [spWfFrom, Bool.and_eq_true, decide_eq_true_eq] at h
    by_cases hc : k = c1
    · subst hc; simp [spPut, spWfFrom, hk, hv, h.2]
    · by_cases hl : k < c1
      · simp only [spPut, hc, hl, if_true, if_false, spWfFrom, Bool.and_eq_true, decide_eq_true_eq]
        exact ⟨⟨hk, hv⟩, ⟨by omega, h.1.2⟩, h.2⟩
      · simp only [spPut, hc, hl, if_false, spWfFrom, Bool.and_eq_true, decide_eq_true_eq]
        exact ⟨h.1, ih _ h.2 (by omega)⟩

/-- A filter keeps the canonical form. -/
theorem spWf_filter (d : Nat → α) (p : Nat × α → Bool) (m : List (Nat × α)) (h : spWf d m = true) :
    spWf d (m.filter p) = true := spWfFrom_filter d p m 0 h

/-- Setting a key keeps the canonical form. -/
theorem spWf_spSet (d : Nat → α) (m : List (Nat × α)) (k : Nat) (v : α) (h : spWf d m = true) :
    spWf d (spSet (d k) m k v) = true := by
  by_cases hv : v = d k
  · rw [spSet, if_pos hv]; exact spWf_filter d _ m h
  · rw [spSet, if_neg hv]; exact spWfFrom_spPut d m 0 k v h (Nat.zero_le _) hv

/-- Clearing a range keeps the canonical form. -/
theorem spWf_spClear (d : Nat → α) (m : List (Nat × α)) (lo hi : Nat) (h : spWf d m = true) :
    spWf d (spClear m lo hi) = true := spWf_filter d _ m h

end Sys2Proof.Machine
end

