-- ==== Sys2Proof/Laws/State.lean ====
section
/-!
SUPPORT. What each plain update of the state changes and leaves: one lemma for each field and update, and the reads of a
register, context, ring or entry just set.
-/
namespace Sys2Proof.Machine

/-! ### State.putPending -/

@[simp] theorem State.putPending_regs (s : State) (x : List Instr) : (s.putPending x).regs = s.regs := (rfl)
@[simp] theorem State.putPending_eff (s : State) (x : List Instr) : (s.putPending x).eff = s.eff := (rfl)
@[simp] theorem State.putPending_dev (s : State) (x : List Instr) : (s.putPending x).dev = s.dev := (rfl)
@[simp] theorem State.putPending_fns (s : State) (x : List Instr) : (s.putPending x).fns = s.fns := (rfl)
@[simp] theorem State.putPending_msix (s : State) (x : List Instr) : (s.putPending x).msix = s.msix := (rfl)
@[simp] theorem State.putPending_hol (s : State) (x : List Instr) : (s.putPending x).hol = s.hol := (rfl)
@[simp] theorem State.putPending_tick (s : State) (x : List Instr) : (s.putPending x).tick = s.tick := (rfl)
@[simp] theorem State.putPending_ctxs (s : State) (x : List Instr) : (s.putPending x).ctxs = s.ctxs := (rfl)
@[simp] theorem State.putPending_rings (s : State) (x : List Instr) : (s.putPending x).rings = s.rings := (rfl)
@[simp] theorem State.putPending_flight (s : State) (x : List Instr) : (s.putPending x).flight = s.flight := (rfl)
@[simp] theorem State.putPending_nextId (s : State) (x : List Instr) : (s.putPending x).nextId = s.nextId := (rfl)
@[simp] theorem State.putPending_slots (s : State) (x : List Instr) : (s.putPending x).slots = s.slots := (rfl)
@[simp] theorem State.putPending_images (s : State) (x : List Instr) : (s.putPending x).images = s.images := (rfl)
@[simp] theorem State.putPending_mem (s : State) (x : List Instr) : (s.putPending x).mem = s.mem := (rfl)
@[simp] theorem State.putPending_mig (s : State) (x : List Instr) : (s.putPending x).mig = s.mig := (rfl)
@[simp] theorem State.putPending_retained (s : State) (x : List Instr) : (s.putPending x).retained = s.retained := (rfl)
@[simp] theorem State.putPending_prefetched (s : State) (x : List Instr) : (s.putPending x).prefetched = s.prefetched := (rfl)
@[simp] theorem State.putPending_kv (s : State) (x : List Instr) : (s.putPending x).kv = s.kv := (rfl)
@[simp] theorem State.putPending_pwr (s : State) (x : List Instr) : (s.putPending x).pwr = s.pwr := (rfl)
@[simp] theorem State.putPending_sec (s : State) (x : List Instr) : (s.putPending x).sec = s.sec := (rfl)
@[simp] theorem State.putPending_mgt (s : State) (x : List Instr) : (s.putPending x).mgt = s.mgt := (rfl)
@[simp] theorem State.putPending_fab (s : State) (x : List Instr) : (s.putPending x).fab = s.fab := (rfl)
@[simp] theorem State.putPending_out (s : State) (x : List Instr) : (s.putPending x).out = s.out := (rfl)
@[simp] theorem State.putPending_free (s : State) (x : List Instr) : (s.putPending x).free = s.free := (rfl)
@[simp] theorem State.putPending_reg (s : State) (x : List Instr) (o : Nat) : (s.putPending x).reg o = s.reg o := rfl
@[simp] theorem State.putPending_effReg (s : State) (x : List Instr) (o : Nat) : (s.putPending x).effReg o = s.effReg o := rfl
@[simp] theorem State.putPending_fldR (s : State) (x : List Instr) (o h l : Nat) : (s.putPending x).fldR o h l = s.fldR o h l := rfl
@[simp] theorem State.putPending_effF (s : State) (x : List Instr) (o h l : Nat) : (s.putPending x).effF o h l = s.effF o h l := rfl
@[simp] theorem State.putPending_devState (s : State) (x : List Instr) : (s.putPending x).devState = s.devState := rfl
@[simp] theorem State.putPending_live (s : State) (x : List Instr) : (s.putPending x).live = s.live := rfl
@[simp] theorem State.putPending_tickNum (s : State) (x : List Instr) : (s.putPending x).tickNum = s.tickNum := rfl
@[simp] theorem State.putPending_ctx (s : State) (x : List Instr) (m : Nat) : (s.putPending x).ctx m = s.ctx m := rfl
@[simp] theorem State.putPending_ring (s : State) (x : List Instr) (m : Nat) : (s.putPending x).ring m = s.ring m := rfl
@[simp] theorem State.putPending_entry (s : State) (x : List Instr) (m : Nat) : (s.putPending x).entry m = s.entry m := rfl
@[simp] theorem State.putPending_byteAt (s : State) (x : List Instr) (pa : Nat) : (s.putPending x).byteAt pa = s.byteAt pa := rfl
@[simp] theorem State.putPending_pending (s : State) (x : List Instr) : (s.putPending x).pending = x := (rfl)

/-! ### State.putRegs -/

@[simp] theorem State.putRegs_pending (s : State) (x : List (Nat × Word)) : (s.putRegs x).pending = s.pending := (rfl)
@[simp] theorem State.putRegs_eff (s : State) (x : List (Nat × Word)) : (s.putRegs x).eff = s.eff := (rfl)
@[simp] theorem State.putRegs_dev (s : State) (x : List (Nat × Word)) : (s.putRegs x).dev = s.dev := (rfl)
@[simp] theorem State.putRegs_fns (s : State) (x : List (Nat × Word)) : (s.putRegs x).fns = s.fns := (rfl)
@[simp] theorem State.putRegs_msix (s : State) (x : List (Nat × Word)) : (s.putRegs x).msix = s.msix := (rfl)
@[simp] theorem State.putRegs_hol (s : State) (x : List (Nat × Word)) : (s.putRegs x).hol = s.hol := (rfl)
@[simp] theorem State.putRegs_tick (s : State) (x : List (Nat × Word)) : (s.putRegs x).tick = s.tick := (rfl)
@[simp] theorem State.putRegs_ctxs (s : State) (x : List (Nat × Word)) : (s.putRegs x).ctxs = s.ctxs := (rfl)
@[simp] theorem State.putRegs_rings (s : State) (x : List (Nat × Word)) : (s.putRegs x).rings = s.rings := (rfl)
@[simp] theorem State.putRegs_flight (s : State) (x : List (Nat × Word)) : (s.putRegs x).flight = s.flight := (rfl)
@[simp] theorem State.putRegs_nextId (s : State) (x : List (Nat × Word)) : (s.putRegs x).nextId = s.nextId := (rfl)
@[simp] theorem State.putRegs_slots (s : State) (x : List (Nat × Word)) : (s.putRegs x).slots = s.slots := (rfl)
@[simp] theorem State.putRegs_images (s : State) (x : List (Nat × Word)) : (s.putRegs x).images = s.images := (rfl)
@[simp] theorem State.putRegs_mem (s : State) (x : List (Nat × Word)) : (s.putRegs x).mem = s.mem := (rfl)
@[simp] theorem State.putRegs_mig (s : State) (x : List (Nat × Word)) : (s.putRegs x).mig = s.mig := (rfl)
@[simp] theorem State.putRegs_retained (s : State) (x : List (Nat × Word)) : (s.putRegs x).retained = s.retained := (rfl)
@[simp] theorem State.putRegs_prefetched (s : State) (x : List (Nat × Word)) : (s.putRegs x).prefetched = s.prefetched := (rfl)
@[simp] theorem State.putRegs_kv (s : State) (x : List (Nat × Word)) : (s.putRegs x).kv = s.kv := (rfl)
@[simp] theorem State.putRegs_pwr (s : State) (x : List (Nat × Word)) : (s.putRegs x).pwr = s.pwr := (rfl)
@[simp] theorem State.putRegs_sec (s : State) (x : List (Nat × Word)) : (s.putRegs x).sec = s.sec := (rfl)
@[simp] theorem State.putRegs_mgt (s : State) (x : List (Nat × Word)) : (s.putRegs x).mgt = s.mgt := (rfl)
@[simp] theorem State.putRegs_fab (s : State) (x : List (Nat × Word)) : (s.putRegs x).fab = s.fab := (rfl)
@[simp] theorem State.putRegs_out (s : State) (x : List (Nat × Word)) : (s.putRegs x).out = s.out := (rfl)
@[simp] theorem State.putRegs_free (s : State) (x : List (Nat × Word)) : (s.putRegs x).free = s.free := (rfl)
@[simp] theorem State.putRegs_effReg (s : State) (x : List (Nat × Word)) (o : Nat) : (s.putRegs x).effReg o = s.effReg o := rfl
@[simp] theorem State.putRegs_effF (s : State) (x : List (Nat × Word)) (o h l : Nat) : (s.putRegs x).effF o h l = s.effF o h l := rfl
@[simp] theorem State.putRegs_ctx (s : State) (x : List (Nat × Word)) (m : Nat) : (s.putRegs x).ctx m = s.ctx m := rfl
@[simp] theorem State.putRegs_ring (s : State) (x : List (Nat × Word)) (m : Nat) : (s.putRegs x).ring m = s.ring m := rfl
@[simp] theorem State.putRegs_entry (s : State) (x : List (Nat × Word)) (m : Nat) : (s.putRegs x).entry m = s.entry m := rfl
@[simp] theorem State.putRegs_byteAt (s : State) (x : List (Nat × Word)) (pa : Nat) : (s.putRegs x).byteAt pa = s.byteAt pa := rfl
@[simp] theorem State.putRegs_regs (s : State) (x : List (Nat × Word)) : (s.putRegs x).regs = x := (rfl)

/-! ### State.putEff -/

@[simp] theorem State.putEff_pending (s : State) (x : List (Nat × Word)) : (s.putEff x).pending = s.pending := (rfl)
@[simp] theorem State.putEff_regs (s : State) (x : List (Nat × Word)) : (s.putEff x).regs = s.regs := (rfl)
@[simp] theorem State.putEff_dev (s : State) (x : List (Nat × Word)) : (s.putEff x).dev = s.dev := (rfl)
@[simp] theorem State.putEff_fns (s : State) (x : List (Nat × Word)) : (s.putEff x).fns = s.fns := (rfl)
@[simp] theorem State.putEff_msix (s : State) (x : List (Nat × Word)) : (s.putEff x).msix = s.msix := (rfl)
@[simp] theorem State.putEff_hol (s : State) (x : List (Nat × Word)) : (s.putEff x).hol = s.hol := (rfl)
@[simp] theorem State.putEff_tick (s : State) (x : List (Nat × Word)) : (s.putEff x).tick = s.tick := (rfl)
@[simp] theorem State.putEff_ctxs (s : State) (x : List (Nat × Word)) : (s.putEff x).ctxs = s.ctxs := (rfl)
@[simp] theorem State.putEff_rings (s : State) (x : List (Nat × Word)) : (s.putEff x).rings = s.rings := (rfl)
@[simp] theorem State.putEff_flight (s : State) (x : List (Nat × Word)) : (s.putEff x).flight = s.flight := (rfl)
@[simp] theorem State.putEff_nextId (s : State) (x : List (Nat × Word)) : (s.putEff x).nextId = s.nextId := (rfl)
@[simp] theorem State.putEff_slots (s : State) (x : List (Nat × Word)) : (s.putEff x).slots = s.slots := (rfl)
@[simp] theorem State.putEff_images (s : State) (x : List (Nat × Word)) : (s.putEff x).images = s.images := (rfl)
@[simp] theorem State.putEff_mem (s : State) (x : List (Nat × Word)) : (s.putEff x).mem = s.mem := (rfl)
@[simp] theorem State.putEff_mig (s : State) (x : List (Nat × Word)) : (s.putEff x).mig = s.mig := (rfl)
@[simp] theorem State.putEff_retained (s : State) (x : List (Nat × Word)) : (s.putEff x).retained = s.retained := (rfl)
@[simp] theorem State.putEff_prefetched (s : State) (x : List (Nat × Word)) : (s.putEff x).prefetched = s.prefetched := (rfl)
@[simp] theorem State.putEff_kv (s : State) (x : List (Nat × Word)) : (s.putEff x).kv = s.kv := (rfl)
@[simp] theorem State.putEff_pwr (s : State) (x : List (Nat × Word)) : (s.putEff x).pwr = s.pwr := (rfl)
@[simp] theorem State.putEff_sec (s : State) (x : List (Nat × Word)) : (s.putEff x).sec = s.sec := (rfl)
@[simp] theorem State.putEff_mgt (s : State) (x : List (Nat × Word)) : (s.putEff x).mgt = s.mgt := (rfl)
@[simp] theorem State.putEff_fab (s : State) (x : List (Nat × Word)) : (s.putEff x).fab = s.fab := (rfl)
@[simp] theorem State.putEff_out (s : State) (x : List (Nat × Word)) : (s.putEff x).out = s.out := (rfl)
@[simp] theorem State.putEff_free (s : State) (x : List (Nat × Word)) : (s.putEff x).free = s.free := (rfl)
@[simp] theorem State.putEff_reg (s : State) (x : List (Nat × Word)) (o : Nat) : (s.putEff x).reg o = s.reg o := rfl
@[simp] theorem State.putEff_fldR (s : State) (x : List (Nat × Word)) (o h l : Nat) : (s.putEff x).fldR o h l = s.fldR o h l := rfl
@[simp] theorem State.putEff_devState (s : State) (x : List (Nat × Word)) : (s.putEff x).devState = s.devState := rfl
@[simp] theorem State.putEff_live (s : State) (x : List (Nat × Word)) : (s.putEff x).live = s.live := rfl
@[simp] theorem State.putEff_tickNum (s : State) (x : List (Nat × Word)) : (s.putEff x).tickNum = s.tickNum := rfl
@[simp] theorem State.putEff_ctx (s : State) (x : List (Nat × Word)) (m : Nat) : (s.putEff x).ctx m = s.ctx m := rfl
@[simp] theorem State.putEff_ring (s : State) (x : List (Nat × Word)) (m : Nat) : (s.putEff x).ring m = s.ring m := rfl
@[simp] theorem State.putEff_entry (s : State) (x : List (Nat × Word)) (m : Nat) : (s.putEff x).entry m = s.entry m := rfl
@[simp] theorem State.putEff_byteAt (s : State) (x : List (Nat × Word)) (pa : Nat) : (s.putEff x).byteAt pa = s.byteAt pa := rfl
@[simp] theorem State.putEff_eff (s : State) (x : List (Nat × Word)) : (s.putEff x).eff = x := (rfl)

/-! ### State.putDev -/

@[simp] theorem State.putDev_pending (s : State) (x : Dev) : (s.putDev x).pending = s.pending := (rfl)
@[simp] theorem State.putDev_regs (s : State) (x : Dev) : (s.putDev x).regs = s.regs := (rfl)
@[simp] theorem State.putDev_eff (s : State) (x : Dev) : (s.putDev x).eff = s.eff := (rfl)
@[simp] theorem State.putDev_fns (s : State) (x : Dev) : (s.putDev x).fns = s.fns := (rfl)
@[simp] theorem State.putDev_msix (s : State) (x : Dev) : (s.putDev x).msix = s.msix := (rfl)
@[simp] theorem State.putDev_hol (s : State) (x : Dev) : (s.putDev x).hol = s.hol := (rfl)
@[simp] theorem State.putDev_tick (s : State) (x : Dev) : (s.putDev x).tick = s.tick := (rfl)
@[simp] theorem State.putDev_ctxs (s : State) (x : Dev) : (s.putDev x).ctxs = s.ctxs := (rfl)
@[simp] theorem State.putDev_rings (s : State) (x : Dev) : (s.putDev x).rings = s.rings := (rfl)
@[simp] theorem State.putDev_flight (s : State) (x : Dev) : (s.putDev x).flight = s.flight := (rfl)
@[simp] theorem State.putDev_nextId (s : State) (x : Dev) : (s.putDev x).nextId = s.nextId := (rfl)
@[simp] theorem State.putDev_slots (s : State) (x : Dev) : (s.putDev x).slots = s.slots := (rfl)
@[simp] theorem State.putDev_images (s : State) (x : Dev) : (s.putDev x).images = s.images := (rfl)
@[simp] theorem State.putDev_mem (s : State) (x : Dev) : (s.putDev x).mem = s.mem := (rfl)
@[simp] theorem State.putDev_mig (s : State) (x : Dev) : (s.putDev x).mig = s.mig := (rfl)
@[simp] theorem State.putDev_retained (s : State) (x : Dev) : (s.putDev x).retained = s.retained := (rfl)
@[simp] theorem State.putDev_prefetched (s : State) (x : Dev) : (s.putDev x).prefetched = s.prefetched := (rfl)
@[simp] theorem State.putDev_kv (s : State) (x : Dev) : (s.putDev x).kv = s.kv := (rfl)
@[simp] theorem State.putDev_pwr (s : State) (x : Dev) : (s.putDev x).pwr = s.pwr := (rfl)
@[simp] theorem State.putDev_sec (s : State) (x : Dev) : (s.putDev x).sec = s.sec := (rfl)
@[simp] theorem State.putDev_mgt (s : State) (x : Dev) : (s.putDev x).mgt = s.mgt := (rfl)
@[simp] theorem State.putDev_fab (s : State) (x : Dev) : (s.putDev x).fab = s.fab := (rfl)
@[simp] theorem State.putDev_out (s : State) (x : Dev) : (s.putDev x).out = s.out := (rfl)
@[simp] theorem State.putDev_free (s : State) (x : Dev) : (s.putDev x).free = s.free := (rfl)
@[simp] theorem State.putDev_reg (s : State) (x : Dev) (o : Nat) : (s.putDev x).reg o = s.reg o := rfl
@[simp] theorem State.putDev_effReg (s : State) (x : Dev) (o : Nat) : (s.putDev x).effReg o = s.effReg o := rfl
@[simp] theorem State.putDev_fldR (s : State) (x : Dev) (o h l : Nat) : (s.putDev x).fldR o h l = s.fldR o h l := rfl
@[simp] theorem State.putDev_effF (s : State) (x : Dev) (o h l : Nat) : (s.putDev x).effF o h l = s.effF o h l := rfl
@[simp] theorem State.putDev_devState (s : State) (x : Dev) : (s.putDev x).devState = s.devState := rfl
@[simp] theorem State.putDev_live (s : State) (x : Dev) : (s.putDev x).live = s.live := rfl
@[simp] theorem State.putDev_tickNum (s : State) (x : Dev) : (s.putDev x).tickNum = s.tickNum := rfl
@[simp] theorem State.putDev_ctx (s : State) (x : Dev) (m : Nat) : (s.putDev x).ctx m = s.ctx m := rfl
@[simp] theorem State.putDev_ring (s : State) (x : Dev) (m : Nat) : (s.putDev x).ring m = s.ring m := rfl
@[simp] theorem State.putDev_entry (s : State) (x : Dev) (m : Nat) : (s.putDev x).entry m = s.entry m := rfl
@[simp] theorem State.putDev_byteAt (s : State) (x : Dev) (pa : Nat) : (s.putDev x).byteAt pa = s.byteAt pa := rfl
@[simp] theorem State.putDev_dev (s : State) (x : Dev) : (s.putDev x).dev = x := (rfl)

/-! ### State.putFns -/

@[simp] theorem State.putFns_pending (s : State) (x : List FnCfg) : (s.putFns x).pending = s.pending := (rfl)
@[simp] theorem State.putFns_regs (s : State) (x : List FnCfg) : (s.putFns x).regs = s.regs := (rfl)
@[simp] theorem State.putFns_eff (s : State) (x : List FnCfg) : (s.putFns x).eff = s.eff := (rfl)
@[simp] theorem State.putFns_dev (s : State) (x : List FnCfg) : (s.putFns x).dev = s.dev := (rfl)
@[simp] theorem State.putFns_msix (s : State) (x : List FnCfg) : (s.putFns x).msix = s.msix := (rfl)
@[simp] theorem State.putFns_hol (s : State) (x : List FnCfg) : (s.putFns x).hol = s.hol := (rfl)
@[simp] theorem State.putFns_tick (s : State) (x : List FnCfg) : (s.putFns x).tick = s.tick := (rfl)
@[simp] theorem State.putFns_ctxs (s : State) (x : List FnCfg) : (s.putFns x).ctxs = s.ctxs := (rfl)
@[simp] theorem State.putFns_rings (s : State) (x : List FnCfg) : (s.putFns x).rings = s.rings := (rfl)
@[simp] theorem State.putFns_flight (s : State) (x : List FnCfg) : (s.putFns x).flight = s.flight := (rfl)
@[simp] theorem State.putFns_nextId (s : State) (x : List FnCfg) : (s.putFns x).nextId = s.nextId := (rfl)
@[simp] theorem State.putFns_slots (s : State) (x : List FnCfg) : (s.putFns x).slots = s.slots := (rfl)
@[simp] theorem State.putFns_images (s : State) (x : List FnCfg) : (s.putFns x).images = s.images := (rfl)
@[simp] theorem State.putFns_mem (s : State) (x : List FnCfg) : (s.putFns x).mem = s.mem := (rfl)
@[simp] theorem State.putFns_mig (s : State) (x : List FnCfg) : (s.putFns x).mig = s.mig := (rfl)
@[simp] theorem State.putFns_retained (s : State) (x : List FnCfg) : (s.putFns x).retained = s.retained := (rfl)
@[simp] theorem State.putFns_prefetched (s : State) (x : List FnCfg) : (s.putFns x).prefetched = s.prefetched := (rfl)
@[simp] theorem State.putFns_kv (s : State) (x : List FnCfg) : (s.putFns x).kv = s.kv := (rfl)
@[simp] theorem State.putFns_pwr (s : State) (x : List FnCfg) : (s.putFns x).pwr = s.pwr := (rfl)
@[simp] theorem State.putFns_sec (s : State) (x : List FnCfg) : (s.putFns x).sec = s.sec := (rfl)
@[simp] theorem State.putFns_mgt (s : State) (x : List FnCfg) : (s.putFns x).mgt = s.mgt := (rfl)
@[simp] theorem State.putFns_fab (s : State) (x : List FnCfg) : (s.putFns x).fab = s.fab := (rfl)
@[simp] theorem State.putFns_out (s : State) (x : List FnCfg) : (s.putFns x).out = s.out := (rfl)
@[simp] theorem State.putFns_free (s : State) (x : List FnCfg) : (s.putFns x).free = s.free := (rfl)
@[simp] theorem State.putFns_reg (s : State) (x : List FnCfg) (o : Nat) : (s.putFns x).reg o = s.reg o := rfl
@[simp] theorem State.putFns_effReg (s : State) (x : List FnCfg) (o : Nat) : (s.putFns x).effReg o = s.effReg o := rfl
@[simp] theorem State.putFns_fldR (s : State) (x : List FnCfg) (o h l : Nat) : (s.putFns x).fldR o h l = s.fldR o h l := rfl
@[simp] theorem State.putFns_effF (s : State) (x : List FnCfg) (o h l : Nat) : (s.putFns x).effF o h l = s.effF o h l := rfl
@[simp] theorem State.putFns_devState (s : State) (x : List FnCfg) : (s.putFns x).devState = s.devState := rfl
@[simp] theorem State.putFns_live (s : State) (x : List FnCfg) : (s.putFns x).live = s.live := rfl
@[simp] theorem State.putFns_tickNum (s : State) (x : List FnCfg) : (s.putFns x).tickNum = s.tickNum := rfl
@[simp] theorem State.putFns_ctx (s : State) (x : List FnCfg) (m : Nat) : (s.putFns x).ctx m = s.ctx m := rfl
@[simp] theorem State.putFns_ring (s : State) (x : List FnCfg) (m : Nat) : (s.putFns x).ring m = s.ring m := rfl
@[simp] theorem State.putFns_entry (s : State) (x : List FnCfg) (m : Nat) : (s.putFns x).entry m = s.entry m := rfl
@[simp] theorem State.putFns_byteAt (s : State) (x : List FnCfg) (pa : Nat) : (s.putFns x).byteAt pa = s.byteAt pa := rfl
@[simp] theorem State.putFns_fns (s : State) (x : List FnCfg) : (s.putFns x).fns = x := (rfl)

/-! ### State.putMsix -/

@[simp] theorem State.putMsix_pending (s : State) (x : List (Nat × MsixEntry)) : (s.putMsix x).pending = s.pending := (rfl)
@[simp] theorem State.putMsix_regs (s : State) (x : List (Nat × MsixEntry)) : (s.putMsix x).regs = s.regs := (rfl)
@[simp] theorem State.putMsix_eff (s : State) (x : List (Nat × MsixEntry)) : (s.putMsix x).eff = s.eff := (rfl)
@[simp] theorem State.putMsix_dev (s : State) (x : List (Nat × MsixEntry)) : (s.putMsix x).dev = s.dev := (rfl)
@[simp] theorem State.putMsix_fns (s : State) (x : List (Nat × MsixEntry)) : (s.putMsix x).fns = s.fns := (rfl)
@[simp] theorem State.putMsix_hol (s : State) (x : List (Nat × MsixEntry)) : (s.putMsix x).hol = s.hol := (rfl)
@[simp] theorem State.putMsix_tick (s : State) (x : List (Nat × MsixEntry)) : (s.putMsix x).tick = s.tick := (rfl)
@[simp] theorem State.putMsix_ctxs (s : State) (x : List (Nat × MsixEntry)) : (s.putMsix x).ctxs = s.ctxs := (rfl)
@[simp] theorem State.putMsix_rings (s : State) (x : List (Nat × MsixEntry)) : (s.putMsix x).rings = s.rings := (rfl)
@[simp] theorem State.putMsix_flight (s : State) (x : List (Nat × MsixEntry)) : (s.putMsix x).flight = s.flight := (rfl)
@[simp] theorem State.putMsix_nextId (s : State) (x : List (Nat × MsixEntry)) : (s.putMsix x).nextId = s.nextId := (rfl)
@[simp] theorem State.putMsix_slots (s : State) (x : List (Nat × MsixEntry)) : (s.putMsix x).slots = s.slots := (rfl)
@[simp] theorem State.putMsix_images (s : State) (x : List (Nat × MsixEntry)) : (s.putMsix x).images = s.images := (rfl)
@[simp] theorem State.putMsix_mem (s : State) (x : List (Nat × MsixEntry)) : (s.putMsix x).mem = s.mem := (rfl)
@[simp] theorem State.putMsix_mig (s : State) (x : List (Nat × MsixEntry)) : (s.putMsix x).mig = s.mig := (rfl)
@[simp] theorem State.putMsix_retained (s : State) (x : List (Nat × MsixEntry)) : (s.putMsix x).retained = s.retained := (rfl)
@[simp] theorem State.putMsix_prefetched (s : State) (x : List (Nat × MsixEntry)) : (s.putMsix x).prefetched = s.prefetched := (rfl)
@[simp] theorem State.putMsix_kv (s : State) (x : List (Nat × MsixEntry)) : (s.putMsix x).kv = s.kv := (rfl)
@[simp] theorem State.putMsix_pwr (s : State) (x : List (Nat × MsixEntry)) : (s.putMsix x).pwr = s.pwr := (rfl)
@[simp] theorem State.putMsix_sec (s : State) (x : List (Nat × MsixEntry)) : (s.putMsix x).sec = s.sec := (rfl)
@[simp] theorem State.putMsix_mgt (s : State) (x : List (Nat × MsixEntry)) : (s.putMsix x).mgt = s.mgt := (rfl)
@[simp] theorem State.putMsix_fab (s : State) (x : List (Nat × MsixEntry)) : (s.putMsix x).fab = s.fab := (rfl)
@[simp] theorem State.putMsix_out (s : State) (x : List (Nat × MsixEntry)) : (s.putMsix x).out = s.out := (rfl)
@[simp] theorem State.putMsix_free (s : State) (x : List (Nat × MsixEntry)) : (s.putMsix x).free = s.free := (rfl)
@[simp] theorem State.putMsix_reg (s : State) (x : List (Nat × MsixEntry)) (o : Nat) : (s.putMsix x).reg o = s.reg o := rfl
@[simp] theorem State.putMsix_effReg (s : State) (x : List (Nat × MsixEntry)) (o : Nat) : (s.putMsix x).effReg o = s.effReg o := rfl
@[simp] theorem State.putMsix_fldR (s : State) (x : List (Nat × MsixEntry)) (o h l : Nat) : (s.putMsix x).fldR o h l = s.fldR o h l := rfl
@[simp] theorem State.putMsix_effF (s : State) (x : List (Nat × MsixEntry)) (o h l : Nat) : (s.putMsix x).effF o h l = s.effF o h l := rfl
@[simp] theorem State.putMsix_devState (s : State) (x : List (Nat × MsixEntry)) : (s.putMsix x).devState = s.devState := rfl
@[simp] theorem State.putMsix_live (s : State) (x : List (Nat × MsixEntry)) : (s.putMsix x).live = s.live := rfl
@[simp] theorem State.putMsix_tickNum (s : State) (x : List (Nat × MsixEntry)) : (s.putMsix x).tickNum = s.tickNum := rfl
@[simp] theorem State.putMsix_ctx (s : State) (x : List (Nat × MsixEntry)) (m : Nat) : (s.putMsix x).ctx m = s.ctx m := rfl
@[simp] theorem State.putMsix_ring (s : State) (x : List (Nat × MsixEntry)) (m : Nat) : (s.putMsix x).ring m = s.ring m := rfl
@[simp] theorem State.putMsix_entry (s : State) (x : List (Nat × MsixEntry)) (m : Nat) : (s.putMsix x).entry m = s.entry m := rfl
@[simp] theorem State.putMsix_byteAt (s : State) (x : List (Nat × MsixEntry)) (pa : Nat) : (s.putMsix x).byteAt pa = s.byteAt pa := rfl
@[simp] theorem State.putMsix_msix (s : State) (x : List (Nat × MsixEntry)) : (s.putMsix x).msix = x := (rfl)

/-! ### State.putHol -/

@[simp] theorem State.putHol_pending (s : State) (x : Hol) : (s.putHol x).pending = s.pending := (rfl)
@[simp] theorem State.putHol_regs (s : State) (x : Hol) : (s.putHol x).regs = s.regs := (rfl)
@[simp] theorem State.putHol_eff (s : State) (x : Hol) : (s.putHol x).eff = s.eff := (rfl)
@[simp] theorem State.putHol_dev (s : State) (x : Hol) : (s.putHol x).dev = s.dev := (rfl)
@[simp] theorem State.putHol_fns (s : State) (x : Hol) : (s.putHol x).fns = s.fns := (rfl)
@[simp] theorem State.putHol_msix (s : State) (x : Hol) : (s.putHol x).msix = s.msix := (rfl)
@[simp] theorem State.putHol_tick (s : State) (x : Hol) : (s.putHol x).tick = s.tick := (rfl)
@[simp] theorem State.putHol_ctxs (s : State) (x : Hol) : (s.putHol x).ctxs = s.ctxs := (rfl)
@[simp] theorem State.putHol_rings (s : State) (x : Hol) : (s.putHol x).rings = s.rings := (rfl)
@[simp] theorem State.putHol_flight (s : State) (x : Hol) : (s.putHol x).flight = s.flight := (rfl)
@[simp] theorem State.putHol_nextId (s : State) (x : Hol) : (s.putHol x).nextId = s.nextId := (rfl)
@[simp] theorem State.putHol_slots (s : State) (x : Hol) : (s.putHol x).slots = s.slots := (rfl)
@[simp] theorem State.putHol_images (s : State) (x : Hol) : (s.putHol x).images = s.images := (rfl)
@[simp] theorem State.putHol_mem (s : State) (x : Hol) : (s.putHol x).mem = s.mem := (rfl)
@[simp] theorem State.putHol_mig (s : State) (x : Hol) : (s.putHol x).mig = s.mig := (rfl)
@[simp] theorem State.putHol_retained (s : State) (x : Hol) : (s.putHol x).retained = s.retained := (rfl)
@[simp] theorem State.putHol_prefetched (s : State) (x : Hol) : (s.putHol x).prefetched = s.prefetched := (rfl)
@[simp] theorem State.putHol_kv (s : State) (x : Hol) : (s.putHol x).kv = s.kv := (rfl)
@[simp] theorem State.putHol_pwr (s : State) (x : Hol) : (s.putHol x).pwr = s.pwr := (rfl)
@[simp] theorem State.putHol_sec (s : State) (x : Hol) : (s.putHol x).sec = s.sec := (rfl)
@[simp] theorem State.putHol_mgt (s : State) (x : Hol) : (s.putHol x).mgt = s.mgt := (rfl)
@[simp] theorem State.putHol_fab (s : State) (x : Hol) : (s.putHol x).fab = s.fab := (rfl)
@[simp] theorem State.putHol_out (s : State) (x : Hol) : (s.putHol x).out = s.out := (rfl)
@[simp] theorem State.putHol_free (s : State) (x : Hol) : (s.putHol x).free = s.free := (rfl)
@[simp] theorem State.putHol_reg (s : State) (x : Hol) (o : Nat) : (s.putHol x).reg o = s.reg o := rfl
@[simp] theorem State.putHol_effReg (s : State) (x : Hol) (o : Nat) : (s.putHol x).effReg o = s.effReg o := rfl
@[simp] theorem State.putHol_fldR (s : State) (x : Hol) (o h l : Nat) : (s.putHol x).fldR o h l = s.fldR o h l := rfl
@[simp] theorem State.putHol_effF (s : State) (x : Hol) (o h l : Nat) : (s.putHol x).effF o h l = s.effF o h l := rfl
@[simp] theorem State.putHol_devState (s : State) (x : Hol) : (s.putHol x).devState = s.devState := rfl
@[simp] theorem State.putHol_live (s : State) (x : Hol) : (s.putHol x).live = s.live := rfl
@[simp] theorem State.putHol_tickNum (s : State) (x : Hol) : (s.putHol x).tickNum = s.tickNum := rfl
@[simp] theorem State.putHol_ctx (s : State) (x : Hol) (m : Nat) : (s.putHol x).ctx m = s.ctx m := rfl
@[simp] theorem State.putHol_ring (s : State) (x : Hol) (m : Nat) : (s.putHol x).ring m = s.ring m := rfl
@[simp] theorem State.putHol_entry (s : State) (x : Hol) (m : Nat) : (s.putHol x).entry m = s.entry m := rfl
@[simp] theorem State.putHol_byteAt (s : State) (x : Hol) (pa : Nat) : (s.putHol x).byteAt pa = s.byteAt pa := rfl
@[simp] theorem State.putHol_hol (s : State) (x : Hol) : (s.putHol x).hol = x := (rfl)

/-! ### State.putTick -/

@[simp] theorem State.putTick_pending (s : State) (x : Tick) : (s.putTick x).pending = s.pending := (rfl)
@[simp] theorem State.putTick_regs (s : State) (x : Tick) : (s.putTick x).regs = s.regs := (rfl)
@[simp] theorem State.putTick_eff (s : State) (x : Tick) : (s.putTick x).eff = s.eff := (rfl)
@[simp] theorem State.putTick_dev (s : State) (x : Tick) : (s.putTick x).dev = s.dev := (rfl)
@[simp] theorem State.putTick_fns (s : State) (x : Tick) : (s.putTick x).fns = s.fns := (rfl)
@[simp] theorem State.putTick_msix (s : State) (x : Tick) : (s.putTick x).msix = s.msix := (rfl)
@[simp] theorem State.putTick_hol (s : State) (x : Tick) : (s.putTick x).hol = s.hol := (rfl)
@[simp] theorem State.putTick_ctxs (s : State) (x : Tick) : (s.putTick x).ctxs = s.ctxs := (rfl)
@[simp] theorem State.putTick_rings (s : State) (x : Tick) : (s.putTick x).rings = s.rings := (rfl)
@[simp] theorem State.putTick_flight (s : State) (x : Tick) : (s.putTick x).flight = s.flight := (rfl)
@[simp] theorem State.putTick_nextId (s : State) (x : Tick) : (s.putTick x).nextId = s.nextId := (rfl)
@[simp] theorem State.putTick_slots (s : State) (x : Tick) : (s.putTick x).slots = s.slots := (rfl)
@[simp] theorem State.putTick_images (s : State) (x : Tick) : (s.putTick x).images = s.images := (rfl)
@[simp] theorem State.putTick_mem (s : State) (x : Tick) : (s.putTick x).mem = s.mem := (rfl)
@[simp] theorem State.putTick_mig (s : State) (x : Tick) : (s.putTick x).mig = s.mig := (rfl)
@[simp] theorem State.putTick_retained (s : State) (x : Tick) : (s.putTick x).retained = s.retained := (rfl)
@[simp] theorem State.putTick_prefetched (s : State) (x : Tick) : (s.putTick x).prefetched = s.prefetched := (rfl)
@[simp] theorem State.putTick_kv (s : State) (x : Tick) : (s.putTick x).kv = s.kv := (rfl)
@[simp] theorem State.putTick_pwr (s : State) (x : Tick) : (s.putTick x).pwr = s.pwr := (rfl)
@[simp] theorem State.putTick_sec (s : State) (x : Tick) : (s.putTick x).sec = s.sec := (rfl)
@[simp] theorem State.putTick_mgt (s : State) (x : Tick) : (s.putTick x).mgt = s.mgt := (rfl)
@[simp] theorem State.putTick_fab (s : State) (x : Tick) : (s.putTick x).fab = s.fab := (rfl)
@[simp] theorem State.putTick_out (s : State) (x : Tick) : (s.putTick x).out = s.out := (rfl)
@[simp] theorem State.putTick_free (s : State) (x : Tick) : (s.putTick x).free = s.free := (rfl)
@[simp] theorem State.putTick_reg (s : State) (x : Tick) (o : Nat) : (s.putTick x).reg o = s.reg o := rfl
@[simp] theorem State.putTick_effReg (s : State) (x : Tick) (o : Nat) : (s.putTick x).effReg o = s.effReg o := rfl
@[simp] theorem State.putTick_fldR (s : State) (x : Tick) (o h l : Nat) : (s.putTick x).fldR o h l = s.fldR o h l := rfl
@[simp] theorem State.putTick_effF (s : State) (x : Tick) (o h l : Nat) : (s.putTick x).effF o h l = s.effF o h l := rfl
@[simp] theorem State.putTick_devState (s : State) (x : Tick) : (s.putTick x).devState = s.devState := rfl
@[simp] theorem State.putTick_live (s : State) (x : Tick) : (s.putTick x).live = s.live := rfl
@[simp] theorem State.putTick_tickNum (s : State) (x : Tick) : (s.putTick x).tickNum = s.tickNum := rfl
@[simp] theorem State.putTick_ctx (s : State) (x : Tick) (m : Nat) : (s.putTick x).ctx m = s.ctx m := rfl
@[simp] theorem State.putTick_ring (s : State) (x : Tick) (m : Nat) : (s.putTick x).ring m = s.ring m := rfl
@[simp] theorem State.putTick_entry (s : State) (x : Tick) (m : Nat) : (s.putTick x).entry m = s.entry m := rfl
@[simp] theorem State.putTick_byteAt (s : State) (x : Tick) (pa : Nat) : (s.putTick x).byteAt pa = s.byteAt pa := rfl
@[simp] theorem State.putTick_tick (s : State) (x : Tick) : (s.putTick x).tick = x := (rfl)

/-! ### State.putCtxs -/

@[simp] theorem State.putCtxs_pending (s : State) (x : List (Nat × Ctx)) : (s.putCtxs x).pending = s.pending := (rfl)
@[simp] theorem State.putCtxs_regs (s : State) (x : List (Nat × Ctx)) : (s.putCtxs x).regs = s.regs := (rfl)
@[simp] theorem State.putCtxs_eff (s : State) (x : List (Nat × Ctx)) : (s.putCtxs x).eff = s.eff := (rfl)
@[simp] theorem State.putCtxs_dev (s : State) (x : List (Nat × Ctx)) : (s.putCtxs x).dev = s.dev := (rfl)
@[simp] theorem State.putCtxs_fns (s : State) (x : List (Nat × Ctx)) : (s.putCtxs x).fns = s.fns := (rfl)
@[simp] theorem State.putCtxs_msix (s : State) (x : List (Nat × Ctx)) : (s.putCtxs x).msix = s.msix := (rfl)
@[simp] theorem State.putCtxs_hol (s : State) (x : List (Nat × Ctx)) : (s.putCtxs x).hol = s.hol := (rfl)
@[simp] theorem State.putCtxs_tick (s : State) (x : List (Nat × Ctx)) : (s.putCtxs x).tick = s.tick := (rfl)
@[simp] theorem State.putCtxs_rings (s : State) (x : List (Nat × Ctx)) : (s.putCtxs x).rings = s.rings := (rfl)
@[simp] theorem State.putCtxs_flight (s : State) (x : List (Nat × Ctx)) : (s.putCtxs x).flight = s.flight := (rfl)
@[simp] theorem State.putCtxs_nextId (s : State) (x : List (Nat × Ctx)) : (s.putCtxs x).nextId = s.nextId := (rfl)
@[simp] theorem State.putCtxs_slots (s : State) (x : List (Nat × Ctx)) : (s.putCtxs x).slots = s.slots := (rfl)
@[simp] theorem State.putCtxs_images (s : State) (x : List (Nat × Ctx)) : (s.putCtxs x).images = s.images := (rfl)
@[simp] theorem State.putCtxs_mem (s : State) (x : List (Nat × Ctx)) : (s.putCtxs x).mem = s.mem := (rfl)
@[simp] theorem State.putCtxs_mig (s : State) (x : List (Nat × Ctx)) : (s.putCtxs x).mig = s.mig := (rfl)
@[simp] theorem State.putCtxs_retained (s : State) (x : List (Nat × Ctx)) : (s.putCtxs x).retained = s.retained := (rfl)
@[simp] theorem State.putCtxs_prefetched (s : State) (x : List (Nat × Ctx)) : (s.putCtxs x).prefetched = s.prefetched := (rfl)
@[simp] theorem State.putCtxs_kv (s : State) (x : List (Nat × Ctx)) : (s.putCtxs x).kv = s.kv := (rfl)
@[simp] theorem State.putCtxs_pwr (s : State) (x : List (Nat × Ctx)) : (s.putCtxs x).pwr = s.pwr := (rfl)
@[simp] theorem State.putCtxs_sec (s : State) (x : List (Nat × Ctx)) : (s.putCtxs x).sec = s.sec := (rfl)
@[simp] theorem State.putCtxs_mgt (s : State) (x : List (Nat × Ctx)) : (s.putCtxs x).mgt = s.mgt := (rfl)
@[simp] theorem State.putCtxs_fab (s : State) (x : List (Nat × Ctx)) : (s.putCtxs x).fab = s.fab := (rfl)
@[simp] theorem State.putCtxs_out (s : State) (x : List (Nat × Ctx)) : (s.putCtxs x).out = s.out := (rfl)
@[simp] theorem State.putCtxs_free (s : State) (x : List (Nat × Ctx)) : (s.putCtxs x).free = s.free := (rfl)
@[simp] theorem State.putCtxs_reg (s : State) (x : List (Nat × Ctx)) (o : Nat) : (s.putCtxs x).reg o = s.reg o := rfl
@[simp] theorem State.putCtxs_effReg (s : State) (x : List (Nat × Ctx)) (o : Nat) : (s.putCtxs x).effReg o = s.effReg o := rfl
@[simp] theorem State.putCtxs_fldR (s : State) (x : List (Nat × Ctx)) (o h l : Nat) : (s.putCtxs x).fldR o h l = s.fldR o h l := rfl
@[simp] theorem State.putCtxs_effF (s : State) (x : List (Nat × Ctx)) (o h l : Nat) : (s.putCtxs x).effF o h l = s.effF o h l := rfl
@[simp] theorem State.putCtxs_devState (s : State) (x : List (Nat × Ctx)) : (s.putCtxs x).devState = s.devState := rfl
@[simp] theorem State.putCtxs_live (s : State) (x : List (Nat × Ctx)) : (s.putCtxs x).live = s.live := rfl
@[simp] theorem State.putCtxs_tickNum (s : State) (x : List (Nat × Ctx)) : (s.putCtxs x).tickNum = s.tickNum := rfl
@[simp] theorem State.putCtxs_ring (s : State) (x : List (Nat × Ctx)) (m : Nat) : (s.putCtxs x).ring m = s.ring m := rfl
@[simp] theorem State.putCtxs_entry (s : State) (x : List (Nat × Ctx)) (m : Nat) : (s.putCtxs x).entry m = s.entry m := rfl
@[simp] theorem State.putCtxs_byteAt (s : State) (x : List (Nat × Ctx)) (pa : Nat) : (s.putCtxs x).byteAt pa = s.byteAt pa := rfl
@[simp] theorem State.putCtxs_ctxs (s : State) (x : List (Nat × Ctx)) : (s.putCtxs x).ctxs = x := (rfl)

/-! ### State.putRings -/

@[simp] theorem State.putRings_pending (s : State) (x : List (Nat × Ring)) : (s.putRings x).pending = s.pending := (rfl)
@[simp] theorem State.putRings_regs (s : State) (x : List (Nat × Ring)) : (s.putRings x).regs = s.regs := (rfl)
@[simp] theorem State.putRings_eff (s : State) (x : List (Nat × Ring)) : (s.putRings x).eff = s.eff := (rfl)
@[simp] theorem State.putRings_dev (s : State) (x : List (Nat × Ring)) : (s.putRings x).dev = s.dev := (rfl)
@[simp] theorem State.putRings_fns (s : State) (x : List (Nat × Ring)) : (s.putRings x).fns = s.fns := (rfl)
@[simp] theorem State.putRings_msix (s : State) (x : List (Nat × Ring)) : (s.putRings x).msix = s.msix := (rfl)
@[simp] theorem State.putRings_hol (s : State) (x : List (Nat × Ring)) : (s.putRings x).hol = s.hol := (rfl)
@[simp] theorem State.putRings_tick (s : State) (x : List (Nat × Ring)) : (s.putRings x).tick = s.tick := (rfl)
@[simp] theorem State.putRings_ctxs (s : State) (x : List (Nat × Ring)) : (s.putRings x).ctxs = s.ctxs := (rfl)
@[simp] theorem State.putRings_flight (s : State) (x : List (Nat × Ring)) : (s.putRings x).flight = s.flight := (rfl)
@[simp] theorem State.putRings_nextId (s : State) (x : List (Nat × Ring)) : (s.putRings x).nextId = s.nextId := (rfl)
@[simp] theorem State.putRings_slots (s : State) (x : List (Nat × Ring)) : (s.putRings x).slots = s.slots := (rfl)
@[simp] theorem State.putRings_images (s : State) (x : List (Nat × Ring)) : (s.putRings x).images = s.images := (rfl)
@[simp] theorem State.putRings_mem (s : State) (x : List (Nat × Ring)) : (s.putRings x).mem = s.mem := (rfl)
@[simp] theorem State.putRings_mig (s : State) (x : List (Nat × Ring)) : (s.putRings x).mig = s.mig := (rfl)
@[simp] theorem State.putRings_retained (s : State) (x : List (Nat × Ring)) : (s.putRings x).retained = s.retained := (rfl)
@[simp] theorem State.putRings_prefetched (s : State) (x : List (Nat × Ring)) : (s.putRings x).prefetched = s.prefetched := (rfl)
@[simp] theorem State.putRings_kv (s : State) (x : List (Nat × Ring)) : (s.putRings x).kv = s.kv := (rfl)
@[simp] theorem State.putRings_pwr (s : State) (x : List (Nat × Ring)) : (s.putRings x).pwr = s.pwr := (rfl)
@[simp] theorem State.putRings_sec (s : State) (x : List (Nat × Ring)) : (s.putRings x).sec = s.sec := (rfl)
@[simp] theorem State.putRings_mgt (s : State) (x : List (Nat × Ring)) : (s.putRings x).mgt = s.mgt := (rfl)
@[simp] theorem State.putRings_fab (s : State) (x : List (Nat × Ring)) : (s.putRings x).fab = s.fab := (rfl)
@[simp] theorem State.putRings_out (s : State) (x : List (Nat × Ring)) : (s.putRings x).out = s.out := (rfl)
@[simp] theorem State.putRings_free (s : State) (x : List (Nat × Ring)) : (s.putRings x).free = s.free := (rfl)
@[simp] theorem State.putRings_reg (s : State) (x : List (Nat × Ring)) (o : Nat) : (s.putRings x).reg o = s.reg o := rfl
@[simp] theorem State.putRings_effReg (s : State) (x : List (Nat × Ring)) (o : Nat) : (s.putRings x).effReg o = s.effReg o := rfl
@[simp] theorem State.putRings_fldR (s : State) (x : List (Nat × Ring)) (o h l : Nat) : (s.putRings x).fldR o h l = s.fldR o h l := rfl
@[simp] theorem State.putRings_effF (s : State) (x : List (Nat × Ring)) (o h l : Nat) : (s.putRings x).effF o h l = s.effF o h l := rfl
@[simp] theorem State.putRings_devState (s : State) (x : List (Nat × Ring)) : (s.putRings x).devState = s.devState := rfl
@[simp] theorem State.putRings_live (s : State) (x : List (Nat × Ring)) : (s.putRings x).live = s.live := rfl
@[simp] theorem State.putRings_tickNum (s : State) (x : List (Nat × Ring)) : (s.putRings x).tickNum = s.tickNum := rfl
@[simp] theorem State.putRings_ctx (s : State) (x : List (Nat × Ring)) (m : Nat) : (s.putRings x).ctx m = s.ctx m := rfl
@[simp] theorem State.putRings_entry (s : State) (x : List (Nat × Ring)) (m : Nat) : (s.putRings x).entry m = s.entry m := rfl
@[simp] theorem State.putRings_byteAt (s : State) (x : List (Nat × Ring)) (pa : Nat) : (s.putRings x).byteAt pa = s.byteAt pa := rfl
@[simp] theorem State.putRings_rings (s : State) (x : List (Nat × Ring)) : (s.putRings x).rings = x := (rfl)

/-! ### State.putFlight -/

@[simp] theorem State.putFlight_pending (s : State) (x : List Entry) : (s.putFlight x).pending = s.pending := (rfl)
@[simp] theorem State.putFlight_regs (s : State) (x : List Entry) : (s.putFlight x).regs = s.regs := (rfl)
@[simp] theorem State.putFlight_eff (s : State) (x : List Entry) : (s.putFlight x).eff = s.eff := (rfl)
@[simp] theorem State.putFlight_dev (s : State) (x : List Entry) : (s.putFlight x).dev = s.dev := (rfl)
@[simp] theorem State.putFlight_fns (s : State) (x : List Entry) : (s.putFlight x).fns = s.fns := (rfl)
@[simp] theorem State.putFlight_msix (s : State) (x : List Entry) : (s.putFlight x).msix = s.msix := (rfl)
@[simp] theorem State.putFlight_hol (s : State) (x : List Entry) : (s.putFlight x).hol = s.hol := (rfl)
@[simp] theorem State.putFlight_tick (s : State) (x : List Entry) : (s.putFlight x).tick = s.tick := (rfl)
@[simp] theorem State.putFlight_ctxs (s : State) (x : List Entry) : (s.putFlight x).ctxs = s.ctxs := (rfl)
@[simp] theorem State.putFlight_rings (s : State) (x : List Entry) : (s.putFlight x).rings = s.rings := (rfl)
@[simp] theorem State.putFlight_nextId (s : State) (x : List Entry) : (s.putFlight x).nextId = s.nextId := (rfl)
@[simp] theorem State.putFlight_slots (s : State) (x : List Entry) : (s.putFlight x).slots = s.slots := (rfl)
@[simp] theorem State.putFlight_images (s : State) (x : List Entry) : (s.putFlight x).images = s.images := (rfl)
@[simp] theorem State.putFlight_mem (s : State) (x : List Entry) : (s.putFlight x).mem = s.mem := (rfl)
@[simp] theorem State.putFlight_mig (s : State) (x : List Entry) : (s.putFlight x).mig = s.mig := (rfl)
@[simp] theorem State.putFlight_retained (s : State) (x : List Entry) : (s.putFlight x).retained = s.retained := (rfl)
@[simp] theorem State.putFlight_prefetched (s : State) (x : List Entry) : (s.putFlight x).prefetched = s.prefetched := (rfl)
@[simp] theorem State.putFlight_kv (s : State) (x : List Entry) : (s.putFlight x).kv = s.kv := (rfl)
@[simp] theorem State.putFlight_pwr (s : State) (x : List Entry) : (s.putFlight x).pwr = s.pwr := (rfl)
@[simp] theorem State.putFlight_sec (s : State) (x : List Entry) : (s.putFlight x).sec = s.sec := (rfl)
@[simp] theorem State.putFlight_mgt (s : State) (x : List Entry) : (s.putFlight x).mgt = s.mgt := (rfl)
@[simp] theorem State.putFlight_fab (s : State) (x : List Entry) : (s.putFlight x).fab = s.fab := (rfl)
@[simp] theorem State.putFlight_out (s : State) (x : List Entry) : (s.putFlight x).out = s.out := (rfl)
@[simp] theorem State.putFlight_free (s : State) (x : List Entry) : (s.putFlight x).free = s.free := (rfl)
@[simp] theorem State.putFlight_reg (s : State) (x : List Entry) (o : Nat) : (s.putFlight x).reg o = s.reg o := rfl
@[simp] theorem State.putFlight_effReg (s : State) (x : List Entry) (o : Nat) : (s.putFlight x).effReg o = s.effReg o := rfl
@[simp] theorem State.putFlight_fldR (s : State) (x : List Entry) (o h l : Nat) : (s.putFlight x).fldR o h l = s.fldR o h l := rfl
@[simp] theorem State.putFlight_effF (s : State) (x : List Entry) (o h l : Nat) : (s.putFlight x).effF o h l = s.effF o h l := rfl
@[simp] theorem State.putFlight_devState (s : State) (x : List Entry) : (s.putFlight x).devState = s.devState := rfl
@[simp] theorem State.putFlight_live (s : State) (x : List Entry) : (s.putFlight x).live = s.live := rfl
@[simp] theorem State.putFlight_tickNum (s : State) (x : List Entry) : (s.putFlight x).tickNum = s.tickNum := rfl
@[simp] theorem State.putFlight_ctx (s : State) (x : List Entry) (m : Nat) : (s.putFlight x).ctx m = s.ctx m := rfl
@[simp] theorem State.putFlight_ring (s : State) (x : List Entry) (m : Nat) : (s.putFlight x).ring m = s.ring m := rfl
@[simp] theorem State.putFlight_byteAt (s : State) (x : List Entry) (pa : Nat) : (s.putFlight x).byteAt pa = s.byteAt pa := rfl
@[simp] theorem State.putFlight_flight (s : State) (x : List Entry) : (s.putFlight x).flight = x := (rfl)

/-! ### State.putNextId -/

@[simp] theorem State.putNextId_pending (s : State) (x : Nat) : (s.putNextId x).pending = s.pending := (rfl)
@[simp] theorem State.putNextId_regs (s : State) (x : Nat) : (s.putNextId x).regs = s.regs := (rfl)
@[simp] theorem State.putNextId_eff (s : State) (x : Nat) : (s.putNextId x).eff = s.eff := (rfl)
@[simp] theorem State.putNextId_dev (s : State) (x : Nat) : (s.putNextId x).dev = s.dev := (rfl)
@[simp] theorem State.putNextId_fns (s : State) (x : Nat) : (s.putNextId x).fns = s.fns := (rfl)
@[simp] theorem State.putNextId_msix (s : State) (x : Nat) : (s.putNextId x).msix = s.msix := (rfl)
@[simp] theorem State.putNextId_hol (s : State) (x : Nat) : (s.putNextId x).hol = s.hol := (rfl)
@[simp] theorem State.putNextId_tick (s : State) (x : Nat) : (s.putNextId x).tick = s.tick := (rfl)
@[simp] theorem State.putNextId_ctxs (s : State) (x : Nat) : (s.putNextId x).ctxs = s.ctxs := (rfl)
@[simp] theorem State.putNextId_rings (s : State) (x : Nat) : (s.putNextId x).rings = s.rings := (rfl)
@[simp] theorem State.putNextId_flight (s : State) (x : Nat) : (s.putNextId x).flight = s.flight := (rfl)
@[simp] theorem State.putNextId_slots (s : State) (x : Nat) : (s.putNextId x).slots = s.slots := (rfl)
@[simp] theorem State.putNextId_images (s : State) (x : Nat) : (s.putNextId x).images = s.images := (rfl)
@[simp] theorem State.putNextId_mem (s : State) (x : Nat) : (s.putNextId x).mem = s.mem := (rfl)
@[simp] theorem State.putNextId_mig (s : State) (x : Nat) : (s.putNextId x).mig = s.mig := (rfl)
@[simp] theorem State.putNextId_retained (s : State) (x : Nat) : (s.putNextId x).retained = s.retained := (rfl)
@[simp] theorem State.putNextId_prefetched (s : State) (x : Nat) : (s.putNextId x).prefetched = s.prefetched := (rfl)
@[simp] theorem State.putNextId_kv (s : State) (x : Nat) : (s.putNextId x).kv = s.kv := (rfl)
@[simp] theorem State.putNextId_pwr (s : State) (x : Nat) : (s.putNextId x).pwr = s.pwr := (rfl)
@[simp] theorem State.putNextId_sec (s : State) (x : Nat) : (s.putNextId x).sec = s.sec := (rfl)
@[simp] theorem State.putNextId_mgt (s : State) (x : Nat) : (s.putNextId x).mgt = s.mgt := (rfl)
@[simp] theorem State.putNextId_fab (s : State) (x : Nat) : (s.putNextId x).fab = s.fab := (rfl)
@[simp] theorem State.putNextId_out (s : State) (x : Nat) : (s.putNextId x).out = s.out := (rfl)
@[simp] theorem State.putNextId_free (s : State) (x : Nat) : (s.putNextId x).free = s.free := (rfl)
@[simp] theorem State.putNextId_reg (s : State) (x : Nat) (o : Nat) : (s.putNextId x).reg o = s.reg o := rfl
@[simp] theorem State.putNextId_effReg (s : State) (x : Nat) (o : Nat) : (s.putNextId x).effReg o = s.effReg o := rfl
@[simp] theorem State.putNextId_fldR (s : State) (x : Nat) (o h l : Nat) : (s.putNextId x).fldR o h l = s.fldR o h l := rfl
@[simp] theorem State.putNextId_effF (s : State) (x : Nat) (o h l : Nat) : (s.putNextId x).effF o h l = s.effF o h l := rfl
@[simp] theorem State.putNextId_devState (s : State) (x : Nat) : (s.putNextId x).devState = s.devState := rfl
@[simp] theorem State.putNextId_live (s : State) (x : Nat) : (s.putNextId x).live = s.live := rfl
@[simp] theorem State.putNextId_tickNum (s : State) (x : Nat) : (s.putNextId x).tickNum = s.tickNum := rfl
@[simp] theorem State.putNextId_ctx (s : State) (x : Nat) (m : Nat) : (s.putNextId x).ctx m = s.ctx m := rfl
@[simp] theorem State.putNextId_ring (s : State) (x : Nat) (m : Nat) : (s.putNextId x).ring m = s.ring m := rfl
@[simp] theorem State.putNextId_entry (s : State) (x : Nat) (m : Nat) : (s.putNextId x).entry m = s.entry m := rfl
@[simp] theorem State.putNextId_byteAt (s : State) (x : Nat) (pa : Nat) : (s.putNextId x).byteAt pa = s.byteAt pa := rfl
@[simp] theorem State.putNextId_nextId (s : State) (x : Nat) : (s.putNextId x).nextId = x := (rfl)

/-! ### State.putSlots -/

@[simp] theorem State.putSlots_pending (s : State) (x : List Slot) : (s.putSlots x).pending = s.pending := (rfl)
@[simp] theorem State.putSlots_regs (s : State) (x : List Slot) : (s.putSlots x).regs = s.regs := (rfl)
@[simp] theorem State.putSlots_eff (s : State) (x : List Slot) : (s.putSlots x).eff = s.eff := (rfl)
@[simp] theorem State.putSlots_dev (s : State) (x : List Slot) : (s.putSlots x).dev = s.dev := (rfl)
@[simp] theorem State.putSlots_fns (s : State) (x : List Slot) : (s.putSlots x).fns = s.fns := (rfl)
@[simp] theorem State.putSlots_msix (s : State) (x : List Slot) : (s.putSlots x).msix = s.msix := (rfl)
@[simp] theorem State.putSlots_hol (s : State) (x : List Slot) : (s.putSlots x).hol = s.hol := (rfl)
@[simp] theorem State.putSlots_tick (s : State) (x : List Slot) : (s.putSlots x).tick = s.tick := (rfl)
@[simp] theorem State.putSlots_ctxs (s : State) (x : List Slot) : (s.putSlots x).ctxs = s.ctxs := (rfl)
@[simp] theorem State.putSlots_rings (s : State) (x : List Slot) : (s.putSlots x).rings = s.rings := (rfl)
@[simp] theorem State.putSlots_flight (s : State) (x : List Slot) : (s.putSlots x).flight = s.flight := (rfl)
@[simp] theorem State.putSlots_nextId (s : State) (x : List Slot) : (s.putSlots x).nextId = s.nextId := (rfl)
@[simp] theorem State.putSlots_images (s : State) (x : List Slot) : (s.putSlots x).images = s.images := (rfl)
@[simp] theorem State.putSlots_mem (s : State) (x : List Slot) : (s.putSlots x).mem = s.mem := (rfl)
@[simp] theorem State.putSlots_mig (s : State) (x : List Slot) : (s.putSlots x).mig = s.mig := (rfl)
@[simp] theorem State.putSlots_retained (s : State) (x : List Slot) : (s.putSlots x).retained = s.retained := (rfl)
@[simp] theorem State.putSlots_prefetched (s : State) (x : List Slot) : (s.putSlots x).prefetched = s.prefetched := (rfl)
@[simp] theorem State.putSlots_kv (s : State) (x : List Slot) : (s.putSlots x).kv = s.kv := (rfl)
@[simp] theorem State.putSlots_pwr (s : State) (x : List Slot) : (s.putSlots x).pwr = s.pwr := (rfl)
@[simp] theorem State.putSlots_sec (s : State) (x : List Slot) : (s.putSlots x).sec = s.sec := (rfl)
@[simp] theorem State.putSlots_mgt (s : State) (x : List Slot) : (s.putSlots x).mgt = s.mgt := (rfl)
@[simp] theorem State.putSlots_fab (s : State) (x : List Slot) : (s.putSlots x).fab = s.fab := (rfl)
@[simp] theorem State.putSlots_out (s : State) (x : List Slot) : (s.putSlots x).out = s.out := (rfl)
@[simp] theorem State.putSlots_free (s : State) (x : List Slot) : (s.putSlots x).free = s.free := (rfl)
@[simp] theorem State.putSlots_reg (s : State) (x : List Slot) (o : Nat) : (s.putSlots x).reg o = s.reg o := rfl
@[simp] theorem State.putSlots_effReg (s : State) (x : List Slot) (o : Nat) : (s.putSlots x).effReg o = s.effReg o := rfl
@[simp] theorem State.putSlots_fldR (s : State) (x : List Slot) (o h l : Nat) : (s.putSlots x).fldR o h l = s.fldR o h l := rfl
@[simp] theorem State.putSlots_effF (s : State) (x : List Slot) (o h l : Nat) : (s.putSlots x).effF o h l = s.effF o h l := rfl
@[simp] theorem State.putSlots_devState (s : State) (x : List Slot) : (s.putSlots x).devState = s.devState := rfl
@[simp] theorem State.putSlots_live (s : State) (x : List Slot) : (s.putSlots x).live = s.live := rfl
@[simp] theorem State.putSlots_tickNum (s : State) (x : List Slot) : (s.putSlots x).tickNum = s.tickNum := rfl
@[simp] theorem State.putSlots_ctx (s : State) (x : List Slot) (m : Nat) : (s.putSlots x).ctx m = s.ctx m := rfl
@[simp] theorem State.putSlots_ring (s : State) (x : List Slot) (m : Nat) : (s.putSlots x).ring m = s.ring m := rfl
@[simp] theorem State.putSlots_entry (s : State) (x : List Slot) (m : Nat) : (s.putSlots x).entry m = s.entry m := rfl
@[simp] theorem State.putSlots_byteAt (s : State) (x : List Slot) (pa : Nat) : (s.putSlots x).byteAt pa = s.byteAt pa := rfl
@[simp] theorem State.putSlots_slots (s : State) (x : List Slot) : (s.putSlots x).slots = x := (rfl)

/-! ### State.putImages -/

@[simp] theorem State.putImages_pending (s : State) (x : List (Nat × Nat × Nat)) : (s.putImages x).pending = s.pending := (rfl)
@[simp] theorem State.putImages_regs (s : State) (x : List (Nat × Nat × Nat)) : (s.putImages x).regs = s.regs := (rfl)
@[simp] theorem State.putImages_eff (s : State) (x : List (Nat × Nat × Nat)) : (s.putImages x).eff = s.eff := (rfl)
@[simp] theorem State.putImages_dev (s : State) (x : List (Nat × Nat × Nat)) : (s.putImages x).dev = s.dev := (rfl)
@[simp] theorem State.putImages_fns (s : State) (x : List (Nat × Nat × Nat)) : (s.putImages x).fns = s.fns := (rfl)
@[simp] theorem State.putImages_msix (s : State) (x : List (Nat × Nat × Nat)) : (s.putImages x).msix = s.msix := (rfl)
@[simp] theorem State.putImages_hol (s : State) (x : List (Nat × Nat × Nat)) : (s.putImages x).hol = s.hol := (rfl)
@[simp] theorem State.putImages_tick (s : State) (x : List (Nat × Nat × Nat)) : (s.putImages x).tick = s.tick := (rfl)
@[simp] theorem State.putImages_ctxs (s : State) (x : List (Nat × Nat × Nat)) : (s.putImages x).ctxs = s.ctxs := (rfl)
@[simp] theorem State.putImages_rings (s : State) (x : List (Nat × Nat × Nat)) : (s.putImages x).rings = s.rings := (rfl)
@[simp] theorem State.putImages_flight (s : State) (x : List (Nat × Nat × Nat)) : (s.putImages x).flight = s.flight := (rfl)
@[simp] theorem State.putImages_nextId (s : State) (x : List (Nat × Nat × Nat)) : (s.putImages x).nextId = s.nextId := (rfl)
@[simp] theorem State.putImages_slots (s : State) (x : List (Nat × Nat × Nat)) : (s.putImages x).slots = s.slots := (rfl)
@[simp] theorem State.putImages_mem (s : State) (x : List (Nat × Nat × Nat)) : (s.putImages x).mem = s.mem := (rfl)
@[simp] theorem State.putImages_mig (s : State) (x : List (Nat × Nat × Nat)) : (s.putImages x).mig = s.mig := (rfl)
@[simp] theorem State.putImages_retained (s : State) (x : List (Nat × Nat × Nat)) : (s.putImages x).retained = s.retained := (rfl)
@[simp] theorem State.putImages_prefetched (s : State) (x : List (Nat × Nat × Nat)) : (s.putImages x).prefetched = s.prefetched := (rfl)
@[simp] theorem State.putImages_kv (s : State) (x : List (Nat × Nat × Nat)) : (s.putImages x).kv = s.kv := (rfl)
@[simp] theorem State.putImages_pwr (s : State) (x : List (Nat × Nat × Nat)) : (s.putImages x).pwr = s.pwr := (rfl)
@[simp] theorem State.putImages_sec (s : State) (x : List (Nat × Nat × Nat)) : (s.putImages x).sec = s.sec := (rfl)
@[simp] theorem State.putImages_mgt (s : State) (x : List (Nat × Nat × Nat)) : (s.putImages x).mgt = s.mgt := (rfl)
@[simp] theorem State.putImages_fab (s : State) (x : List (Nat × Nat × Nat)) : (s.putImages x).fab = s.fab := (rfl)
@[simp] theorem State.putImages_out (s : State) (x : List (Nat × Nat × Nat)) : (s.putImages x).out = s.out := (rfl)
@[simp] theorem State.putImages_free (s : State) (x : List (Nat × Nat × Nat)) : (s.putImages x).free = s.free := (rfl)
@[simp] theorem State.putImages_reg (s : State) (x : List (Nat × Nat × Nat)) (o : Nat) : (s.putImages x).reg o = s.reg o := rfl
@[simp] theorem State.putImages_effReg (s : State) (x : List (Nat × Nat × Nat)) (o : Nat) : (s.putImages x).effReg o = s.effReg o := rfl
@[simp] theorem State.putImages_fldR (s : State) (x : List (Nat × Nat × Nat)) (o h l : Nat) : (s.putImages x).fldR o h l = s.fldR o h l := rfl
@[simp] theorem State.putImages_effF (s : State) (x : List (Nat × Nat × Nat)) (o h l : Nat) : (s.putImages x).effF o h l = s.effF o h l := rfl
@[simp] theorem State.putImages_devState (s : State) (x : List (Nat × Nat × Nat)) : (s.putImages x).devState = s.devState := rfl
@[simp] theorem State.putImages_live (s : State) (x : List (Nat × Nat × Nat)) : (s.putImages x).live = s.live := rfl
@[simp] theorem State.putImages_tickNum (s : State) (x : List (Nat × Nat × Nat)) : (s.putImages x).tickNum = s.tickNum := rfl
@[simp] theorem State.putImages_ctx (s : State) (x : List (Nat × Nat × Nat)) (m : Nat) : (s.putImages x).ctx m = s.ctx m := rfl
@[simp] theorem State.putImages_ring (s : State) (x : List (Nat × Nat × Nat)) (m : Nat) : (s.putImages x).ring m = s.ring m := rfl
@[simp] theorem State.putImages_entry (s : State) (x : List (Nat × Nat × Nat)) (m : Nat) : (s.putImages x).entry m = s.entry m := rfl
@[simp] theorem State.putImages_byteAt (s : State) (x : List (Nat × Nat × Nat)) (pa : Nat) : (s.putImages x).byteAt pa = s.byteAt pa := rfl
@[simp] theorem State.putImages_images (s : State) (x : List (Nat × Nat × Nat)) : (s.putImages x).images = x := (rfl)

/-! ### State.putMem -/

@[simp] theorem State.putMem_pending (s : State) (x : Mem) : (s.putMem x).pending = s.pending := (rfl)
@[simp] theorem State.putMem_regs (s : State) (x : Mem) : (s.putMem x).regs = s.regs := (rfl)
@[simp] theorem State.putMem_eff (s : State) (x : Mem) : (s.putMem x).eff = s.eff := (rfl)
@[simp] theorem State.putMem_dev (s : State) (x : Mem) : (s.putMem x).dev = s.dev := (rfl)
@[simp] theorem State.putMem_fns (s : State) (x : Mem) : (s.putMem x).fns = s.fns := (rfl)
@[simp] theorem State.putMem_msix (s : State) (x : Mem) : (s.putMem x).msix = s.msix := (rfl)
@[simp] theorem State.putMem_hol (s : State) (x : Mem) : (s.putMem x).hol = s.hol := (rfl)
@[simp] theorem State.putMem_tick (s : State) (x : Mem) : (s.putMem x).tick = s.tick := (rfl)
@[simp] theorem State.putMem_ctxs (s : State) (x : Mem) : (s.putMem x).ctxs = s.ctxs := (rfl)
@[simp] theorem State.putMem_rings (s : State) (x : Mem) : (s.putMem x).rings = s.rings := (rfl)
@[simp] theorem State.putMem_flight (s : State) (x : Mem) : (s.putMem x).flight = s.flight := (rfl)
@[simp] theorem State.putMem_nextId (s : State) (x : Mem) : (s.putMem x).nextId = s.nextId := (rfl)
@[simp] theorem State.putMem_slots (s : State) (x : Mem) : (s.putMem x).slots = s.slots := (rfl)
@[simp] theorem State.putMem_images (s : State) (x : Mem) : (s.putMem x).images = s.images := (rfl)
@[simp] theorem State.putMem_mig (s : State) (x : Mem) : (s.putMem x).mig = s.mig := (rfl)
@[simp] theorem State.putMem_retained (s : State) (x : Mem) : (s.putMem x).retained = s.retained := (rfl)
@[simp] theorem State.putMem_prefetched (s : State) (x : Mem) : (s.putMem x).prefetched = s.prefetched := (rfl)
@[simp] theorem State.putMem_kv (s : State) (x : Mem) : (s.putMem x).kv = s.kv := (rfl)
@[simp] theorem State.putMem_pwr (s : State) (x : Mem) : (s.putMem x).pwr = s.pwr := (rfl)
@[simp] theorem State.putMem_sec (s : State) (x : Mem) : (s.putMem x).sec = s.sec := (rfl)
@[simp] theorem State.putMem_mgt (s : State) (x : Mem) : (s.putMem x).mgt = s.mgt := (rfl)
@[simp] theorem State.putMem_fab (s : State) (x : Mem) : (s.putMem x).fab = s.fab := (rfl)
@[simp] theorem State.putMem_out (s : State) (x : Mem) : (s.putMem x).out = s.out := (rfl)
@[simp] theorem State.putMem_free (s : State) (x : Mem) : (s.putMem x).free = s.free := (rfl)
@[simp] theorem State.putMem_reg (s : State) (x : Mem) (o : Nat) : (s.putMem x).reg o = s.reg o := rfl
@[simp] theorem State.putMem_effReg (s : State) (x : Mem) (o : Nat) : (s.putMem x).effReg o = s.effReg o := rfl
@[simp] theorem State.putMem_fldR (s : State) (x : Mem) (o h l : Nat) : (s.putMem x).fldR o h l = s.fldR o h l := rfl
@[simp] theorem State.putMem_effF (s : State) (x : Mem) (o h l : Nat) : (s.putMem x).effF o h l = s.effF o h l := rfl
@[simp] theorem State.putMem_devState (s : State) (x : Mem) : (s.putMem x).devState = s.devState := rfl
@[simp] theorem State.putMem_live (s : State) (x : Mem) : (s.putMem x).live = s.live := rfl
@[simp] theorem State.putMem_tickNum (s : State) (x : Mem) : (s.putMem x).tickNum = s.tickNum := rfl
@[simp] theorem State.putMem_ctx (s : State) (x : Mem) (m : Nat) : (s.putMem x).ctx m = s.ctx m := rfl
@[simp] theorem State.putMem_ring (s : State) (x : Mem) (m : Nat) : (s.putMem x).ring m = s.ring m := rfl
@[simp] theorem State.putMem_entry (s : State) (x : Mem) (m : Nat) : (s.putMem x).entry m = s.entry m := rfl
@[simp] theorem State.putMem_mem (s : State) (x : Mem) : (s.putMem x).mem = x := (rfl)

/-! ### State.putMig -/

@[simp] theorem State.putMig_pending (s : State) (x : Mig) : (s.putMig x).pending = s.pending := (rfl)
@[simp] theorem State.putMig_regs (s : State) (x : Mig) : (s.putMig x).regs = s.regs := (rfl)
@[simp] theorem State.putMig_eff (s : State) (x : Mig) : (s.putMig x).eff = s.eff := (rfl)
@[simp] theorem State.putMig_dev (s : State) (x : Mig) : (s.putMig x).dev = s.dev := (rfl)
@[simp] theorem State.putMig_fns (s : State) (x : Mig) : (s.putMig x).fns = s.fns := (rfl)
@[simp] theorem State.putMig_msix (s : State) (x : Mig) : (s.putMig x).msix = s.msix := (rfl)
@[simp] theorem State.putMig_hol (s : State) (x : Mig) : (s.putMig x).hol = s.hol := (rfl)
@[simp] theorem State.putMig_tick (s : State) (x : Mig) : (s.putMig x).tick = s.tick := (rfl)
@[simp] theorem State.putMig_ctxs (s : State) (x : Mig) : (s.putMig x).ctxs = s.ctxs := (rfl)
@[simp] theorem State.putMig_rings (s : State) (x : Mig) : (s.putMig x).rings = s.rings := (rfl)
@[simp] theorem State.putMig_flight (s : State) (x : Mig) : (s.putMig x).flight = s.flight := (rfl)
@[simp] theorem State.putMig_nextId (s : State) (x : Mig) : (s.putMig x).nextId = s.nextId := (rfl)
@[simp] theorem State.putMig_slots (s : State) (x : Mig) : (s.putMig x).slots = s.slots := (rfl)
@[simp] theorem State.putMig_images (s : State) (x : Mig) : (s.putMig x).images = s.images := (rfl)
@[simp] theorem State.putMig_mem (s : State) (x : Mig) : (s.putMig x).mem = s.mem := (rfl)
@[simp] theorem State.putMig_retained (s : State) (x : Mig) : (s.putMig x).retained = s.retained := (rfl)
@[simp] theorem State.putMig_prefetched (s : State) (x : Mig) : (s.putMig x).prefetched = s.prefetched := (rfl)
@[simp] theorem State.putMig_kv (s : State) (x : Mig) : (s.putMig x).kv = s.kv := (rfl)
@[simp] theorem State.putMig_pwr (s : State) (x : Mig) : (s.putMig x).pwr = s.pwr := (rfl)
@[simp] theorem State.putMig_sec (s : State) (x : Mig) : (s.putMig x).sec = s.sec := (rfl)
@[simp] theorem State.putMig_mgt (s : State) (x : Mig) : (s.putMig x).mgt = s.mgt := (rfl)
@[simp] theorem State.putMig_fab (s : State) (x : Mig) : (s.putMig x).fab = s.fab := (rfl)
@[simp] theorem State.putMig_out (s : State) (x : Mig) : (s.putMig x).out = s.out := (rfl)
@[simp] theorem State.putMig_free (s : State) (x : Mig) : (s.putMig x).free = s.free := (rfl)
@[simp] theorem State.putMig_reg (s : State) (x : Mig) (o : Nat) : (s.putMig x).reg o = s.reg o := rfl
@[simp] theorem State.putMig_effReg (s : State) (x : Mig) (o : Nat) : (s.putMig x).effReg o = s.effReg o := rfl
@[simp] theorem State.putMig_fldR (s : State) (x : Mig) (o h l : Nat) : (s.putMig x).fldR o h l = s.fldR o h l := rfl
@[simp] theorem State.putMig_effF (s : State) (x : Mig) (o h l : Nat) : (s.putMig x).effF o h l = s.effF o h l := rfl
@[simp] theorem State.putMig_devState (s : State) (x : Mig) : (s.putMig x).devState = s.devState := rfl
@[simp] theorem State.putMig_live (s : State) (x : Mig) : (s.putMig x).live = s.live := rfl
@[simp] theorem State.putMig_tickNum (s : State) (x : Mig) : (s.putMig x).tickNum = s.tickNum := rfl
@[simp] theorem State.putMig_ctx (s : State) (x : Mig) (m : Nat) : (s.putMig x).ctx m = s.ctx m := rfl
@[simp] theorem State.putMig_ring (s : State) (x : Mig) (m : Nat) : (s.putMig x).ring m = s.ring m := rfl
@[simp] theorem State.putMig_entry (s : State) (x : Mig) (m : Nat) : (s.putMig x).entry m = s.entry m := rfl
@[simp] theorem State.putMig_byteAt (s : State) (x : Mig) (pa : Nat) : (s.putMig x).byteAt pa = s.byteAt pa := rfl
@[simp] theorem State.putMig_mig (s : State) (x : Mig) : (s.putMig x).mig = x := (rfl)

/-! ### State.putRetained -/

@[simp] theorem State.putRetained_pending (s : State) (x : List Retained) : (s.putRetained x).pending = s.pending := (rfl)
@[simp] theorem State.putRetained_regs (s : State) (x : List Retained) : (s.putRetained x).regs = s.regs := (rfl)
@[simp] theorem State.putRetained_eff (s : State) (x : List Retained) : (s.putRetained x).eff = s.eff := (rfl)
@[simp] theorem State.putRetained_dev (s : State) (x : List Retained) : (s.putRetained x).dev = s.dev := (rfl)
@[simp] theorem State.putRetained_fns (s : State) (x : List Retained) : (s.putRetained x).fns = s.fns := (rfl)
@[simp] theorem State.putRetained_msix (s : State) (x : List Retained) : (s.putRetained x).msix = s.msix := (rfl)
@[simp] theorem State.putRetained_hol (s : State) (x : List Retained) : (s.putRetained x).hol = s.hol := (rfl)
@[simp] theorem State.putRetained_tick (s : State) (x : List Retained) : (s.putRetained x).tick = s.tick := (rfl)
@[simp] theorem State.putRetained_ctxs (s : State) (x : List Retained) : (s.putRetained x).ctxs = s.ctxs := (rfl)
@[simp] theorem State.putRetained_rings (s : State) (x : List Retained) : (s.putRetained x).rings = s.rings := (rfl)
@[simp] theorem State.putRetained_flight (s : State) (x : List Retained) : (s.putRetained x).flight = s.flight := (rfl)
@[simp] theorem State.putRetained_nextId (s : State) (x : List Retained) : (s.putRetained x).nextId = s.nextId := (rfl)
@[simp] theorem State.putRetained_slots (s : State) (x : List Retained) : (s.putRetained x).slots = s.slots := (rfl)
@[simp] theorem State.putRetained_images (s : State) (x : List Retained) : (s.putRetained x).images = s.images := (rfl)
@[simp] theorem State.putRetained_mem (s : State) (x : List Retained) : (s.putRetained x).mem = s.mem := (rfl)
@[simp] theorem State.putRetained_mig (s : State) (x : List Retained) : (s.putRetained x).mig = s.mig := (rfl)
@[simp] theorem State.putRetained_prefetched (s : State) (x : List Retained) : (s.putRetained x).prefetched = s.prefetched := (rfl)
@[simp] theorem State.putRetained_kv (s : State) (x : List Retained) : (s.putRetained x).kv = s.kv := (rfl)
@[simp] theorem State.putRetained_pwr (s : State) (x : List Retained) : (s.putRetained x).pwr = s.pwr := (rfl)
@[simp] theorem State.putRetained_sec (s : State) (x : List Retained) : (s.putRetained x).sec = s.sec := (rfl)
@[simp] theorem State.putRetained_mgt (s : State) (x : List Retained) : (s.putRetained x).mgt = s.mgt := (rfl)
@[simp] theorem State.putRetained_fab (s : State) (x : List Retained) : (s.putRetained x).fab = s.fab := (rfl)
@[simp] theorem State.putRetained_out (s : State) (x : List Retained) : (s.putRetained x).out = s.out := (rfl)
@[simp] theorem State.putRetained_free (s : State) (x : List Retained) : (s.putRetained x).free = s.free := (rfl)
@[simp] theorem State.putRetained_reg (s : State) (x : List Retained) (o : Nat) : (s.putRetained x).reg o = s.reg o := rfl
@[simp] theorem State.putRetained_effReg (s : State) (x : List Retained) (o : Nat) : (s.putRetained x).effReg o = s.effReg o := rfl
@[simp] theorem State.putRetained_fldR (s : State) (x : List Retained) (o h l : Nat) : (s.putRetained x).fldR o h l = s.fldR o h l := rfl
@[simp] theorem State.putRetained_effF (s : State) (x : List Retained) (o h l : Nat) : (s.putRetained x).effF o h l = s.effF o h l := rfl
@[simp] theorem State.putRetained_devState (s : State) (x : List Retained) : (s.putRetained x).devState = s.devState := rfl
@[simp] theorem State.putRetained_live (s : State) (x : List Retained) : (s.putRetained x).live = s.live := rfl
@[simp] theorem State.putRetained_tickNum (s : State) (x : List Retained) : (s.putRetained x).tickNum = s.tickNum := rfl
@[simp] theorem State.putRetained_ctx (s : State) (x : List Retained) (m : Nat) : (s.putRetained x).ctx m = s.ctx m := rfl
@[simp] theorem State.putRetained_ring (s : State) (x : List Retained) (m : Nat) : (s.putRetained x).ring m = s.ring m := rfl
@[simp] theorem State.putRetained_entry (s : State) (x : List Retained) (m : Nat) : (s.putRetained x).entry m = s.entry m := rfl
@[simp] theorem State.putRetained_byteAt (s : State) (x : List Retained) (pa : Nat) : (s.putRetained x).byteAt pa = s.byteAt pa := rfl
@[simp] theorem State.putRetained_retained (s : State) (x : List Retained) : (s.putRetained x).retained = x := (rfl)

/-! ### State.putPrefetched -/

@[simp] theorem State.putPrefetched_pending (s : State) (x : List Prefetched) : (s.putPrefetched x).pending = s.pending := (rfl)
@[simp] theorem State.putPrefetched_regs (s : State) (x : List Prefetched) : (s.putPrefetched x).regs = s.regs := (rfl)
@[simp] theorem State.putPrefetched_eff (s : State) (x : List Prefetched) : (s.putPrefetched x).eff = s.eff := (rfl)
@[simp] theorem State.putPrefetched_dev (s : State) (x : List Prefetched) : (s.putPrefetched x).dev = s.dev := (rfl)
@[simp] theorem State.putPrefetched_fns (s : State) (x : List Prefetched) : (s.putPrefetched x).fns = s.fns := (rfl)
@[simp] theorem State.putPrefetched_msix (s : State) (x : List Prefetched) : (s.putPrefetched x).msix = s.msix := (rfl)
@[simp] theorem State.putPrefetched_hol (s : State) (x : List Prefetched) : (s.putPrefetched x).hol = s.hol := (rfl)
@[simp] theorem State.putPrefetched_tick (s : State) (x : List Prefetched) : (s.putPrefetched x).tick = s.tick := (rfl)
@[simp] theorem State.putPrefetched_ctxs (s : State) (x : List Prefetched) : (s.putPrefetched x).ctxs = s.ctxs := (rfl)
@[simp] theorem State.putPrefetched_rings (s : State) (x : List Prefetched) : (s.putPrefetched x).rings = s.rings := (rfl)
@[simp] theorem State.putPrefetched_flight (s : State) (x : List Prefetched) : (s.putPrefetched x).flight = s.flight := (rfl)
@[simp] theorem State.putPrefetched_nextId (s : State) (x : List Prefetched) : (s.putPrefetched x).nextId = s.nextId := (rfl)
@[simp] theorem State.putPrefetched_slots (s : State) (x : List Prefetched) : (s.putPrefetched x).slots = s.slots := (rfl)
@[simp] theorem State.putPrefetched_images (s : State) (x : List Prefetched) : (s.putPrefetched x).images = s.images := (rfl)
@[simp] theorem State.putPrefetched_mem (s : State) (x : List Prefetched) : (s.putPrefetched x).mem = s.mem := (rfl)
@[simp] theorem State.putPrefetched_mig (s : State) (x : List Prefetched) : (s.putPrefetched x).mig = s.mig := (rfl)
@[simp] theorem State.putPrefetched_retained (s : State) (x : List Prefetched) : (s.putPrefetched x).retained = s.retained := (rfl)
@[simp] theorem State.putPrefetched_kv (s : State) (x : List Prefetched) : (s.putPrefetched x).kv = s.kv := (rfl)
@[simp] theorem State.putPrefetched_pwr (s : State) (x : List Prefetched) : (s.putPrefetched x).pwr = s.pwr := (rfl)
@[simp] theorem State.putPrefetched_sec (s : State) (x : List Prefetched) : (s.putPrefetched x).sec = s.sec := (rfl)
@[simp] theorem State.putPrefetched_mgt (s : State) (x : List Prefetched) : (s.putPrefetched x).mgt = s.mgt := (rfl)
@[simp] theorem State.putPrefetched_fab (s : State) (x : List Prefetched) : (s.putPrefetched x).fab = s.fab := (rfl)
@[simp] theorem State.putPrefetched_out (s : State) (x : List Prefetched) : (s.putPrefetched x).out = s.out := (rfl)
@[simp] theorem State.putPrefetched_free (s : State) (x : List Prefetched) : (s.putPrefetched x).free = s.free := (rfl)
@[simp] theorem State.putPrefetched_reg (s : State) (x : List Prefetched) (o : Nat) : (s.putPrefetched x).reg o = s.reg o := rfl
@[simp] theorem State.putPrefetched_effReg (s : State) (x : List Prefetched) (o : Nat) : (s.putPrefetched x).effReg o = s.effReg o := rfl
@[simp] theorem State.putPrefetched_fldR (s : State) (x : List Prefetched) (o h l : Nat) : (s.putPrefetched x).fldR o h l = s.fldR o h l := rfl
@[simp] theorem State.putPrefetched_effF (s : State) (x : List Prefetched) (o h l : Nat) : (s.putPrefetched x).effF o h l = s.effF o h l := rfl
@[simp] theorem State.putPrefetched_devState (s : State) (x : List Prefetched) : (s.putPrefetched x).devState = s.devState := rfl
@[simp] theorem State.putPrefetched_live (s : State) (x : List Prefetched) : (s.putPrefetched x).live = s.live := rfl
@[simp] theorem State.putPrefetched_tickNum (s : State) (x : List Prefetched) : (s.putPrefetched x).tickNum = s.tickNum := rfl
@[simp] theorem State.putPrefetched_ctx (s : State) (x : List Prefetched) (m : Nat) : (s.putPrefetched x).ctx m = s.ctx m := rfl
@[simp] theorem State.putPrefetched_ring (s : State) (x : List Prefetched) (m : Nat) : (s.putPrefetched x).ring m = s.ring m := rfl
@[simp] theorem State.putPrefetched_entry (s : State) (x : List Prefetched) (m : Nat) : (s.putPrefetched x).entry m = s.entry m := rfl
@[simp] theorem State.putPrefetched_byteAt (s : State) (x : List Prefetched) (pa : Nat) : (s.putPrefetched x).byteAt pa = s.byteAt pa := rfl
@[simp] theorem State.putPrefetched_prefetched (s : State) (x : List Prefetched) : (s.putPrefetched x).prefetched = x := (rfl)

/-! ### State.putKv -/

@[simp] theorem State.putKv_pending (s : State) (x : Kv) : (s.putKv x).pending = s.pending := (rfl)
@[simp] theorem State.putKv_regs (s : State) (x : Kv) : (s.putKv x).regs = s.regs := (rfl)
@[simp] theorem State.putKv_eff (s : State) (x : Kv) : (s.putKv x).eff = s.eff := (rfl)
@[simp] theorem State.putKv_dev (s : State) (x : Kv) : (s.putKv x).dev = s.dev := (rfl)
@[simp] theorem State.putKv_fns (s : State) (x : Kv) : (s.putKv x).fns = s.fns := (rfl)
@[simp] theorem State.putKv_msix (s : State) (x : Kv) : (s.putKv x).msix = s.msix := (rfl)
@[simp] theorem State.putKv_hol (s : State) (x : Kv) : (s.putKv x).hol = s.hol := (rfl)
@[simp] theorem State.putKv_tick (s : State) (x : Kv) : (s.putKv x).tick = s.tick := (rfl)
@[simp] theorem State.putKv_ctxs (s : State) (x : Kv) : (s.putKv x).ctxs = s.ctxs := (rfl)
@[simp] theorem State.putKv_rings (s : State) (x : Kv) : (s.putKv x).rings = s.rings := (rfl)
@[simp] theorem State.putKv_flight (s : State) (x : Kv) : (s.putKv x).flight = s.flight := (rfl)
@[simp] theorem State.putKv_nextId (s : State) (x : Kv) : (s.putKv x).nextId = s.nextId := (rfl)
@[simp] theorem State.putKv_slots (s : State) (x : Kv) : (s.putKv x).slots = s.slots := (rfl)
@[simp] theorem State.putKv_images (s : State) (x : Kv) : (s.putKv x).images = s.images := (rfl)
@[simp] theorem State.putKv_mem (s : State) (x : Kv) : (s.putKv x).mem = s.mem := (rfl)
@[simp] theorem State.putKv_mig (s : State) (x : Kv) : (s.putKv x).mig = s.mig := (rfl)
@[simp] theorem State.putKv_retained (s : State) (x : Kv) : (s.putKv x).retained = s.retained := (rfl)
@[simp] theorem State.putKv_prefetched (s : State) (x : Kv) : (s.putKv x).prefetched = s.prefetched := (rfl)
@[simp] theorem State.putKv_pwr (s : State) (x : Kv) : (s.putKv x).pwr = s.pwr := (rfl)
@[simp] theorem State.putKv_sec (s : State) (x : Kv) : (s.putKv x).sec = s.sec := (rfl)
@[simp] theorem State.putKv_mgt (s : State) (x : Kv) : (s.putKv x).mgt = s.mgt := (rfl)
@[simp] theorem State.putKv_fab (s : State) (x : Kv) : (s.putKv x).fab = s.fab := (rfl)
@[simp] theorem State.putKv_out (s : State) (x : Kv) : (s.putKv x).out = s.out := (rfl)
@[simp] theorem State.putKv_free (s : State) (x : Kv) : (s.putKv x).free = s.free := (rfl)
@[simp] theorem State.putKv_reg (s : State) (x : Kv) (o : Nat) : (s.putKv x).reg o = s.reg o := rfl
@[simp] theorem State.putKv_effReg (s : State) (x : Kv) (o : Nat) : (s.putKv x).effReg o = s.effReg o := rfl
@[simp] theorem State.putKv_fldR (s : State) (x : Kv) (o h l : Nat) : (s.putKv x).fldR o h l = s.fldR o h l := rfl
@[simp] theorem State.putKv_effF (s : State) (x : Kv) (o h l : Nat) : (s.putKv x).effF o h l = s.effF o h l := rfl
@[simp] theorem State.putKv_devState (s : State) (x : Kv) : (s.putKv x).devState = s.devState := rfl
@[simp] theorem State.putKv_live (s : State) (x : Kv) : (s.putKv x).live = s.live := rfl
@[simp] theorem State.putKv_tickNum (s : State) (x : Kv) : (s.putKv x).tickNum = s.tickNum := rfl
@[simp] theorem State.putKv_ctx (s : State) (x : Kv) (m : Nat) : (s.putKv x).ctx m = s.ctx m := rfl
@[simp] theorem State.putKv_ring (s : State) (x : Kv) (m : Nat) : (s.putKv x).ring m = s.ring m := rfl
@[simp] theorem State.putKv_entry (s : State) (x : Kv) (m : Nat) : (s.putKv x).entry m = s.entry m := rfl
@[simp] theorem State.putKv_byteAt (s : State) (x : Kv) (pa : Nat) : (s.putKv x).byteAt pa = s.byteAt pa := rfl
@[simp] theorem State.putKv_kv (s : State) (x : Kv) : (s.putKv x).kv = x := (rfl)

/-! ### State.putPwr -/

@[simp] theorem State.putPwr_pending (s : State) (x : Pwr) : (s.putPwr x).pending = s.pending := (rfl)
@[simp] theorem State.putPwr_regs (s : State) (x : Pwr) : (s.putPwr x).regs = s.regs := (rfl)
@[simp] theorem State.putPwr_eff (s : State) (x : Pwr) : (s.putPwr x).eff = s.eff := (rfl)
@[simp] theorem State.putPwr_dev (s : State) (x : Pwr) : (s.putPwr x).dev = s.dev := (rfl)
@[simp] theorem State.putPwr_fns (s : State) (x : Pwr) : (s.putPwr x).fns = s.fns := (rfl)
@[simp] theorem State.putPwr_msix (s : State) (x : Pwr) : (s.putPwr x).msix = s.msix := (rfl)
@[simp] theorem State.putPwr_hol (s : State) (x : Pwr) : (s.putPwr x).hol = s.hol := (rfl)
@[simp] theorem State.putPwr_tick (s : State) (x : Pwr) : (s.putPwr x).tick = s.tick := (rfl)
@[simp] theorem State.putPwr_ctxs (s : State) (x : Pwr) : (s.putPwr x).ctxs = s.ctxs := (rfl)
@[simp] theorem State.putPwr_rings (s : State) (x : Pwr) : (s.putPwr x).rings = s.rings := (rfl)
@[simp] theorem State.putPwr_flight (s : State) (x : Pwr) : (s.putPwr x).flight = s.flight := (rfl)
@[simp] theorem State.putPwr_nextId (s : State) (x : Pwr) : (s.putPwr x).nextId = s.nextId := (rfl)
@[simp] theorem State.putPwr_slots (s : State) (x : Pwr) : (s.putPwr x).slots = s.slots := (rfl)
@[simp] theorem State.putPwr_images (s : State) (x : Pwr) : (s.putPwr x).images = s.images := (rfl)
@[simp] theorem State.putPwr_mem (s : State) (x : Pwr) : (s.putPwr x).mem = s.mem := (rfl)
@[simp] theorem State.putPwr_mig (s : State) (x : Pwr) : (s.putPwr x).mig = s.mig := (rfl)
@[simp] theorem State.putPwr_retained (s : State) (x : Pwr) : (s.putPwr x).retained = s.retained := (rfl)
@[simp] theorem State.putPwr_prefetched (s : State) (x : Pwr) : (s.putPwr x).prefetched = s.prefetched := (rfl)
@[simp] theorem State.putPwr_kv (s : State) (x : Pwr) : (s.putPwr x).kv = s.kv := (rfl)
@[simp] theorem State.putPwr_sec (s : State) (x : Pwr) : (s.putPwr x).sec = s.sec := (rfl)
@[simp] theorem State.putPwr_mgt (s : State) (x : Pwr) : (s.putPwr x).mgt = s.mgt := (rfl)
@[simp] theorem State.putPwr_fab (s : State) (x : Pwr) : (s.putPwr x).fab = s.fab := (rfl)
@[simp] theorem State.putPwr_out (s : State) (x : Pwr) : (s.putPwr x).out = s.out := (rfl)
@[simp] theorem State.putPwr_free (s : State) (x : Pwr) : (s.putPwr x).free = s.free := (rfl)
@[simp] theorem State.putPwr_reg (s : State) (x : Pwr) (o : Nat) : (s.putPwr x).reg o = s.reg o := rfl
@[simp] theorem State.putPwr_effReg (s : State) (x : Pwr) (o : Nat) : (s.putPwr x).effReg o = s.effReg o := rfl
@[simp] theorem State.putPwr_fldR (s : State) (x : Pwr) (o h l : Nat) : (s.putPwr x).fldR o h l = s.fldR o h l := rfl
@[simp] theorem State.putPwr_effF (s : State) (x : Pwr) (o h l : Nat) : (s.putPwr x).effF o h l = s.effF o h l := rfl
@[simp] theorem State.putPwr_devState (s : State) (x : Pwr) : (s.putPwr x).devState = s.devState := rfl
@[simp] theorem State.putPwr_live (s : State) (x : Pwr) : (s.putPwr x).live = s.live := rfl
@[simp] theorem State.putPwr_tickNum (s : State) (x : Pwr) : (s.putPwr x).tickNum = s.tickNum := rfl
@[simp] theorem State.putPwr_ctx (s : State) (x : Pwr) (m : Nat) : (s.putPwr x).ctx m = s.ctx m := rfl
@[simp] theorem State.putPwr_ring (s : State) (x : Pwr) (m : Nat) : (s.putPwr x).ring m = s.ring m := rfl
@[simp] theorem State.putPwr_entry (s : State) (x : Pwr) (m : Nat) : (s.putPwr x).entry m = s.entry m := rfl
@[simp] theorem State.putPwr_byteAt (s : State) (x : Pwr) (pa : Nat) : (s.putPwr x).byteAt pa = s.byteAt pa := rfl
@[simp] theorem State.putPwr_pwr (s : State) (x : Pwr) : (s.putPwr x).pwr = x := (rfl)

/-! ### State.putSec -/

@[simp] theorem State.putSec_pending (s : State) (x : Sec) : (s.putSec x).pending = s.pending := (rfl)
@[simp] theorem State.putSec_regs (s : State) (x : Sec) : (s.putSec x).regs = s.regs := (rfl)
@[simp] theorem State.putSec_eff (s : State) (x : Sec) : (s.putSec x).eff = s.eff := (rfl)
@[simp] theorem State.putSec_dev (s : State) (x : Sec) : (s.putSec x).dev = s.dev := (rfl)
@[simp] theorem State.putSec_fns (s : State) (x : Sec) : (s.putSec x).fns = s.fns := (rfl)
@[simp] theorem State.putSec_msix (s : State) (x : Sec) : (s.putSec x).msix = s.msix := (rfl)
@[simp] theorem State.putSec_hol (s : State) (x : Sec) : (s.putSec x).hol = s.hol := (rfl)
@[simp] theorem State.putSec_tick (s : State) (x : Sec) : (s.putSec x).tick = s.tick := (rfl)
@[simp] theorem State.putSec_ctxs (s : State) (x : Sec) : (s.putSec x).ctxs = s.ctxs := (rfl)
@[simp] theorem State.putSec_rings (s : State) (x : Sec) : (s.putSec x).rings = s.rings := (rfl)
@[simp] theorem State.putSec_flight (s : State) (x : Sec) : (s.putSec x).flight = s.flight := (rfl)
@[simp] theorem State.putSec_nextId (s : State) (x : Sec) : (s.putSec x).nextId = s.nextId := (rfl)
@[simp] theorem State.putSec_slots (s : State) (x : Sec) : (s.putSec x).slots = s.slots := (rfl)
@[simp] theorem State.putSec_images (s : State) (x : Sec) : (s.putSec x).images = s.images := (rfl)
@[simp] theorem State.putSec_mem (s : State) (x : Sec) : (s.putSec x).mem = s.mem := (rfl)
@[simp] theorem State.putSec_mig (s : State) (x : Sec) : (s.putSec x).mig = s.mig := (rfl)
@[simp] theorem State.putSec_retained (s : State) (x : Sec) : (s.putSec x).retained = s.retained := (rfl)
@[simp] theorem State.putSec_prefetched (s : State) (x : Sec) : (s.putSec x).prefetched = s.prefetched := (rfl)
@[simp] theorem State.putSec_kv (s : State) (x : Sec) : (s.putSec x).kv = s.kv := (rfl)
@[simp] theorem State.putSec_pwr (s : State) (x : Sec) : (s.putSec x).pwr = s.pwr := (rfl)
@[simp] theorem State.putSec_mgt (s : State) (x : Sec) : (s.putSec x).mgt = s.mgt := (rfl)
@[simp] theorem State.putSec_fab (s : State) (x : Sec) : (s.putSec x).fab = s.fab := (rfl)
@[simp] theorem State.putSec_out (s : State) (x : Sec) : (s.putSec x).out = s.out := (rfl)
@[simp] theorem State.putSec_free (s : State) (x : Sec) : (s.putSec x).free = s.free := (rfl)
@[simp] theorem State.putSec_reg (s : State) (x : Sec) (o : Nat) : (s.putSec x).reg o = s.reg o := rfl
@[simp] theorem State.putSec_effReg (s : State) (x : Sec) (o : Nat) : (s.putSec x).effReg o = s.effReg o := rfl
@[simp] theorem State.putSec_fldR (s : State) (x : Sec) (o h l : Nat) : (s.putSec x).fldR o h l = s.fldR o h l := rfl
@[simp] theorem State.putSec_effF (s : State) (x : Sec) (o h l : Nat) : (s.putSec x).effF o h l = s.effF o h l := rfl
@[simp] theorem State.putSec_devState (s : State) (x : Sec) : (s.putSec x).devState = s.devState := rfl
@[simp] theorem State.putSec_live (s : State) (x : Sec) : (s.putSec x).live = s.live := rfl
@[simp] theorem State.putSec_tickNum (s : State) (x : Sec) : (s.putSec x).tickNum = s.tickNum := rfl
@[simp] theorem State.putSec_ctx (s : State) (x : Sec) (m : Nat) : (s.putSec x).ctx m = s.ctx m := rfl
@[simp] theorem State.putSec_ring (s : State) (x : Sec) (m : Nat) : (s.putSec x).ring m = s.ring m := rfl
@[simp] theorem State.putSec_entry (s : State) (x : Sec) (m : Nat) : (s.putSec x).entry m = s.entry m := rfl
@[simp] theorem State.putSec_byteAt (s : State) (x : Sec) (pa : Nat) : (s.putSec x).byteAt pa = s.byteAt pa := rfl
@[simp] theorem State.putSec_sec (s : State) (x : Sec) : (s.putSec x).sec = x := (rfl)

/-! ### State.putMgt -/

@[simp] theorem State.putMgt_pending (s : State) (x : Mgt) : (s.putMgt x).pending = s.pending := (rfl)
@[simp] theorem State.putMgt_regs (s : State) (x : Mgt) : (s.putMgt x).regs = s.regs := (rfl)
@[simp] theorem State.putMgt_eff (s : State) (x : Mgt) : (s.putMgt x).eff = s.eff := (rfl)
@[simp] theorem State.putMgt_dev (s : State) (x : Mgt) : (s.putMgt x).dev = s.dev := (rfl)
@[simp] theorem State.putMgt_fns (s : State) (x : Mgt) : (s.putMgt x).fns = s.fns := (rfl)
@[simp] theorem State.putMgt_msix (s : State) (x : Mgt) : (s.putMgt x).msix = s.msix := (rfl)
@[simp] theorem State.putMgt_hol (s : State) (x : Mgt) : (s.putMgt x).hol = s.hol := (rfl)
@[simp] theorem State.putMgt_tick (s : State) (x : Mgt) : (s.putMgt x).tick = s.tick := (rfl)
@[simp] theorem State.putMgt_ctxs (s : State) (x : Mgt) : (s.putMgt x).ctxs = s.ctxs := (rfl)
@[simp] theorem State.putMgt_rings (s : State) (x : Mgt) : (s.putMgt x).rings = s.rings := (rfl)
@[simp] theorem State.putMgt_flight (s : State) (x : Mgt) : (s.putMgt x).flight = s.flight := (rfl)
@[simp] theorem State.putMgt_nextId (s : State) (x : Mgt) : (s.putMgt x).nextId = s.nextId := (rfl)
@[simp] theorem State.putMgt_slots (s : State) (x : Mgt) : (s.putMgt x).slots = s.slots := (rfl)
@[simp] theorem State.putMgt_images (s : State) (x : Mgt) : (s.putMgt x).images = s.images := (rfl)
@[simp] theorem State.putMgt_mem (s : State) (x : Mgt) : (s.putMgt x).mem = s.mem := (rfl)
@[simp] theorem State.putMgt_mig (s : State) (x : Mgt) : (s.putMgt x).mig = s.mig := (rfl)
@[simp] theorem State.putMgt_retained (s : State) (x : Mgt) : (s.putMgt x).retained = s.retained := (rfl)
@[simp] theorem State.putMgt_prefetched (s : State) (x : Mgt) : (s.putMgt x).prefetched = s.prefetched := (rfl)
@[simp] theorem State.putMgt_kv (s : State) (x : Mgt) : (s.putMgt x).kv = s.kv := (rfl)
@[simp] theorem State.putMgt_pwr (s : State) (x : Mgt) : (s.putMgt x).pwr = s.pwr := (rfl)
@[simp] theorem State.putMgt_sec (s : State) (x : Mgt) : (s.putMgt x).sec = s.sec := (rfl)
@[simp] theorem State.putMgt_fab (s : State) (x : Mgt) : (s.putMgt x).fab = s.fab := (rfl)
@[simp] theorem State.putMgt_out (s : State) (x : Mgt) : (s.putMgt x).out = s.out := (rfl)
@[simp] theorem State.putMgt_free (s : State) (x : Mgt) : (s.putMgt x).free = s.free := (rfl)
@[simp] theorem State.putMgt_reg (s : State) (x : Mgt) (o : Nat) : (s.putMgt x).reg o = s.reg o := rfl
@[simp] theorem State.putMgt_effReg (s : State) (x : Mgt) (o : Nat) : (s.putMgt x).effReg o = s.effReg o := rfl
@[simp] theorem State.putMgt_fldR (s : State) (x : Mgt) (o h l : Nat) : (s.putMgt x).fldR o h l = s.fldR o h l := rfl
@[simp] theorem State.putMgt_effF (s : State) (x : Mgt) (o h l : Nat) : (s.putMgt x).effF o h l = s.effF o h l := rfl
@[simp] theorem State.putMgt_devState (s : State) (x : Mgt) : (s.putMgt x).devState = s.devState := rfl
@[simp] theorem State.putMgt_live (s : State) (x : Mgt) : (s.putMgt x).live = s.live := rfl
@[simp] theorem State.putMgt_tickNum (s : State) (x : Mgt) : (s.putMgt x).tickNum = s.tickNum := rfl
@[simp] theorem State.putMgt_ctx (s : State) (x : Mgt) (m : Nat) : (s.putMgt x).ctx m = s.ctx m := rfl
@[simp] theorem State.putMgt_ring (s : State) (x : Mgt) (m : Nat) : (s.putMgt x).ring m = s.ring m := rfl
@[simp] theorem State.putMgt_entry (s : State) (x : Mgt) (m : Nat) : (s.putMgt x).entry m = s.entry m := rfl
@[simp] theorem State.putMgt_byteAt (s : State) (x : Mgt) (pa : Nat) : (s.putMgt x).byteAt pa = s.byteAt pa := rfl
@[simp] theorem State.putMgt_mgt (s : State) (x : Mgt) : (s.putMgt x).mgt = x := (rfl)

/-! ### State.putFab -/

@[simp] theorem State.putFab_pending (s : State) (x : Fab) : (s.putFab x).pending = s.pending := (rfl)
@[simp] theorem State.putFab_regs (s : State) (x : Fab) : (s.putFab x).regs = s.regs := (rfl)
@[simp] theorem State.putFab_eff (s : State) (x : Fab) : (s.putFab x).eff = s.eff := (rfl)
@[simp] theorem State.putFab_dev (s : State) (x : Fab) : (s.putFab x).dev = s.dev := (rfl)
@[simp] theorem State.putFab_fns (s : State) (x : Fab) : (s.putFab x).fns = s.fns := (rfl)
@[simp] theorem State.putFab_msix (s : State) (x : Fab) : (s.putFab x).msix = s.msix := (rfl)
@[simp] theorem State.putFab_hol (s : State) (x : Fab) : (s.putFab x).hol = s.hol := (rfl)
@[simp] theorem State.putFab_tick (s : State) (x : Fab) : (s.putFab x).tick = s.tick := (rfl)
@[simp] theorem State.putFab_ctxs (s : State) (x : Fab) : (s.putFab x).ctxs = s.ctxs := (rfl)
@[simp] theorem State.putFab_rings (s : State) (x : Fab) : (s.putFab x).rings = s.rings := (rfl)
@[simp] theorem State.putFab_flight (s : State) (x : Fab) : (s.putFab x).flight = s.flight := (rfl)
@[simp] theorem State.putFab_nextId (s : State) (x : Fab) : (s.putFab x).nextId = s.nextId := (rfl)
@[simp] theorem State.putFab_slots (s : State) (x : Fab) : (s.putFab x).slots = s.slots := (rfl)
@[simp] theorem State.putFab_images (s : State) (x : Fab) : (s.putFab x).images = s.images := (rfl)
@[simp] theorem State.putFab_mem (s : State) (x : Fab) : (s.putFab x).mem = s.mem := (rfl)
@[simp] theorem State.putFab_mig (s : State) (x : Fab) : (s.putFab x).mig = s.mig := (rfl)
@[simp] theorem State.putFab_retained (s : State) (x : Fab) : (s.putFab x).retained = s.retained := (rfl)
@[simp] theorem State.putFab_prefetched (s : State) (x : Fab) : (s.putFab x).prefetched = s.prefetched := (rfl)
@[simp] theorem State.putFab_kv (s : State) (x : Fab) : (s.putFab x).kv = s.kv := (rfl)
@[simp] theorem State.putFab_pwr (s : State) (x : Fab) : (s.putFab x).pwr = s.pwr := (rfl)
@[simp] theorem State.putFab_sec (s : State) (x : Fab) : (s.putFab x).sec = s.sec := (rfl)
@[simp] theorem State.putFab_mgt (s : State) (x : Fab) : (s.putFab x).mgt = s.mgt := (rfl)
@[simp] theorem State.putFab_out (s : State) (x : Fab) : (s.putFab x).out = s.out := (rfl)
@[simp] theorem State.putFab_free (s : State) (x : Fab) : (s.putFab x).free = s.free := (rfl)
@[simp] theorem State.putFab_reg (s : State) (x : Fab) (o : Nat) : (s.putFab x).reg o = s.reg o := rfl
@[simp] theorem State.putFab_effReg (s : State) (x : Fab) (o : Nat) : (s.putFab x).effReg o = s.effReg o := rfl
@[simp] theorem State.putFab_fldR (s : State) (x : Fab) (o h l : Nat) : (s.putFab x).fldR o h l = s.fldR o h l := rfl
@[simp] theorem State.putFab_effF (s : State) (x : Fab) (o h l : Nat) : (s.putFab x).effF o h l = s.effF o h l := rfl
@[simp] theorem State.putFab_devState (s : State) (x : Fab) : (s.putFab x).devState = s.devState := rfl
@[simp] theorem State.putFab_live (s : State) (x : Fab) : (s.putFab x).live = s.live := rfl
@[simp] theorem State.putFab_tickNum (s : State) (x : Fab) : (s.putFab x).tickNum = s.tickNum := rfl
@[simp] theorem State.putFab_ctx (s : State) (x : Fab) (m : Nat) : (s.putFab x).ctx m = s.ctx m := rfl
@[simp] theorem State.putFab_ring (s : State) (x : Fab) (m : Nat) : (s.putFab x).ring m = s.ring m := rfl
@[simp] theorem State.putFab_entry (s : State) (x : Fab) (m : Nat) : (s.putFab x).entry m = s.entry m := rfl
@[simp] theorem State.putFab_byteAt (s : State) (x : Fab) (pa : Nat) : (s.putFab x).byteAt pa = s.byteAt pa := rfl
@[simp] theorem State.putFab_fab (s : State) (x : Fab) : (s.putFab x).fab = x := (rfl)

/-! ### State.putOut -/

@[simp] theorem State.putOut_pending (s : State) (x : Output) : (s.putOut x).pending = s.pending := (rfl)
@[simp] theorem State.putOut_regs (s : State) (x : Output) : (s.putOut x).regs = s.regs := (rfl)
@[simp] theorem State.putOut_eff (s : State) (x : Output) : (s.putOut x).eff = s.eff := (rfl)
@[simp] theorem State.putOut_dev (s : State) (x : Output) : (s.putOut x).dev = s.dev := (rfl)
@[simp] theorem State.putOut_fns (s : State) (x : Output) : (s.putOut x).fns = s.fns := (rfl)
@[simp] theorem State.putOut_msix (s : State) (x : Output) : (s.putOut x).msix = s.msix := (rfl)
@[simp] theorem State.putOut_hol (s : State) (x : Output) : (s.putOut x).hol = s.hol := (rfl)
@[simp] theorem State.putOut_tick (s : State) (x : Output) : (s.putOut x).tick = s.tick := (rfl)
@[simp] theorem State.putOut_ctxs (s : State) (x : Output) : (s.putOut x).ctxs = s.ctxs := (rfl)
@[simp] theorem State.putOut_rings (s : State) (x : Output) : (s.putOut x).rings = s.rings := (rfl)
@[simp] theorem State.putOut_flight (s : State) (x : Output) : (s.putOut x).flight = s.flight := (rfl)
@[simp] theorem State.putOut_nextId (s : State) (x : Output) : (s.putOut x).nextId = s.nextId := (rfl)
@[simp] theorem State.putOut_slots (s : State) (x : Output) : (s.putOut x).slots = s.slots := (rfl)
@[simp] theorem State.putOut_images (s : State) (x : Output) : (s.putOut x).images = s.images := (rfl)
@[simp] theorem State.putOut_mem (s : State) (x : Output) : (s.putOut x).mem = s.mem := (rfl)
@[simp] theorem State.putOut_mig (s : State) (x : Output) : (s.putOut x).mig = s.mig := (rfl)
@[simp] theorem State.putOut_retained (s : State) (x : Output) : (s.putOut x).retained = s.retained := (rfl)
@[simp] theorem State.putOut_prefetched (s : State) (x : Output) : (s.putOut x).prefetched = s.prefetched := (rfl)
@[simp] theorem State.putOut_kv (s : State) (x : Output) : (s.putOut x).kv = s.kv := (rfl)
@[simp] theorem State.putOut_pwr (s : State) (x : Output) : (s.putOut x).pwr = s.pwr := (rfl)
@[simp] theorem State.putOut_sec (s : State) (x : Output) : (s.putOut x).sec = s.sec := (rfl)
@[simp] theorem State.putOut_mgt (s : State) (x : Output) : (s.putOut x).mgt = s.mgt := (rfl)
@[simp] theorem State.putOut_fab (s : State) (x : Output) : (s.putOut x).fab = s.fab := (rfl)
@[simp] theorem State.putOut_free (s : State) (x : Output) : (s.putOut x).free = s.free := (rfl)
@[simp] theorem State.putOut_reg (s : State) (x : Output) (o : Nat) : (s.putOut x).reg o = s.reg o := rfl
@[simp] theorem State.putOut_effReg (s : State) (x : Output) (o : Nat) : (s.putOut x).effReg o = s.effReg o := rfl
@[simp] theorem State.putOut_fldR (s : State) (x : Output) (o h l : Nat) : (s.putOut x).fldR o h l = s.fldR o h l := rfl
@[simp] theorem State.putOut_effF (s : State) (x : Output) (o h l : Nat) : (s.putOut x).effF o h l = s.effF o h l := rfl
@[simp] theorem State.putOut_devState (s : State) (x : Output) : (s.putOut x).devState = s.devState := rfl
@[simp] theorem State.putOut_live (s : State) (x : Output) : (s.putOut x).live = s.live := rfl
@[simp] theorem State.putOut_tickNum (s : State) (x : Output) : (s.putOut x).tickNum = s.tickNum := rfl
@[simp] theorem State.putOut_ctx (s : State) (x : Output) (m : Nat) : (s.putOut x).ctx m = s.ctx m := rfl
@[simp] theorem State.putOut_ring (s : State) (x : Output) (m : Nat) : (s.putOut x).ring m = s.ring m := rfl
@[simp] theorem State.putOut_entry (s : State) (x : Output) (m : Nat) : (s.putOut x).entry m = s.entry m := rfl
@[simp] theorem State.putOut_byteAt (s : State) (x : Output) (pa : Nat) : (s.putOut x).byteAt pa = s.byteAt pa := rfl
@[simp] theorem State.putOut_out (s : State) (x : Output) : (s.putOut x).out = x := (rfl)

/-! ### State.putFree -/

@[simp] theorem State.putFree_pending (s : State) (x : Nat) : (s.putFree x).pending = s.pending := (rfl)
@[simp] theorem State.putFree_regs (s : State) (x : Nat) : (s.putFree x).regs = s.regs := (rfl)
@[simp] theorem State.putFree_eff (s : State) (x : Nat) : (s.putFree x).eff = s.eff := (rfl)
@[simp] theorem State.putFree_dev (s : State) (x : Nat) : (s.putFree x).dev = s.dev := (rfl)
@[simp] theorem State.putFree_fns (s : State) (x : Nat) : (s.putFree x).fns = s.fns := (rfl)
@[simp] theorem State.putFree_msix (s : State) (x : Nat) : (s.putFree x).msix = s.msix := (rfl)
@[simp] theorem State.putFree_hol (s : State) (x : Nat) : (s.putFree x).hol = s.hol := (rfl)
@[simp] theorem State.putFree_tick (s : State) (x : Nat) : (s.putFree x).tick = s.tick := (rfl)
@[simp] theorem State.putFree_ctxs (s : State) (x : Nat) : (s.putFree x).ctxs = s.ctxs := (rfl)
@[simp] theorem State.putFree_rings (s : State) (x : Nat) : (s.putFree x).rings = s.rings := (rfl)
@[simp] theorem State.putFree_flight (s : State) (x : Nat) : (s.putFree x).flight = s.flight := (rfl)
@[simp] theorem State.putFree_nextId (s : State) (x : Nat) : (s.putFree x).nextId = s.nextId := (rfl)
@[simp] theorem State.putFree_slots (s : State) (x : Nat) : (s.putFree x).slots = s.slots := (rfl)
@[simp] theorem State.putFree_images (s : State) (x : Nat) : (s.putFree x).images = s.images := (rfl)
@[simp] theorem State.putFree_mem (s : State) (x : Nat) : (s.putFree x).mem = s.mem := (rfl)
@[simp] theorem State.putFree_mig (s : State) (x : Nat) : (s.putFree x).mig = s.mig := (rfl)
@[simp] theorem State.putFree_retained (s : State) (x : Nat) : (s.putFree x).retained = s.retained := (rfl)
@[simp] theorem State.putFree_prefetched (s : State) (x : Nat) : (s.putFree x).prefetched = s.prefetched := (rfl)
@[simp] theorem State.putFree_kv (s : State) (x : Nat) : (s.putFree x).kv = s.kv := (rfl)
@[simp] theorem State.putFree_pwr (s : State) (x : Nat) : (s.putFree x).pwr = s.pwr := (rfl)
@[simp] theorem State.putFree_sec (s : State) (x : Nat) : (s.putFree x).sec = s.sec := (rfl)
@[simp] theorem State.putFree_mgt (s : State) (x : Nat) : (s.putFree x).mgt = s.mgt := (rfl)
@[simp] theorem State.putFree_fab (s : State) (x : Nat) : (s.putFree x).fab = s.fab := (rfl)
@[simp] theorem State.putFree_out (s : State) (x : Nat) : (s.putFree x).out = s.out := (rfl)
@[simp] theorem State.putFree_reg (s : State) (x : Nat) (o : Nat) : (s.putFree x).reg o = s.reg o := rfl
@[simp] theorem State.putFree_effReg (s : State) (x : Nat) (o : Nat) : (s.putFree x).effReg o = s.effReg o := rfl
@[simp] theorem State.putFree_fldR (s : State) (x : Nat) (o h l : Nat) : (s.putFree x).fldR o h l = s.fldR o h l := rfl
@[simp] theorem State.putFree_effF (s : State) (x : Nat) (o h l : Nat) : (s.putFree x).effF o h l = s.effF o h l := rfl
@[simp] theorem State.putFree_devState (s : State) (x : Nat) : (s.putFree x).devState = s.devState := rfl
@[simp] theorem State.putFree_live (s : State) (x : Nat) : (s.putFree x).live = s.live := rfl
@[simp] theorem State.putFree_tickNum (s : State) (x : Nat) : (s.putFree x).tickNum = s.tickNum := rfl
@[simp] theorem State.putFree_ctx (s : State) (x : Nat) (m : Nat) : (s.putFree x).ctx m = s.ctx m := rfl
@[simp] theorem State.putFree_ring (s : State) (x : Nat) (m : Nat) : (s.putFree x).ring m = s.ring m := rfl
@[simp] theorem State.putFree_entry (s : State) (x : Nat) (m : Nat) : (s.putFree x).entry m = s.entry m := rfl
@[simp] theorem State.putFree_byteAt (s : State) (x : Nat) (pa : Nat) : (s.putFree x).byteAt pa = s.byteAt pa := rfl
@[simp] theorem State.putFree_free (s : State) (x : Nat) : (s.putFree x).free = x := (rfl)

/-! ### State.setReg -/

@[simp] theorem State.setReg_pending (s : State) (off : Nat) (w : Word) : (s.setReg off w).pending = s.pending := (rfl)
@[simp] theorem State.setReg_eff (s : State) (off : Nat) (w : Word) : (s.setReg off w).eff = s.eff := (rfl)
@[simp] theorem State.setReg_dev (s : State) (off : Nat) (w : Word) : (s.setReg off w).dev = s.dev := (rfl)
@[simp] theorem State.setReg_fns (s : State) (off : Nat) (w : Word) : (s.setReg off w).fns = s.fns := (rfl)
@[simp] theorem State.setReg_msix (s : State) (off : Nat) (w : Word) : (s.setReg off w).msix = s.msix := (rfl)
@[simp] theorem State.setReg_hol (s : State) (off : Nat) (w : Word) : (s.setReg off w).hol = s.hol := (rfl)
@[simp] theorem State.setReg_tick (s : State) (off : Nat) (w : Word) : (s.setReg off w).tick = s.tick := (rfl)
@[simp] theorem State.setReg_ctxs (s : State) (off : Nat) (w : Word) : (s.setReg off w).ctxs = s.ctxs := (rfl)
@[simp] theorem State.setReg_rings (s : State) (off : Nat) (w : Word) : (s.setReg off w).rings = s.rings := (rfl)
@[simp] theorem State.setReg_flight (s : State) (off : Nat) (w : Word) : (s.setReg off w).flight = s.flight := (rfl)
@[simp] theorem State.setReg_nextId (s : State) (off : Nat) (w : Word) : (s.setReg off w).nextId = s.nextId := (rfl)
@[simp] theorem State.setReg_slots (s : State) (off : Nat) (w : Word) : (s.setReg off w).slots = s.slots := (rfl)
@[simp] theorem State.setReg_images (s : State) (off : Nat) (w : Word) : (s.setReg off w).images = s.images := (rfl)
@[simp] theorem State.setReg_mem (s : State) (off : Nat) (w : Word) : (s.setReg off w).mem = s.mem := (rfl)
@[simp] theorem State.setReg_mig (s : State) (off : Nat) (w : Word) : (s.setReg off w).mig = s.mig := (rfl)
@[simp] theorem State.setReg_retained (s : State) (off : Nat) (w : Word) : (s.setReg off w).retained = s.retained := (rfl)
@[simp] theorem State.setReg_prefetched (s : State) (off : Nat) (w : Word) : (s.setReg off w).prefetched = s.prefetched := (rfl)
@[simp] theorem State.setReg_kv (s : State) (off : Nat) (w : Word) : (s.setReg off w).kv = s.kv := (rfl)
@[simp] theorem State.setReg_pwr (s : State) (off : Nat) (w : Word) : (s.setReg off w).pwr = s.pwr := (rfl)
@[simp] theorem State.setReg_sec (s : State) (off : Nat) (w : Word) : (s.setReg off w).sec = s.sec := (rfl)
@[simp] theorem State.setReg_mgt (s : State) (off : Nat) (w : Word) : (s.setReg off w).mgt = s.mgt := (rfl)
@[simp] theorem State.setReg_fab (s : State) (off : Nat) (w : Word) : (s.setReg off w).fab = s.fab := (rfl)
@[simp] theorem State.setReg_out (s : State) (off : Nat) (w : Word) : (s.setReg off w).out = s.out := (rfl)
@[simp] theorem State.setReg_free (s : State) (off : Nat) (w : Word) : (s.setReg off w).free = s.free := (rfl)
@[simp] theorem State.setReg_effReg (s : State) (off : Nat) (w : Word) (o : Nat) : (s.setReg off w).effReg o = s.effReg o := rfl
@[simp] theorem State.setReg_effF (s : State) (off : Nat) (w : Word) (o h l : Nat) : (s.setReg off w).effF o h l = s.effF o h l := rfl
@[simp] theorem State.setReg_ctx (s : State) (off : Nat) (w : Word) (m : Nat) : (s.setReg off w).ctx m = s.ctx m := rfl
@[simp] theorem State.setReg_ring (s : State) (off : Nat) (w : Word) (m : Nat) : (s.setReg off w).ring m = s.ring m := rfl
@[simp] theorem State.setReg_entry (s : State) (off : Nat) (w : Word) (m : Nat) : (s.setReg off w).entry m = s.entry m := rfl
@[simp] theorem State.setReg_byteAt (s : State) (off : Nat) (w : Word) (pa : Nat) : (s.setReg off w).byteAt pa = s.byteAt pa := rfl

/-! ### State.setF -/

@[simp] theorem State.setF_pending (s : State) (off hi lo v : Nat) : (s.setF off hi lo v).pending = s.pending := (rfl)
@[simp] theorem State.setF_eff (s : State) (off hi lo v : Nat) : (s.setF off hi lo v).eff = s.eff := (rfl)
@[simp] theorem State.setF_dev (s : State) (off hi lo v : Nat) : (s.setF off hi lo v).dev = s.dev := (rfl)
@[simp] theorem State.setF_fns (s : State) (off hi lo v : Nat) : (s.setF off hi lo v).fns = s.fns := (rfl)
@[simp] theorem State.setF_msix (s : State) (off hi lo v : Nat) : (s.setF off hi lo v).msix = s.msix := (rfl)
@[simp] theorem State.setF_hol (s : State) (off hi lo v : Nat) : (s.setF off hi lo v).hol = s.hol := (rfl)
@[simp] theorem State.setF_tick (s : State) (off hi lo v : Nat) : (s.setF off hi lo v).tick = s.tick := (rfl)
@[simp] theorem State.setF_ctxs (s : State) (off hi lo v : Nat) : (s.setF off hi lo v).ctxs = s.ctxs := (rfl)
@[simp] theorem State.setF_rings (s : State) (off hi lo v : Nat) : (s.setF off hi lo v).rings = s.rings := (rfl)
@[simp] theorem State.setF_flight (s : State) (off hi lo v : Nat) : (s.setF off hi lo v).flight = s.flight := (rfl)
@[simp] theorem State.setF_nextId (s : State) (off hi lo v : Nat) : (s.setF off hi lo v).nextId = s.nextId := (rfl)
@[simp] theorem State.setF_slots (s : State) (off hi lo v : Nat) : (s.setF off hi lo v).slots = s.slots := (rfl)
@[simp] theorem State.setF_images (s : State) (off hi lo v : Nat) : (s.setF off hi lo v).images = s.images := (rfl)
@[simp] theorem State.setF_mem (s : State) (off hi lo v : Nat) : (s.setF off hi lo v).mem = s.mem := (rfl)
@[simp] theorem State.setF_mig (s : State) (off hi lo v : Nat) : (s.setF off hi lo v).mig = s.mig := (rfl)
@[simp] theorem State.setF_retained (s : State) (off hi lo v : Nat) : (s.setF off hi lo v).retained = s.retained := (rfl)
@[simp] theorem State.setF_prefetched (s : State) (off hi lo v : Nat) : (s.setF off hi lo v).prefetched = s.prefetched := (rfl)
@[simp] theorem State.setF_kv (s : State) (off hi lo v : Nat) : (s.setF off hi lo v).kv = s.kv := (rfl)
@[simp] theorem State.setF_pwr (s : State) (off hi lo v : Nat) : (s.setF off hi lo v).pwr = s.pwr := (rfl)
@[simp] theorem State.setF_sec (s : State) (off hi lo v : Nat) : (s.setF off hi lo v).sec = s.sec := (rfl)
@[simp] theorem State.setF_mgt (s : State) (off hi lo v : Nat) : (s.setF off hi lo v).mgt = s.mgt := (rfl)
@[simp] theorem State.setF_fab (s : State) (off hi lo v : Nat) : (s.setF off hi lo v).fab = s.fab := (rfl)
@[simp] theorem State.setF_out (s : State) (off hi lo v : Nat) : (s.setF off hi lo v).out = s.out := (rfl)
@[simp] theorem State.setF_free (s : State) (off hi lo v : Nat) : (s.setF off hi lo v).free = s.free := (rfl)
@[simp] theorem State.setF_effReg (s : State) (off hi lo v : Nat) (o : Nat) : (s.setF off hi lo v).effReg o = s.effReg o := rfl
@[simp] theorem State.setF_effF (s : State) (off hi lo v : Nat) (o h l : Nat) : (s.setF off hi lo v).effF o h l = s.effF o h l := rfl
@[simp] theorem State.setF_ctx (s : State) (off hi lo v : Nat) (m : Nat) : (s.setF off hi lo v).ctx m = s.ctx m := rfl
@[simp] theorem State.setF_ring (s : State) (off hi lo v : Nat) (m : Nat) : (s.setF off hi lo v).ring m = s.ring m := rfl
@[simp] theorem State.setF_entry (s : State) (off hi lo v : Nat) (m : Nat) : (s.setF off hi lo v).entry m = s.entry m := rfl
@[simp] theorem State.setF_byteAt (s : State) (off hi lo v : Nat) (pa : Nat) : (s.setF off hi lo v).byteAt pa = s.byteAt pa := rfl

/-! ### State.addF -/

@[simp] theorem State.addF_pending (s : State) (off hi lo v : Nat) : (s.addF off hi lo v).pending = s.pending := (rfl)
@[simp] theorem State.addF_eff (s : State) (off hi lo v : Nat) : (s.addF off hi lo v).eff = s.eff := (rfl)
@[simp] theorem State.addF_dev (s : State) (off hi lo v : Nat) : (s.addF off hi lo v).dev = s.dev := (rfl)
@[simp] theorem State.addF_fns (s : State) (off hi lo v : Nat) : (s.addF off hi lo v).fns = s.fns := (rfl)
@[simp] theorem State.addF_msix (s : State) (off hi lo v : Nat) : (s.addF off hi lo v).msix = s.msix := (rfl)
@[simp] theorem State.addF_hol (s : State) (off hi lo v : Nat) : (s.addF off hi lo v).hol = s.hol := (rfl)
@[simp] theorem State.addF_tick (s : State) (off hi lo v : Nat) : (s.addF off hi lo v).tick = s.tick := (rfl)
@[simp] theorem State.addF_ctxs (s : State) (off hi lo v : Nat) : (s.addF off hi lo v).ctxs = s.ctxs := (rfl)
@[simp] theorem State.addF_rings (s : State) (off hi lo v : Nat) : (s.addF off hi lo v).rings = s.rings := (rfl)
@[simp] theorem State.addF_flight (s : State) (off hi lo v : Nat) : (s.addF off hi lo v).flight = s.flight := (rfl)
@[simp] theorem State.addF_nextId (s : State) (off hi lo v : Nat) : (s.addF off hi lo v).nextId = s.nextId := (rfl)
@[simp] theorem State.addF_slots (s : State) (off hi lo v : Nat) : (s.addF off hi lo v).slots = s.slots := (rfl)
@[simp] theorem State.addF_images (s : State) (off hi lo v : Nat) : (s.addF off hi lo v).images = s.images := (rfl)
@[simp] theorem State.addF_mem (s : State) (off hi lo v : Nat) : (s.addF off hi lo v).mem = s.mem := (rfl)
@[simp] theorem State.addF_mig (s : State) (off hi lo v : Nat) : (s.addF off hi lo v).mig = s.mig := (rfl)
@[simp] theorem State.addF_retained (s : State) (off hi lo v : Nat) : (s.addF off hi lo v).retained = s.retained := (rfl)
@[simp] theorem State.addF_prefetched (s : State) (off hi lo v : Nat) : (s.addF off hi lo v).prefetched = s.prefetched := (rfl)
@[simp] theorem State.addF_kv (s : State) (off hi lo v : Nat) : (s.addF off hi lo v).kv = s.kv := (rfl)
@[simp] theorem State.addF_pwr (s : State) (off hi lo v : Nat) : (s.addF off hi lo v).pwr = s.pwr := (rfl)
@[simp] theorem State.addF_sec (s : State) (off hi lo v : Nat) : (s.addF off hi lo v).sec = s.sec := (rfl)
@[simp] theorem State.addF_mgt (s : State) (off hi lo v : Nat) : (s.addF off hi lo v).mgt = s.mgt := (rfl)
@[simp] theorem State.addF_fab (s : State) (off hi lo v : Nat) : (s.addF off hi lo v).fab = s.fab := (rfl)
@[simp] theorem State.addF_out (s : State) (off hi lo v : Nat) : (s.addF off hi lo v).out = s.out := (rfl)
@[simp] theorem State.addF_free (s : State) (off hi lo v : Nat) : (s.addF off hi lo v).free = s.free := (rfl)
@[simp] theorem State.addF_effReg (s : State) (off hi lo v : Nat) (o : Nat) : (s.addF off hi lo v).effReg o = s.effReg o := rfl
@[simp] theorem State.addF_effF (s : State) (off hi lo v : Nat) (o h l : Nat) : (s.addF off hi lo v).effF o h l = s.effF o h l := rfl
@[simp] theorem State.addF_ctx (s : State) (off hi lo v : Nat) (m : Nat) : (s.addF off hi lo v).ctx m = s.ctx m := rfl
@[simp] theorem State.addF_ring (s : State) (off hi lo v : Nat) (m : Nat) : (s.addF off hi lo v).ring m = s.ring m := rfl
@[simp] theorem State.addF_entry (s : State) (off hi lo v : Nat) (m : Nat) : (s.addF off hi lo v).entry m = s.entry m := rfl
@[simp] theorem State.addF_byteAt (s : State) (off hi lo v : Nat) (pa : Nat) : (s.addF off hi lo v).byteAt pa = s.byteAt pa := rfl

/-! ### State.satF -/

@[simp] theorem State.satF_pending (s : State) (off hi lo v : Nat) : (s.satF off hi lo v).pending = s.pending := (rfl)
@[simp] theorem State.satF_eff (s : State) (off hi lo v : Nat) : (s.satF off hi lo v).eff = s.eff := (rfl)
@[simp] theorem State.satF_dev (s : State) (off hi lo v : Nat) : (s.satF off hi lo v).dev = s.dev := (rfl)
@[simp] theorem State.satF_fns (s : State) (off hi lo v : Nat) : (s.satF off hi lo v).fns = s.fns := (rfl)
@[simp] theorem State.satF_msix (s : State) (off hi lo v : Nat) : (s.satF off hi lo v).msix = s.msix := (rfl)
@[simp] theorem State.satF_hol (s : State) (off hi lo v : Nat) : (s.satF off hi lo v).hol = s.hol := (rfl)
@[simp] theorem State.satF_tick (s : State) (off hi lo v : Nat) : (s.satF off hi lo v).tick = s.tick := (rfl)
@[simp] theorem State.satF_ctxs (s : State) (off hi lo v : Nat) : (s.satF off hi lo v).ctxs = s.ctxs := (rfl)
@[simp] theorem State.satF_rings (s : State) (off hi lo v : Nat) : (s.satF off hi lo v).rings = s.rings := (rfl)
@[simp] theorem State.satF_flight (s : State) (off hi lo v : Nat) : (s.satF off hi lo v).flight = s.flight := (rfl)
@[simp] theorem State.satF_nextId (s : State) (off hi lo v : Nat) : (s.satF off hi lo v).nextId = s.nextId := (rfl)
@[simp] theorem State.satF_slots (s : State) (off hi lo v : Nat) : (s.satF off hi lo v).slots = s.slots := (rfl)
@[simp] theorem State.satF_images (s : State) (off hi lo v : Nat) : (s.satF off hi lo v).images = s.images := (rfl)
@[simp] theorem State.satF_mem (s : State) (off hi lo v : Nat) : (s.satF off hi lo v).mem = s.mem := (rfl)
@[simp] theorem State.satF_mig (s : State) (off hi lo v : Nat) : (s.satF off hi lo v).mig = s.mig := (rfl)
@[simp] theorem State.satF_retained (s : State) (off hi lo v : Nat) : (s.satF off hi lo v).retained = s.retained := (rfl)
@[simp] theorem State.satF_prefetched (s : State) (off hi lo v : Nat) : (s.satF off hi lo v).prefetched = s.prefetched := (rfl)
@[simp] theorem State.satF_kv (s : State) (off hi lo v : Nat) : (s.satF off hi lo v).kv = s.kv := (rfl)
@[simp] theorem State.satF_pwr (s : State) (off hi lo v : Nat) : (s.satF off hi lo v).pwr = s.pwr := (rfl)
@[simp] theorem State.satF_sec (s : State) (off hi lo v : Nat) : (s.satF off hi lo v).sec = s.sec := (rfl)
@[simp] theorem State.satF_mgt (s : State) (off hi lo v : Nat) : (s.satF off hi lo v).mgt = s.mgt := (rfl)
@[simp] theorem State.satF_fab (s : State) (off hi lo v : Nat) : (s.satF off hi lo v).fab = s.fab := (rfl)
@[simp] theorem State.satF_out (s : State) (off hi lo v : Nat) : (s.satF off hi lo v).out = s.out := (rfl)
@[simp] theorem State.satF_free (s : State) (off hi lo v : Nat) : (s.satF off hi lo v).free = s.free := (rfl)
@[simp] theorem State.satF_effReg (s : State) (off hi lo v : Nat) (o : Nat) : (s.satF off hi lo v).effReg o = s.effReg o := rfl
@[simp] theorem State.satF_effF (s : State) (off hi lo v : Nat) (o h l : Nat) : (s.satF off hi lo v).effF o h l = s.effF o h l := rfl
@[simp] theorem State.satF_ctx (s : State) (off hi lo v : Nat) (m : Nat) : (s.satF off hi lo v).ctx m = s.ctx m := rfl
@[simp] theorem State.satF_ring (s : State) (off hi lo v : Nat) (m : Nat) : (s.satF off hi lo v).ring m = s.ring m := rfl
@[simp] theorem State.satF_entry (s : State) (off hi lo v : Nat) (m : Nat) : (s.satF off hi lo v).entry m = s.entry m := rfl
@[simp] theorem State.satF_byteAt (s : State) (off hi lo v : Nat) (pa : Nat) : (s.satF off hi lo v).byteAt pa = s.byteAt pa := rfl

/-! ### State.maxF -/

@[simp] theorem State.maxF_pending (s : State) (off hi lo v : Nat) : (s.maxF off hi lo v).pending = s.pending := (rfl)
@[simp] theorem State.maxF_eff (s : State) (off hi lo v : Nat) : (s.maxF off hi lo v).eff = s.eff := (rfl)
@[simp] theorem State.maxF_dev (s : State) (off hi lo v : Nat) : (s.maxF off hi lo v).dev = s.dev := (rfl)
@[simp] theorem State.maxF_fns (s : State) (off hi lo v : Nat) : (s.maxF off hi lo v).fns = s.fns := (rfl)
@[simp] theorem State.maxF_msix (s : State) (off hi lo v : Nat) : (s.maxF off hi lo v).msix = s.msix := (rfl)
@[simp] theorem State.maxF_hol (s : State) (off hi lo v : Nat) : (s.maxF off hi lo v).hol = s.hol := (rfl)
@[simp] theorem State.maxF_tick (s : State) (off hi lo v : Nat) : (s.maxF off hi lo v).tick = s.tick := (rfl)
@[simp] theorem State.maxF_ctxs (s : State) (off hi lo v : Nat) : (s.maxF off hi lo v).ctxs = s.ctxs := (rfl)
@[simp] theorem State.maxF_rings (s : State) (off hi lo v : Nat) : (s.maxF off hi lo v).rings = s.rings := (rfl)
@[simp] theorem State.maxF_flight (s : State) (off hi lo v : Nat) : (s.maxF off hi lo v).flight = s.flight := (rfl)
@[simp] theorem State.maxF_nextId (s : State) (off hi lo v : Nat) : (s.maxF off hi lo v).nextId = s.nextId := (rfl)
@[simp] theorem State.maxF_slots (s : State) (off hi lo v : Nat) : (s.maxF off hi lo v).slots = s.slots := (rfl)
@[simp] theorem State.maxF_images (s : State) (off hi lo v : Nat) : (s.maxF off hi lo v).images = s.images := (rfl)
@[simp] theorem State.maxF_mem (s : State) (off hi lo v : Nat) : (s.maxF off hi lo v).mem = s.mem := (rfl)
@[simp] theorem State.maxF_mig (s : State) (off hi lo v : Nat) : (s.maxF off hi lo v).mig = s.mig := (rfl)
@[simp] theorem State.maxF_retained (s : State) (off hi lo v : Nat) : (s.maxF off hi lo v).retained = s.retained := (rfl)
@[simp] theorem State.maxF_prefetched (s : State) (off hi lo v : Nat) : (s.maxF off hi lo v).prefetched = s.prefetched := (rfl)
@[simp] theorem State.maxF_kv (s : State) (off hi lo v : Nat) : (s.maxF off hi lo v).kv = s.kv := (rfl)
@[simp] theorem State.maxF_pwr (s : State) (off hi lo v : Nat) : (s.maxF off hi lo v).pwr = s.pwr := (rfl)
@[simp] theorem State.maxF_sec (s : State) (off hi lo v : Nat) : (s.maxF off hi lo v).sec = s.sec := (rfl)
@[simp] theorem State.maxF_mgt (s : State) (off hi lo v : Nat) : (s.maxF off hi lo v).mgt = s.mgt := (rfl)
@[simp] theorem State.maxF_fab (s : State) (off hi lo v : Nat) : (s.maxF off hi lo v).fab = s.fab := (rfl)
@[simp] theorem State.maxF_out (s : State) (off hi lo v : Nat) : (s.maxF off hi lo v).out = s.out := (rfl)
@[simp] theorem State.maxF_free (s : State) (off hi lo v : Nat) : (s.maxF off hi lo v).free = s.free := (rfl)
@[simp] theorem State.maxF_effReg (s : State) (off hi lo v : Nat) (o : Nat) : (s.maxF off hi lo v).effReg o = s.effReg o := rfl
@[simp] theorem State.maxF_effF (s : State) (off hi lo v : Nat) (o h l : Nat) : (s.maxF off hi lo v).effF o h l = s.effF o h l := rfl
@[simp] theorem State.maxF_ctx (s : State) (off hi lo v : Nat) (m : Nat) : (s.maxF off hi lo v).ctx m = s.ctx m := rfl
@[simp] theorem State.maxF_ring (s : State) (off hi lo v : Nat) (m : Nat) : (s.maxF off hi lo v).ring m = s.ring m := rfl
@[simp] theorem State.maxF_entry (s : State) (off hi lo v : Nat) (m : Nat) : (s.maxF off hi lo v).entry m = s.entry m := rfl
@[simp] theorem State.maxF_byteAt (s : State) (off hi lo v : Nat) (pa : Nat) : (s.maxF off hi lo v).byteAt pa = s.byteAt pa := rfl

/-! ### State.setEff -/

@[simp] theorem State.setEff_pending (s : State) (off : Nat) (w : Word) : (s.setEff off w).pending = s.pending := (rfl)
@[simp] theorem State.setEff_regs (s : State) (off : Nat) (w : Word) : (s.setEff off w).regs = s.regs := (rfl)
@[simp] theorem State.setEff_dev (s : State) (off : Nat) (w : Word) : (s.setEff off w).dev = s.dev := (rfl)
@[simp] theorem State.setEff_fns (s : State) (off : Nat) (w : Word) : (s.setEff off w).fns = s.fns := (rfl)
@[simp] theorem State.setEff_msix (s : State) (off : Nat) (w : Word) : (s.setEff off w).msix = s.msix := (rfl)
@[simp] theorem State.setEff_hol (s : State) (off : Nat) (w : Word) : (s.setEff off w).hol = s.hol := (rfl)
@[simp] theorem State.setEff_tick (s : State) (off : Nat) (w : Word) : (s.setEff off w).tick = s.tick := (rfl)
@[simp] theorem State.setEff_ctxs (s : State) (off : Nat) (w : Word) : (s.setEff off w).ctxs = s.ctxs := (rfl)
@[simp] theorem State.setEff_rings (s : State) (off : Nat) (w : Word) : (s.setEff off w).rings = s.rings := (rfl)
@[simp] theorem State.setEff_flight (s : State) (off : Nat) (w : Word) : (s.setEff off w).flight = s.flight := (rfl)
@[simp] theorem State.setEff_nextId (s : State) (off : Nat) (w : Word) : (s.setEff off w).nextId = s.nextId := (rfl)
@[simp] theorem State.setEff_slots (s : State) (off : Nat) (w : Word) : (s.setEff off w).slots = s.slots := (rfl)
@[simp] theorem State.setEff_images (s : State) (off : Nat) (w : Word) : (s.setEff off w).images = s.images := (rfl)
@[simp] theorem State.setEff_mem (s : State) (off : Nat) (w : Word) : (s.setEff off w).mem = s.mem := (rfl)
@[simp] theorem State.setEff_mig (s : State) (off : Nat) (w : Word) : (s.setEff off w).mig = s.mig := (rfl)
@[simp] theorem State.setEff_retained (s : State) (off : Nat) (w : Word) : (s.setEff off w).retained = s.retained := (rfl)
@[simp] theorem State.setEff_prefetched (s : State) (off : Nat) (w : Word) : (s.setEff off w).prefetched = s.prefetched := (rfl)
@[simp] theorem State.setEff_kv (s : State) (off : Nat) (w : Word) : (s.setEff off w).kv = s.kv := (rfl)
@[simp] theorem State.setEff_pwr (s : State) (off : Nat) (w : Word) : (s.setEff off w).pwr = s.pwr := (rfl)
@[simp] theorem State.setEff_sec (s : State) (off : Nat) (w : Word) : (s.setEff off w).sec = s.sec := (rfl)
@[simp] theorem State.setEff_mgt (s : State) (off : Nat) (w : Word) : (s.setEff off w).mgt = s.mgt := (rfl)
@[simp] theorem State.setEff_fab (s : State) (off : Nat) (w : Word) : (s.setEff off w).fab = s.fab := (rfl)
@[simp] theorem State.setEff_out (s : State) (off : Nat) (w : Word) : (s.setEff off w).out = s.out := (rfl)
@[simp] theorem State.setEff_free (s : State) (off : Nat) (w : Word) : (s.setEff off w).free = s.free := (rfl)
@[simp] theorem State.setEff_reg (s : State) (off : Nat) (w : Word) (o : Nat) : (s.setEff off w).reg o = s.reg o := rfl
@[simp] theorem State.setEff_fldR (s : State) (off : Nat) (w : Word) (o h l : Nat) : (s.setEff off w).fldR o h l = s.fldR o h l := rfl
@[simp] theorem State.setEff_devState (s : State) (off : Nat) (w : Word) : (s.setEff off w).devState = s.devState := rfl
@[simp] theorem State.setEff_live (s : State) (off : Nat) (w : Word) : (s.setEff off w).live = s.live := rfl
@[simp] theorem State.setEff_tickNum (s : State) (off : Nat) (w : Word) : (s.setEff off w).tickNum = s.tickNum := rfl
@[simp] theorem State.setEff_ctx (s : State) (off : Nat) (w : Word) (m : Nat) : (s.setEff off w).ctx m = s.ctx m := rfl
@[simp] theorem State.setEff_ring (s : State) (off : Nat) (w : Word) (m : Nat) : (s.setEff off w).ring m = s.ring m := rfl
@[simp] theorem State.setEff_entry (s : State) (off : Nat) (w : Word) (m : Nat) : (s.setEff off w).entry m = s.entry m := rfl
@[simp] theorem State.setEff_byteAt (s : State) (off : Nat) (w : Word) (pa : Nat) : (s.setEff off w).byteAt pa = s.byteAt pa := rfl

/-! ### State.setBoth -/

@[simp] theorem State.setBoth_pending (s : State) (off : Nat) (w : Word) : (s.setBoth off w).pending = s.pending := (rfl)
@[simp] theorem State.setBoth_dev (s : State) (off : Nat) (w : Word) : (s.setBoth off w).dev = s.dev := (rfl)
@[simp] theorem State.setBoth_fns (s : State) (off : Nat) (w : Word) : (s.setBoth off w).fns = s.fns := (rfl)
@[simp] theorem State.setBoth_msix (s : State) (off : Nat) (w : Word) : (s.setBoth off w).msix = s.msix := (rfl)
@[simp] theorem State.setBoth_hol (s : State) (off : Nat) (w : Word) : (s.setBoth off w).hol = s.hol := (rfl)
@[simp] theorem State.setBoth_tick (s : State) (off : Nat) (w : Word) : (s.setBoth off w).tick = s.tick := (rfl)
@[simp] theorem State.setBoth_ctxs (s : State) (off : Nat) (w : Word) : (s.setBoth off w).ctxs = s.ctxs := (rfl)
@[simp] theorem State.setBoth_rings (s : State) (off : Nat) (w : Word) : (s.setBoth off w).rings = s.rings := (rfl)
@[simp] theorem State.setBoth_flight (s : State) (off : Nat) (w : Word) : (s.setBoth off w).flight = s.flight := (rfl)
@[simp] theorem State.setBoth_nextId (s : State) (off : Nat) (w : Word) : (s.setBoth off w).nextId = s.nextId := (rfl)
@[simp] theorem State.setBoth_slots (s : State) (off : Nat) (w : Word) : (s.setBoth off w).slots = s.slots := (rfl)
@[simp] theorem State.setBoth_images (s : State) (off : Nat) (w : Word) : (s.setBoth off w).images = s.images := (rfl)
@[simp] theorem State.setBoth_mem (s : State) (off : Nat) (w : Word) : (s.setBoth off w).mem = s.mem := (rfl)
@[simp] theorem State.setBoth_mig (s : State) (off : Nat) (w : Word) : (s.setBoth off w).mig = s.mig := (rfl)
@[simp] theorem State.setBoth_retained (s : State) (off : Nat) (w : Word) : (s.setBoth off w).retained = s.retained := (rfl)
@[simp] theorem State.setBoth_prefetched (s : State) (off : Nat) (w : Word) : (s.setBoth off w).prefetched = s.prefetched := (rfl)
@[simp] theorem State.setBoth_kv (s : State) (off : Nat) (w : Word) : (s.setBoth off w).kv = s.kv := (rfl)
@[simp] theorem State.setBoth_pwr (s : State) (off : Nat) (w : Word) : (s.setBoth off w).pwr = s.pwr := (rfl)
@[simp] theorem State.setBoth_sec (s : State) (off : Nat) (w : Word) : (s.setBoth off w).sec = s.sec := (rfl)
@[simp] theorem State.setBoth_mgt (s : State) (off : Nat) (w : Word) : (s.setBoth off w).mgt = s.mgt := (rfl)
@[simp] theorem State.setBoth_fab (s : State) (off : Nat) (w : Word) : (s.setBoth off w).fab = s.fab := (rfl)
@[simp] theorem State.setBoth_out (s : State) (off : Nat) (w : Word) : (s.setBoth off w).out = s.out := (rfl)
@[simp] theorem State.setBoth_free (s : State) (off : Nat) (w : Word) : (s.setBoth off w).free = s.free := (rfl)
@[simp] theorem State.setBoth_ctx (s : State) (off : Nat) (w : Word) (m : Nat) : (s.setBoth off w).ctx m = s.ctx m := rfl
@[simp] theorem State.setBoth_ring (s : State) (off : Nat) (w : Word) (m : Nat) : (s.setBoth off w).ring m = s.ring m := rfl
@[simp] theorem State.setBoth_entry (s : State) (off : Nat) (w : Word) (m : Nat) : (s.setBoth off w).entry m = s.entry m := rfl
@[simp] theorem State.setBoth_byteAt (s : State) (off : Nat) (w : Word) (pa : Nat) : (s.setBoth off w).byteAt pa = s.byteAt pa := rfl

/-! ### State.setMsix -/

@[simp] theorem State.setMsix_pending (s : State) (fn v : Nat) (e : MsixEntry) : (s.setMsix fn v e).pending = s.pending := (rfl)
@[simp] theorem State.setMsix_regs (s : State) (fn v : Nat) (e : MsixEntry) : (s.setMsix fn v e).regs = s.regs := (rfl)
@[simp] theorem State.setMsix_eff (s : State) (fn v : Nat) (e : MsixEntry) : (s.setMsix fn v e).eff = s.eff := (rfl)
@[simp] theorem State.setMsix_dev (s : State) (fn v : Nat) (e : MsixEntry) : (s.setMsix fn v e).dev = s.dev := (rfl)
@[simp] theorem State.setMsix_fns (s : State) (fn v : Nat) (e : MsixEntry) : (s.setMsix fn v e).fns = s.fns := (rfl)
@[simp] theorem State.setMsix_hol (s : State) (fn v : Nat) (e : MsixEntry) : (s.setMsix fn v e).hol = s.hol := (rfl)
@[simp] theorem State.setMsix_tick (s : State) (fn v : Nat) (e : MsixEntry) : (s.setMsix fn v e).tick = s.tick := (rfl)
@[simp] theorem State.setMsix_ctxs (s : State) (fn v : Nat) (e : MsixEntry) : (s.setMsix fn v e).ctxs = s.ctxs := (rfl)
@[simp] theorem State.setMsix_rings (s : State) (fn v : Nat) (e : MsixEntry) : (s.setMsix fn v e).rings = s.rings := (rfl)
@[simp] theorem State.setMsix_flight (s : State) (fn v : Nat) (e : MsixEntry) : (s.setMsix fn v e).flight = s.flight := (rfl)
@[simp] theorem State.setMsix_nextId (s : State) (fn v : Nat) (e : MsixEntry) : (s.setMsix fn v e).nextId = s.nextId := (rfl)
@[simp] theorem State.setMsix_slots (s : State) (fn v : Nat) (e : MsixEntry) : (s.setMsix fn v e).slots = s.slots := (rfl)
@[simp] theorem State.setMsix_images (s : State) (fn v : Nat) (e : MsixEntry) : (s.setMsix fn v e).images = s.images := (rfl)
@[simp] theorem State.setMsix_mem (s : State) (fn v : Nat) (e : MsixEntry) : (s.setMsix fn v e).mem = s.mem := (rfl)
@[simp] theorem State.setMsix_mig (s : State) (fn v : Nat) (e : MsixEntry) : (s.setMsix fn v e).mig = s.mig := (rfl)
@[simp] theorem State.setMsix_retained (s : State) (fn v : Nat) (e : MsixEntry) : (s.setMsix fn v e).retained = s.retained := (rfl)
@[simp] theorem State.setMsix_prefetched (s : State) (fn v : Nat) (e : MsixEntry) : (s.setMsix fn v e).prefetched = s.prefetched := (rfl)
@[simp] theorem State.setMsix_kv (s : State) (fn v : Nat) (e : MsixEntry) : (s.setMsix fn v e).kv = s.kv := (rfl)
@[simp] theorem State.setMsix_pwr (s : State) (fn v : Nat) (e : MsixEntry) : (s.setMsix fn v e).pwr = s.pwr := (rfl)
@[simp] theorem State.setMsix_sec (s : State) (fn v : Nat) (e : MsixEntry) : (s.setMsix fn v e).sec = s.sec := (rfl)
@[simp] theorem State.setMsix_mgt (s : State) (fn v : Nat) (e : MsixEntry) : (s.setMsix fn v e).mgt = s.mgt := (rfl)
@[simp] theorem State.setMsix_fab (s : State) (fn v : Nat) (e : MsixEntry) : (s.setMsix fn v e).fab = s.fab := (rfl)
@[simp] theorem State.setMsix_out (s : State) (fn v : Nat) (e : MsixEntry) : (s.setMsix fn v e).out = s.out := (rfl)
@[simp] theorem State.setMsix_free (s : State) (fn v : Nat) (e : MsixEntry) : (s.setMsix fn v e).free = s.free := (rfl)
@[simp] theorem State.setMsix_reg (s : State) (fn v : Nat) (e : MsixEntry) (o : Nat) : (s.setMsix fn v e).reg o = s.reg o := rfl
@[simp] theorem State.setMsix_effReg (s : State) (fn v : Nat) (e : MsixEntry) (o : Nat) : (s.setMsix fn v e).effReg o = s.effReg o := rfl
@[simp] theorem State.setMsix_fldR (s : State) (fn v : Nat) (e : MsixEntry) (o h l : Nat) : (s.setMsix fn v e).fldR o h l = s.fldR o h l := rfl
@[simp] theorem State.setMsix_effF (s : State) (fn v : Nat) (e : MsixEntry) (o h l : Nat) : (s.setMsix fn v e).effF o h l = s.effF o h l := rfl
@[simp] theorem State.setMsix_devState (s : State) (fn v : Nat) (e : MsixEntry) : (s.setMsix fn v e).devState = s.devState := rfl
@[simp] theorem State.setMsix_live (s : State) (fn v : Nat) (e : MsixEntry) : (s.setMsix fn v e).live = s.live := rfl
@[simp] theorem State.setMsix_tickNum (s : State) (fn v : Nat) (e : MsixEntry) : (s.setMsix fn v e).tickNum = s.tickNum := rfl
@[simp] theorem State.setMsix_ctx (s : State) (fn v : Nat) (e : MsixEntry) (m : Nat) : (s.setMsix fn v e).ctx m = s.ctx m := rfl
@[simp] theorem State.setMsix_ring (s : State) (fn v : Nat) (e : MsixEntry) (m : Nat) : (s.setMsix fn v e).ring m = s.ring m := rfl
@[simp] theorem State.setMsix_entry (s : State) (fn v : Nat) (e : MsixEntry) (m : Nat) : (s.setMsix fn v e).entry m = s.entry m := rfl
@[simp] theorem State.setMsix_byteAt (s : State) (fn v : Nat) (e : MsixEntry) (pa : Nat) : (s.setMsix fn v e).byteAt pa = s.byteAt pa := rfl

/-! ### logAer -/

@[simp] theorem logAer_pending (s : State) (e : AerEvent) : (logAer s e).pending = s.pending := (rfl)
@[simp] theorem logAer_regs (s : State) (e : AerEvent) : (logAer s e).regs = s.regs := (rfl)
@[simp] theorem logAer_eff (s : State) (e : AerEvent) : (logAer s e).eff = s.eff := (rfl)
@[simp] theorem logAer_dev (s : State) (e : AerEvent) : (logAer s e).dev = s.dev := (rfl)
@[simp] theorem logAer_fns (s : State) (e : AerEvent) : (logAer s e).fns = s.fns := (rfl)
@[simp] theorem logAer_msix (s : State) (e : AerEvent) : (logAer s e).msix = s.msix := (rfl)
@[simp] theorem logAer_hol (s : State) (e : AerEvent) : (logAer s e).hol = s.hol := (rfl)
@[simp] theorem logAer_tick (s : State) (e : AerEvent) : (logAer s e).tick = s.tick := (rfl)
@[simp] theorem logAer_ctxs (s : State) (e : AerEvent) : (logAer s e).ctxs = s.ctxs := (rfl)
@[simp] theorem logAer_rings (s : State) (e : AerEvent) : (logAer s e).rings = s.rings := (rfl)
@[simp] theorem logAer_flight (s : State) (e : AerEvent) : (logAer s e).flight = s.flight := (rfl)
@[simp] theorem logAer_nextId (s : State) (e : AerEvent) : (logAer s e).nextId = s.nextId := (rfl)
@[simp] theorem logAer_slots (s : State) (e : AerEvent) : (logAer s e).slots = s.slots := (rfl)
@[simp] theorem logAer_images (s : State) (e : AerEvent) : (logAer s e).images = s.images := (rfl)
@[simp] theorem logAer_mem (s : State) (e : AerEvent) : (logAer s e).mem = s.mem := (rfl)
@[simp] theorem logAer_mig (s : State) (e : AerEvent) : (logAer s e).mig = s.mig := (rfl)
@[simp] theorem logAer_retained (s : State) (e : AerEvent) : (logAer s e).retained = s.retained := (rfl)
@[simp] theorem logAer_prefetched (s : State) (e : AerEvent) : (logAer s e).prefetched = s.prefetched := (rfl)
@[simp] theorem logAer_kv (s : State) (e : AerEvent) : (logAer s e).kv = s.kv := (rfl)
@[simp] theorem logAer_pwr (s : State) (e : AerEvent) : (logAer s e).pwr = s.pwr := (rfl)
@[simp] theorem logAer_sec (s : State) (e : AerEvent) : (logAer s e).sec = s.sec := (rfl)
@[simp] theorem logAer_mgt (s : State) (e : AerEvent) : (logAer s e).mgt = s.mgt := (rfl)
@[simp] theorem logAer_fab (s : State) (e : AerEvent) : (logAer s e).fab = s.fab := (rfl)
@[simp] theorem logAer_free (s : State) (e : AerEvent) : (logAer s e).free = s.free := (rfl)
@[simp] theorem logAer_reg (s : State) (e : AerEvent) (o : Nat) : (logAer s e).reg o = s.reg o := rfl
@[simp] theorem logAer_effReg (s : State) (e : AerEvent) (o : Nat) : (logAer s e).effReg o = s.effReg o := rfl
@[simp] theorem logAer_fldR (s : State) (e : AerEvent) (o h l : Nat) : (logAer s e).fldR o h l = s.fldR o h l := rfl
@[simp] theorem logAer_effF (s : State) (e : AerEvent) (o h l : Nat) : (logAer s e).effF o h l = s.effF o h l := rfl
@[simp] theorem logAer_devState (s : State) (e : AerEvent) : (logAer s e).devState = s.devState := rfl
@[simp] theorem logAer_live (s : State) (e : AerEvent) : (logAer s e).live = s.live := rfl
@[simp] theorem logAer_tickNum (s : State) (e : AerEvent) : (logAer s e).tickNum = s.tickNum := rfl
@[simp] theorem logAer_ctx (s : State) (e : AerEvent) (m : Nat) : (logAer s e).ctx m = s.ctx m := rfl
@[simp] theorem logAer_ring (s : State) (e : AerEvent) (m : Nat) : (logAer s e).ring m = s.ring m := rfl
@[simp] theorem logAer_entry (s : State) (e : AerEvent) (m : Nat) : (logAer s e).entry m = s.entry m := rfl
@[simp] theorem logAer_byteAt (s : State) (e : AerEvent) (pa : Nat) : (logAer s e).byteAt pa = s.byteAt pa := rfl

/-! ### respond -/

@[simp] theorem respond_pending (s : State) (r : Resp) : (respond s r).pending = s.pending := (rfl)
@[simp] theorem respond_regs (s : State) (r : Resp) : (respond s r).regs = s.regs := (rfl)
@[simp] theorem respond_eff (s : State) (r : Resp) : (respond s r).eff = s.eff := (rfl)
@[simp] theorem respond_dev (s : State) (r : Resp) : (respond s r).dev = s.dev := (rfl)
@[simp] theorem respond_fns (s : State) (r : Resp) : (respond s r).fns = s.fns := (rfl)
@[simp] theorem respond_msix (s : State) (r : Resp) : (respond s r).msix = s.msix := (rfl)
@[simp] theorem respond_hol (s : State) (r : Resp) : (respond s r).hol = s.hol := (rfl)
@[simp] theorem respond_tick (s : State) (r : Resp) : (respond s r).tick = s.tick := (rfl)
@[simp] theorem respond_ctxs (s : State) (r : Resp) : (respond s r).ctxs = s.ctxs := (rfl)
@[simp] theorem respond_rings (s : State) (r : Resp) : (respond s r).rings = s.rings := (rfl)
@[simp] theorem respond_flight (s : State) (r : Resp) : (respond s r).flight = s.flight := (rfl)
@[simp] theorem respond_nextId (s : State) (r : Resp) : (respond s r).nextId = s.nextId := (rfl)
@[simp] theorem respond_slots (s : State) (r : Resp) : (respond s r).slots = s.slots := (rfl)
@[simp] theorem respond_images (s : State) (r : Resp) : (respond s r).images = s.images := (rfl)
@[simp] theorem respond_mem (s : State) (r : Resp) : (respond s r).mem = s.mem := (rfl)
@[simp] theorem respond_mig (s : State) (r : Resp) : (respond s r).mig = s.mig := (rfl)
@[simp] theorem respond_retained (s : State) (r : Resp) : (respond s r).retained = s.retained := (rfl)
@[simp] theorem respond_prefetched (s : State) (r : Resp) : (respond s r).prefetched = s.prefetched := (rfl)
@[simp] theorem respond_kv (s : State) (r : Resp) : (respond s r).kv = s.kv := (rfl)
@[simp] theorem respond_pwr (s : State) (r : Resp) : (respond s r).pwr = s.pwr := (rfl)
@[simp] theorem respond_sec (s : State) (r : Resp) : (respond s r).sec = s.sec := (rfl)
@[simp] theorem respond_mgt (s : State) (r : Resp) : (respond s r).mgt = s.mgt := (rfl)
@[simp] theorem respond_fab (s : State) (r : Resp) : (respond s r).fab = s.fab := (rfl)
@[simp] theorem respond_free (s : State) (r : Resp) : (respond s r).free = s.free := (rfl)
@[simp] theorem respond_reg (s : State) (r : Resp) (o : Nat) : (respond s r).reg o = s.reg o := rfl
@[simp] theorem respond_effReg (s : State) (r : Resp) (o : Nat) : (respond s r).effReg o = s.effReg o := rfl
@[simp] theorem respond_fldR (s : State) (r : Resp) (o h l : Nat) : (respond s r).fldR o h l = s.fldR o h l := rfl
@[simp] theorem respond_effF (s : State) (r : Resp) (o h l : Nat) : (respond s r).effF o h l = s.effF o h l := rfl
@[simp] theorem respond_devState (s : State) (r : Resp) : (respond s r).devState = s.devState := rfl
@[simp] theorem respond_live (s : State) (r : Resp) : (respond s r).live = s.live := rfl
@[simp] theorem respond_tickNum (s : State) (r : Resp) : (respond s r).tickNum = s.tickNum := rfl
@[simp] theorem respond_ctx (s : State) (r : Resp) (m : Nat) : (respond s r).ctx m = s.ctx m := rfl
@[simp] theorem respond_ring (s : State) (r : Resp) (m : Nat) : (respond s r).ring m = s.ring m := rfl
@[simp] theorem respond_entry (s : State) (r : Resp) (m : Nat) : (respond s r).entry m = s.entry m := rfl
@[simp] theorem respond_byteAt (s : State) (r : Resp) (pa : Nat) : (respond s r).byteAt pa = s.byteAt pa := rfl

/-! ### State.setCtx -/

@[simp] theorem State.setCtx_pending (s : State) (n : Nat) (c : Ctx) : (s.setCtx n c).pending = s.pending := (rfl)
@[simp] theorem State.setCtx_regs (s : State) (n : Nat) (c : Ctx) : (s.setCtx n c).regs = s.regs := (rfl)
@[simp] theorem State.setCtx_eff (s : State) (n : Nat) (c : Ctx) : (s.setCtx n c).eff = s.eff := (rfl)
@[simp] theorem State.setCtx_dev (s : State) (n : Nat) (c : Ctx) : (s.setCtx n c).dev = s.dev := (rfl)
@[simp] theorem State.setCtx_fns (s : State) (n : Nat) (c : Ctx) : (s.setCtx n c).fns = s.fns := (rfl)
@[simp] theorem State.setCtx_msix (s : State) (n : Nat) (c : Ctx) : (s.setCtx n c).msix = s.msix := (rfl)
@[simp] theorem State.setCtx_hol (s : State) (n : Nat) (c : Ctx) : (s.setCtx n c).hol = s.hol := (rfl)
@[simp] theorem State.setCtx_tick (s : State) (n : Nat) (c : Ctx) : (s.setCtx n c).tick = s.tick := (rfl)
@[simp] theorem State.setCtx_rings (s : State) (n : Nat) (c : Ctx) : (s.setCtx n c).rings = s.rings := (rfl)
@[simp] theorem State.setCtx_flight (s : State) (n : Nat) (c : Ctx) : (s.setCtx n c).flight = s.flight := (rfl)
@[simp] theorem State.setCtx_nextId (s : State) (n : Nat) (c : Ctx) : (s.setCtx n c).nextId = s.nextId := (rfl)
@[simp] theorem State.setCtx_slots (s : State) (n : Nat) (c : Ctx) : (s.setCtx n c).slots = s.slots := (rfl)
@[simp] theorem State.setCtx_images (s : State) (n : Nat) (c : Ctx) : (s.setCtx n c).images = s.images := (rfl)
@[simp] theorem State.setCtx_mem (s : State) (n : Nat) (c : Ctx) : (s.setCtx n c).mem = s.mem := (rfl)
@[simp] theorem State.setCtx_mig (s : State) (n : Nat) (c : Ctx) : (s.setCtx n c).mig = s.mig := (rfl)
@[simp] theorem State.setCtx_retained (s : State) (n : Nat) (c : Ctx) : (s.setCtx n c).retained = s.retained := (rfl)
@[simp] theorem State.setCtx_prefetched (s : State) (n : Nat) (c : Ctx) : (s.setCtx n c).prefetched = s.prefetched := (rfl)
@[simp] theorem State.setCtx_kv (s : State) (n : Nat) (c : Ctx) : (s.setCtx n c).kv = s.kv := (rfl)
@[simp] theorem State.setCtx_pwr (s : State) (n : Nat) (c : Ctx) : (s.setCtx n c).pwr = s.pwr := (rfl)
@[simp] theorem State.setCtx_sec (s : State) (n : Nat) (c : Ctx) : (s.setCtx n c).sec = s.sec := (rfl)
@[simp] theorem State.setCtx_mgt (s : State) (n : Nat) (c : Ctx) : (s.setCtx n c).mgt = s.mgt := (rfl)
@[simp] theorem State.setCtx_fab (s : State) (n : Nat) (c : Ctx) : (s.setCtx n c).fab = s.fab := (rfl)
@[simp] theorem State.setCtx_out (s : State) (n : Nat) (c : Ctx) : (s.setCtx n c).out = s.out := (rfl)
@[simp] theorem State.setCtx_free (s : State) (n : Nat) (c : Ctx) : (s.setCtx n c).free = s.free := (rfl)
@[simp] theorem State.setCtx_reg (s : State) (n : Nat) (c : Ctx) (o : Nat) : (s.setCtx n c).reg o = s.reg o := rfl
@[simp] theorem State.setCtx_effReg (s : State) (n : Nat) (c : Ctx) (o : Nat) : (s.setCtx n c).effReg o = s.effReg o := rfl
@[simp] theorem State.setCtx_fldR (s : State) (n : Nat) (c : Ctx) (o h l : Nat) : (s.setCtx n c).fldR o h l = s.fldR o h l := rfl
@[simp] theorem State.setCtx_effF (s : State) (n : Nat) (c : Ctx) (o h l : Nat) : (s.setCtx n c).effF o h l = s.effF o h l := rfl
@[simp] theorem State.setCtx_devState (s : State) (n : Nat) (c : Ctx) : (s.setCtx n c).devState = s.devState := rfl
@[simp] theorem State.setCtx_live (s : State) (n : Nat) (c : Ctx) : (s.setCtx n c).live = s.live := rfl
@[simp] theorem State.setCtx_tickNum (s : State) (n : Nat) (c : Ctx) : (s.setCtx n c).tickNum = s.tickNum := rfl
@[simp] theorem State.setCtx_ring (s : State) (n : Nat) (c : Ctx) (m : Nat) : (s.setCtx n c).ring m = s.ring m := rfl
@[simp] theorem State.setCtx_entry (s : State) (n : Nat) (c : Ctx) (m : Nat) : (s.setCtx n c).entry m = s.entry m := rfl
@[simp] theorem State.setCtx_byteAt (s : State) (n : Nat) (c : Ctx) (pa : Nat) : (s.setCtx n c).byteAt pa = s.byteAt pa := rfl

/-! ### State.setRing -/

@[simp] theorem State.setRing_pending (s : State) (r : Nat) (g : Ring) : (s.setRing r g).pending = s.pending := (rfl)
@[simp] theorem State.setRing_regs (s : State) (r : Nat) (g : Ring) : (s.setRing r g).regs = s.regs := (rfl)
@[simp] theorem State.setRing_eff (s : State) (r : Nat) (g : Ring) : (s.setRing r g).eff = s.eff := (rfl)
@[simp] theorem State.setRing_dev (s : State) (r : Nat) (g : Ring) : (s.setRing r g).dev = s.dev := (rfl)
@[simp] theorem State.setRing_fns (s : State) (r : Nat) (g : Ring) : (s.setRing r g).fns = s.fns := (rfl)
@[simp] theorem State.setRing_msix (s : State) (r : Nat) (g : Ring) : (s.setRing r g).msix = s.msix := (rfl)
@[simp] theorem State.setRing_hol (s : State) (r : Nat) (g : Ring) : (s.setRing r g).hol = s.hol := (rfl)
@[simp] theorem State.setRing_tick (s : State) (r : Nat) (g : Ring) : (s.setRing r g).tick = s.tick := (rfl)
@[simp] theorem State.setRing_ctxs (s : State) (r : Nat) (g : Ring) : (s.setRing r g).ctxs = s.ctxs := (rfl)
@[simp] theorem State.setRing_flight (s : State) (r : Nat) (g : Ring) : (s.setRing r g).flight = s.flight := (rfl)
@[simp] theorem State.setRing_nextId (s : State) (r : Nat) (g : Ring) : (s.setRing r g).nextId = s.nextId := (rfl)
@[simp] theorem State.setRing_slots (s : State) (r : Nat) (g : Ring) : (s.setRing r g).slots = s.slots := (rfl)
@[simp] theorem State.setRing_images (s : State) (r : Nat) (g : Ring) : (s.setRing r g).images = s.images := (rfl)
@[simp] theorem State.setRing_mem (s : State) (r : Nat) (g : Ring) : (s.setRing r g).mem = s.mem := (rfl)
@[simp] theorem State.setRing_mig (s : State) (r : Nat) (g : Ring) : (s.setRing r g).mig = s.mig := (rfl)
@[simp] theorem State.setRing_retained (s : State) (r : Nat) (g : Ring) : (s.setRing r g).retained = s.retained := (rfl)
@[simp] theorem State.setRing_prefetched (s : State) (r : Nat) (g : Ring) : (s.setRing r g).prefetched = s.prefetched := (rfl)
@[simp] theorem State.setRing_kv (s : State) (r : Nat) (g : Ring) : (s.setRing r g).kv = s.kv := (rfl)
@[simp] theorem State.setRing_pwr (s : State) (r : Nat) (g : Ring) : (s.setRing r g).pwr = s.pwr := (rfl)
@[simp] theorem State.setRing_sec (s : State) (r : Nat) (g : Ring) : (s.setRing r g).sec = s.sec := (rfl)
@[simp] theorem State.setRing_mgt (s : State) (r : Nat) (g : Ring) : (s.setRing r g).mgt = s.mgt := (rfl)
@[simp] theorem State.setRing_fab (s : State) (r : Nat) (g : Ring) : (s.setRing r g).fab = s.fab := (rfl)
@[simp] theorem State.setRing_out (s : State) (r : Nat) (g : Ring) : (s.setRing r g).out = s.out := (rfl)
@[simp] theorem State.setRing_free (s : State) (r : Nat) (g : Ring) : (s.setRing r g).free = s.free := (rfl)
@[simp] theorem State.setRing_reg (s : State) (r : Nat) (g : Ring) (o : Nat) : (s.setRing r g).reg o = s.reg o := rfl
@[simp] theorem State.setRing_effReg (s : State) (r : Nat) (g : Ring) (o : Nat) : (s.setRing r g).effReg o = s.effReg o := rfl
@[simp] theorem State.setRing_fldR (s : State) (r : Nat) (g : Ring) (o h l : Nat) : (s.setRing r g).fldR o h l = s.fldR o h l := rfl
@[simp] theorem State.setRing_effF (s : State) (r : Nat) (g : Ring) (o h l : Nat) : (s.setRing r g).effF o h l = s.effF o h l := rfl
@[simp] theorem State.setRing_devState (s : State) (r : Nat) (g : Ring) : (s.setRing r g).devState = s.devState := rfl
@[simp] theorem State.setRing_live (s : State) (r : Nat) (g : Ring) : (s.setRing r g).live = s.live := rfl
@[simp] theorem State.setRing_tickNum (s : State) (r : Nat) (g : Ring) : (s.setRing r g).tickNum = s.tickNum := rfl
@[simp] theorem State.setRing_ctx (s : State) (r : Nat) (g : Ring) (m : Nat) : (s.setRing r g).ctx m = s.ctx m := rfl
@[simp] theorem State.setRing_entry (s : State) (r : Nat) (g : Ring) (m : Nat) : (s.setRing r g).entry m = s.entry m := rfl
@[simp] theorem State.setRing_byteAt (s : State) (r : Nat) (g : Ring) (pa : Nat) : (s.setRing r g).byteAt pa = s.byteAt pa := rfl

/-! ### hostWrite -/

@[simp] theorem hostWrite_pending (s : State) (a : Nat) (bs : List Byte) : (hostWrite s a bs).pending = s.pending := (rfl)
@[simp] theorem hostWrite_regs (s : State) (a : Nat) (bs : List Byte) : (hostWrite s a bs).regs = s.regs := (rfl)
@[simp] theorem hostWrite_eff (s : State) (a : Nat) (bs : List Byte) : (hostWrite s a bs).eff = s.eff := (rfl)
@[simp] theorem hostWrite_dev (s : State) (a : Nat) (bs : List Byte) : (hostWrite s a bs).dev = s.dev := (rfl)
@[simp] theorem hostWrite_fns (s : State) (a : Nat) (bs : List Byte) : (hostWrite s a bs).fns = s.fns := (rfl)
@[simp] theorem hostWrite_msix (s : State) (a : Nat) (bs : List Byte) : (hostWrite s a bs).msix = s.msix := (rfl)
@[simp] theorem hostWrite_hol (s : State) (a : Nat) (bs : List Byte) : (hostWrite s a bs).hol = s.hol := (rfl)
@[simp] theorem hostWrite_tick (s : State) (a : Nat) (bs : List Byte) : (hostWrite s a bs).tick = s.tick := (rfl)
@[simp] theorem hostWrite_ctxs (s : State) (a : Nat) (bs : List Byte) : (hostWrite s a bs).ctxs = s.ctxs := (rfl)
@[simp] theorem hostWrite_rings (s : State) (a : Nat) (bs : List Byte) : (hostWrite s a bs).rings = s.rings := (rfl)
@[simp] theorem hostWrite_flight (s : State) (a : Nat) (bs : List Byte) : (hostWrite s a bs).flight = s.flight := (rfl)
@[simp] theorem hostWrite_nextId (s : State) (a : Nat) (bs : List Byte) : (hostWrite s a bs).nextId = s.nextId := (rfl)
@[simp] theorem hostWrite_slots (s : State) (a : Nat) (bs : List Byte) : (hostWrite s a bs).slots = s.slots := (rfl)
@[simp] theorem hostWrite_images (s : State) (a : Nat) (bs : List Byte) : (hostWrite s a bs).images = s.images := (rfl)
@[simp] theorem hostWrite_mem (s : State) (a : Nat) (bs : List Byte) : (hostWrite s a bs).mem = s.mem := (rfl)
@[simp] theorem hostWrite_mig (s : State) (a : Nat) (bs : List Byte) : (hostWrite s a bs).mig = s.mig := (rfl)
@[simp] theorem hostWrite_retained (s : State) (a : Nat) (bs : List Byte) : (hostWrite s a bs).retained = s.retained := (rfl)
@[simp] theorem hostWrite_prefetched (s : State) (a : Nat) (bs : List Byte) : (hostWrite s a bs).prefetched = s.prefetched := (rfl)
@[simp] theorem hostWrite_kv (s : State) (a : Nat) (bs : List Byte) : (hostWrite s a bs).kv = s.kv := (rfl)
@[simp] theorem hostWrite_pwr (s : State) (a : Nat) (bs : List Byte) : (hostWrite s a bs).pwr = s.pwr := (rfl)
@[simp] theorem hostWrite_sec (s : State) (a : Nat) (bs : List Byte) : (hostWrite s a bs).sec = s.sec := (rfl)
@[simp] theorem hostWrite_mgt (s : State) (a : Nat) (bs : List Byte) : (hostWrite s a bs).mgt = s.mgt := (rfl)
@[simp] theorem hostWrite_fab (s : State) (a : Nat) (bs : List Byte) : (hostWrite s a bs).fab = s.fab := (rfl)
@[simp] theorem hostWrite_free (s : State) (a : Nat) (bs : List Byte) : (hostWrite s a bs).free = s.free := (rfl)
@[simp] theorem hostWrite_reg (s : State) (a : Nat) (bs : List Byte) (o : Nat) : (hostWrite s a bs).reg o = s.reg o := rfl
@[simp] theorem hostWrite_effReg (s : State) (a : Nat) (bs : List Byte) (o : Nat) : (hostWrite s a bs).effReg o = s.effReg o := rfl
@[simp] theorem hostWrite_fldR (s : State) (a : Nat) (bs : List Byte) (o h l : Nat) : (hostWrite s a bs).fldR o h l = s.fldR o h l := rfl
@[simp] theorem hostWrite_effF (s : State) (a : Nat) (bs : List Byte) (o h l : Nat) : (hostWrite s a bs).effF o h l = s.effF o h l := rfl
@[simp] theorem hostWrite_devState (s : State) (a : Nat) (bs : List Byte) : (hostWrite s a bs).devState = s.devState := rfl
@[simp] theorem hostWrite_live (s : State) (a : Nat) (bs : List Byte) : (hostWrite s a bs).live = s.live := rfl
@[simp] theorem hostWrite_tickNum (s : State) (a : Nat) (bs : List Byte) : (hostWrite s a bs).tickNum = s.tickNum := rfl
@[simp] theorem hostWrite_ctx (s : State) (a : Nat) (bs : List Byte) (m : Nat) : (hostWrite s a bs).ctx m = s.ctx m := rfl
@[simp] theorem hostWrite_ring (s : State) (a : Nat) (bs : List Byte) (m : Nat) : (hostWrite s a bs).ring m = s.ring m := rfl
@[simp] theorem hostWrite_entry (s : State) (a : Nat) (bs : List Byte) (m : Nat) : (hostWrite s a bs).entry m = s.entry m := rfl
@[simp] theorem hostWrite_byteAt (s : State) (a : Nat) (bs : List Byte) (pa : Nat) : (hostWrite s a bs).byteAt pa = s.byteAt pa := rfl

/-! ### State.updEntry -/

@[simp] theorem State.updEntry_pending (s : State) (id : Nat) (f : Entry → Entry) : (s.updEntry id f).pending = s.pending := (rfl)
@[simp] theorem State.updEntry_regs (s : State) (id : Nat) (f : Entry → Entry) : (s.updEntry id f).regs = s.regs := (rfl)
@[simp] theorem State.updEntry_eff (s : State) (id : Nat) (f : Entry → Entry) : (s.updEntry id f).eff = s.eff := (rfl)
@[simp] theorem State.updEntry_dev (s : State) (id : Nat) (f : Entry → Entry) : (s.updEntry id f).dev = s.dev := (rfl)
@[simp] theorem State.updEntry_fns (s : State) (id : Nat) (f : Entry → Entry) : (s.updEntry id f).fns = s.fns := (rfl)
@[simp] theorem State.updEntry_msix (s : State) (id : Nat) (f : Entry → Entry) : (s.updEntry id f).msix = s.msix := (rfl)
@[simp] theorem State.updEntry_hol (s : State) (id : Nat) (f : Entry → Entry) : (s.updEntry id f).hol = s.hol := (rfl)
@[simp] theorem State.updEntry_tick (s : State) (id : Nat) (f : Entry → Entry) : (s.updEntry id f).tick = s.tick := (rfl)
@[simp] theorem State.updEntry_ctxs (s : State) (id : Nat) (f : Entry → Entry) : (s.updEntry id f).ctxs = s.ctxs := (rfl)
@[simp] theorem State.updEntry_rings (s : State) (id : Nat) (f : Entry → Entry) : (s.updEntry id f).rings = s.rings := (rfl)
@[simp] theorem State.updEntry_nextId (s : State) (id : Nat) (f : Entry → Entry) : (s.updEntry id f).nextId = s.nextId := (rfl)
@[simp] theorem State.updEntry_slots (s : State) (id : Nat) (f : Entry → Entry) : (s.updEntry id f).slots = s.slots := (rfl)
@[simp] theorem State.updEntry_images (s : State) (id : Nat) (f : Entry → Entry) : (s.updEntry id f).images = s.images := (rfl)
@[simp] theorem State.updEntry_mem (s : State) (id : Nat) (f : Entry → Entry) : (s.updEntry id f).mem = s.mem := (rfl)
@[simp] theorem State.updEntry_mig (s : State) (id : Nat) (f : Entry → Entry) : (s.updEntry id f).mig = s.mig := (rfl)
@[simp] theorem State.updEntry_retained (s : State) (id : Nat) (f : Entry → Entry) : (s.updEntry id f).retained = s.retained := (rfl)
@[simp] theorem State.updEntry_prefetched (s : State) (id : Nat) (f : Entry → Entry) : (s.updEntry id f).prefetched = s.prefetched := (rfl)
@[simp] theorem State.updEntry_kv (s : State) (id : Nat) (f : Entry → Entry) : (s.updEntry id f).kv = s.kv := (rfl)
@[simp] theorem State.updEntry_pwr (s : State) (id : Nat) (f : Entry → Entry) : (s.updEntry id f).pwr = s.pwr := (rfl)
@[simp] theorem State.updEntry_sec (s : State) (id : Nat) (f : Entry → Entry) : (s.updEntry id f).sec = s.sec := (rfl)
@[simp] theorem State.updEntry_mgt (s : State) (id : Nat) (f : Entry → Entry) : (s.updEntry id f).mgt = s.mgt := (rfl)
@[simp] theorem State.updEntry_fab (s : State) (id : Nat) (f : Entry → Entry) : (s.updEntry id f).fab = s.fab := (rfl)
@[simp] theorem State.updEntry_out (s : State) (id : Nat) (f : Entry → Entry) : (s.updEntry id f).out = s.out := (rfl)
@[simp] theorem State.updEntry_free (s : State) (id : Nat) (f : Entry → Entry) : (s.updEntry id f).free = s.free := (rfl)
@[simp] theorem State.updEntry_reg (s : State) (id : Nat) (f : Entry → Entry) (o : Nat) : (s.updEntry id f).reg o = s.reg o := rfl
@[simp] theorem State.updEntry_effReg (s : State) (id : Nat) (f : Entry → Entry) (o : Nat) : (s.updEntry id f).effReg o = s.effReg o := rfl
@[simp] theorem State.updEntry_fldR (s : State) (id : Nat) (f : Entry → Entry) (o h l : Nat) : (s.updEntry id f).fldR o h l = s.fldR o h l := rfl
@[simp] theorem State.updEntry_effF (s : State) (id : Nat) (f : Entry → Entry) (o h l : Nat) : (s.updEntry id f).effF o h l = s.effF o h l := rfl
@[simp] theorem State.updEntry_devState (s : State) (id : Nat) (f : Entry → Entry) : (s.updEntry id f).devState = s.devState := rfl
@[simp] theorem State.updEntry_live (s : State) (id : Nat) (f : Entry → Entry) : (s.updEntry id f).live = s.live := rfl
@[simp] theorem State.updEntry_tickNum (s : State) (id : Nat) (f : Entry → Entry) : (s.updEntry id f).tickNum = s.tickNum := rfl
@[simp] theorem State.updEntry_ctx (s : State) (id : Nat) (f : Entry → Entry) (m : Nat) : (s.updEntry id f).ctx m = s.ctx m := rfl
@[simp] theorem State.updEntry_ring (s : State) (id : Nat) (f : Entry → Entry) (m : Nat) : (s.updEntry id f).ring m = s.ring m := rfl
@[simp] theorem State.updEntry_byteAt (s : State) (id : Nat) (f : Entry → Entry) (pa : Nat) : (s.updEntry id f).byteAt pa = s.byteAt pa := rfl

/-! ### State.dropEntry -/

@[simp] theorem State.dropEntry_pending (s : State) (id : Nat) : (s.dropEntry id).pending = s.pending := (rfl)
@[simp] theorem State.dropEntry_regs (s : State) (id : Nat) : (s.dropEntry id).regs = s.regs := (rfl)
@[simp] theorem State.dropEntry_eff (s : State) (id : Nat) : (s.dropEntry id).eff = s.eff := (rfl)
@[simp] theorem State.dropEntry_dev (s : State) (id : Nat) : (s.dropEntry id).dev = s.dev := (rfl)
@[simp] theorem State.dropEntry_fns (s : State) (id : Nat) : (s.dropEntry id).fns = s.fns := (rfl)
@[simp] theorem State.dropEntry_msix (s : State) (id : Nat) : (s.dropEntry id).msix = s.msix := (rfl)
@[simp] theorem State.dropEntry_hol (s : State) (id : Nat) : (s.dropEntry id).hol = s.hol := (rfl)
@[simp] theorem State.dropEntry_tick (s : State) (id : Nat) : (s.dropEntry id).tick = s.tick := (rfl)
@[simp] theorem State.dropEntry_ctxs (s : State) (id : Nat) : (s.dropEntry id).ctxs = s.ctxs := (rfl)
@[simp] theorem State.dropEntry_rings (s : State) (id : Nat) : (s.dropEntry id).rings = s.rings := (rfl)
@[simp] theorem State.dropEntry_nextId (s : State) (id : Nat) : (s.dropEntry id).nextId = s.nextId := (rfl)
@[simp] theorem State.dropEntry_slots (s : State) (id : Nat) : (s.dropEntry id).slots = s.slots := (rfl)
@[simp] theorem State.dropEntry_images (s : State) (id : Nat) : (s.dropEntry id).images = s.images := (rfl)
@[simp] theorem State.dropEntry_mem (s : State) (id : Nat) : (s.dropEntry id).mem = s.mem := (rfl)
@[simp] theorem State.dropEntry_mig (s : State) (id : Nat) : (s.dropEntry id).mig = s.mig := (rfl)
@[simp] theorem State.dropEntry_retained (s : State) (id : Nat) : (s.dropEntry id).retained = s.retained := (rfl)
@[simp] theorem State.dropEntry_prefetched (s : State) (id : Nat) : (s.dropEntry id).prefetched = s.prefetched := (rfl)
@[simp] theorem State.dropEntry_kv (s : State) (id : Nat) : (s.dropEntry id).kv = s.kv := (rfl)
@[simp] theorem State.dropEntry_pwr (s : State) (id : Nat) : (s.dropEntry id).pwr = s.pwr := (rfl)
@[simp] theorem State.dropEntry_sec (s : State) (id : Nat) : (s.dropEntry id).sec = s.sec := (rfl)
@[simp] theorem State.dropEntry_mgt (s : State) (id : Nat) : (s.dropEntry id).mgt = s.mgt := (rfl)
@[simp] theorem State.dropEntry_fab (s : State) (id : Nat) : (s.dropEntry id).fab = s.fab := (rfl)
@[simp] theorem State.dropEntry_out (s : State) (id : Nat) : (s.dropEntry id).out = s.out := (rfl)
@[simp] theorem State.dropEntry_free (s : State) (id : Nat) : (s.dropEntry id).free = s.free := (rfl)
@[simp] theorem State.dropEntry_reg (s : State) (id : Nat) (o : Nat) : (s.dropEntry id).reg o = s.reg o := rfl
@[simp] theorem State.dropEntry_effReg (s : State) (id : Nat) (o : Nat) : (s.dropEntry id).effReg o = s.effReg o := rfl
@[simp] theorem State.dropEntry_fldR (s : State) (id : Nat) (o h l : Nat) : (s.dropEntry id).fldR o h l = s.fldR o h l := rfl
@[simp] theorem State.dropEntry_effF (s : State) (id : Nat) (o h l : Nat) : (s.dropEntry id).effF o h l = s.effF o h l := rfl
@[simp] theorem State.dropEntry_devState (s : State) (id : Nat) : (s.dropEntry id).devState = s.devState := rfl
@[simp] theorem State.dropEntry_live (s : State) (id : Nat) : (s.dropEntry id).live = s.live := rfl
@[simp] theorem State.dropEntry_tickNum (s : State) (id : Nat) : (s.dropEntry id).tickNum = s.tickNum := rfl
@[simp] theorem State.dropEntry_ctx (s : State) (id : Nat) (m : Nat) : (s.dropEntry id).ctx m = s.ctx m := rfl
@[simp] theorem State.dropEntry_ring (s : State) (id : Nat) (m : Nat) : (s.dropEntry id).ring m = s.ring m := rfl
@[simp] theorem State.dropEntry_byteAt (s : State) (id : Nat) (pa : Nat) : (s.dropEntry id).byteAt pa = s.byteAt pa := rfl

/-! ### State.setLoop -/

@[simp] theorem State.setLoop_pending (s : State) (g : Nat) (f : GroupLoop → GroupLoop) : (s.setLoop g f).pending = s.pending := (rfl)
@[simp] theorem State.setLoop_regs (s : State) (g : Nat) (f : GroupLoop → GroupLoop) : (s.setLoop g f).regs = s.regs := (rfl)
@[simp] theorem State.setLoop_eff (s : State) (g : Nat) (f : GroupLoop → GroupLoop) : (s.setLoop g f).eff = s.eff := (rfl)
@[simp] theorem State.setLoop_dev (s : State) (g : Nat) (f : GroupLoop → GroupLoop) : (s.setLoop g f).dev = s.dev := (rfl)
@[simp] theorem State.setLoop_fns (s : State) (g : Nat) (f : GroupLoop → GroupLoop) : (s.setLoop g f).fns = s.fns := (rfl)
@[simp] theorem State.setLoop_msix (s : State) (g : Nat) (f : GroupLoop → GroupLoop) : (s.setLoop g f).msix = s.msix := (rfl)
@[simp] theorem State.setLoop_hol (s : State) (g : Nat) (f : GroupLoop → GroupLoop) : (s.setLoop g f).hol = s.hol := (rfl)
@[simp] theorem State.setLoop_tick (s : State) (g : Nat) (f : GroupLoop → GroupLoop) : (s.setLoop g f).tick = s.tick := (rfl)
@[simp] theorem State.setLoop_ctxs (s : State) (g : Nat) (f : GroupLoop → GroupLoop) : (s.setLoop g f).ctxs = s.ctxs := (rfl)
@[simp] theorem State.setLoop_rings (s : State) (g : Nat) (f : GroupLoop → GroupLoop) : (s.setLoop g f).rings = s.rings := (rfl)
@[simp] theorem State.setLoop_flight (s : State) (g : Nat) (f : GroupLoop → GroupLoop) : (s.setLoop g f).flight = s.flight := (rfl)
@[simp] theorem State.setLoop_nextId (s : State) (g : Nat) (f : GroupLoop → GroupLoop) : (s.setLoop g f).nextId = s.nextId := (rfl)
@[simp] theorem State.setLoop_slots (s : State) (g : Nat) (f : GroupLoop → GroupLoop) : (s.setLoop g f).slots = s.slots := (rfl)
@[simp] theorem State.setLoop_images (s : State) (g : Nat) (f : GroupLoop → GroupLoop) : (s.setLoop g f).images = s.images := (rfl)
@[simp] theorem State.setLoop_mem (s : State) (g : Nat) (f : GroupLoop → GroupLoop) : (s.setLoop g f).mem = s.mem := (rfl)
@[simp] theorem State.setLoop_mig (s : State) (g : Nat) (f : GroupLoop → GroupLoop) : (s.setLoop g f).mig = s.mig := (rfl)
@[simp] theorem State.setLoop_retained (s : State) (g : Nat) (f : GroupLoop → GroupLoop) : (s.setLoop g f).retained = s.retained := (rfl)
@[simp] theorem State.setLoop_prefetched (s : State) (g : Nat) (f : GroupLoop → GroupLoop) : (s.setLoop g f).prefetched = s.prefetched := (rfl)
@[simp] theorem State.setLoop_kv (s : State) (g : Nat) (f : GroupLoop → GroupLoop) : (s.setLoop g f).kv = s.kv := (rfl)
@[simp] theorem State.setLoop_sec (s : State) (g : Nat) (f : GroupLoop → GroupLoop) : (s.setLoop g f).sec = s.sec := (rfl)
@[simp] theorem State.setLoop_mgt (s : State) (g : Nat) (f : GroupLoop → GroupLoop) : (s.setLoop g f).mgt = s.mgt := (rfl)
@[simp] theorem State.setLoop_fab (s : State) (g : Nat) (f : GroupLoop → GroupLoop) : (s.setLoop g f).fab = s.fab := (rfl)
@[simp] theorem State.setLoop_out (s : State) (g : Nat) (f : GroupLoop → GroupLoop) : (s.setLoop g f).out = s.out := (rfl)
@[simp] theorem State.setLoop_free (s : State) (g : Nat) (f : GroupLoop → GroupLoop) : (s.setLoop g f).free = s.free := (rfl)
@[simp] theorem State.setLoop_reg (s : State) (g : Nat) (f : GroupLoop → GroupLoop) (o : Nat) : (s.setLoop g f).reg o = s.reg o := rfl
@[simp] theorem State.setLoop_effReg (s : State) (g : Nat) (f : GroupLoop → GroupLoop) (o : Nat) : (s.setLoop g f).effReg o = s.effReg o := rfl
@[simp] theorem State.setLoop_fldR (s : State) (g : Nat) (f : GroupLoop → GroupLoop) (o h l : Nat) : (s.setLoop g f).fldR o h l = s.fldR o h l := rfl
@[simp] theorem State.setLoop_effF (s : State) (g : Nat) (f : GroupLoop → GroupLoop) (o h l : Nat) : (s.setLoop g f).effF o h l = s.effF o h l := rfl
@[simp] theorem State.setLoop_devState (s : State) (g : Nat) (f : GroupLoop → GroupLoop) : (s.setLoop g f).devState = s.devState := rfl
@[simp] theorem State.setLoop_live (s : State) (g : Nat) (f : GroupLoop → GroupLoop) : (s.setLoop g f).live = s.live := rfl
@[simp] theorem State.setLoop_tickNum (s : State) (g : Nat) (f : GroupLoop → GroupLoop) : (s.setLoop g f).tickNum = s.tickNum := rfl
@[simp] theorem State.setLoop_ctx (s : State) (g : Nat) (f : GroupLoop → GroupLoop) (m : Nat) : (s.setLoop g f).ctx m = s.ctx m := rfl
@[simp] theorem State.setLoop_ring (s : State) (g : Nat) (f : GroupLoop → GroupLoop) (m : Nat) : (s.setLoop g f).ring m = s.ring m := rfl
@[simp] theorem State.setLoop_entry (s : State) (g : Nat) (f : GroupLoop → GroupLoop) (m : Nat) : (s.setLoop g f).entry m = s.entry m := rfl
@[simp] theorem State.setLoop_byteAt (s : State) (g : Nat) (f : GroupLoop → GroupLoop) (pa : Nat) : (s.setLoop g f).byteAt pa = s.byteAt pa := rfl

/-! ### State.setFab -/

@[simp] theorem State.setFab_pending (s : State) (f : Fab → Fab) : (s.setFab f).pending = s.pending := (rfl)
@[simp] theorem State.setFab_regs (s : State) (f : Fab → Fab) : (s.setFab f).regs = s.regs := (rfl)
@[simp] theorem State.setFab_eff (s : State) (f : Fab → Fab) : (s.setFab f).eff = s.eff := (rfl)
@[simp] theorem State.setFab_dev (s : State) (f : Fab → Fab) : (s.setFab f).dev = s.dev := (rfl)
@[simp] theorem State.setFab_fns (s : State) (f : Fab → Fab) : (s.setFab f).fns = s.fns := (rfl)
@[simp] theorem State.setFab_msix (s : State) (f : Fab → Fab) : (s.setFab f).msix = s.msix := (rfl)
@[simp] theorem State.setFab_hol (s : State) (f : Fab → Fab) : (s.setFab f).hol = s.hol := (rfl)
@[simp] theorem State.setFab_tick (s : State) (f : Fab → Fab) : (s.setFab f).tick = s.tick := (rfl)
@[simp] theorem State.setFab_ctxs (s : State) (f : Fab → Fab) : (s.setFab f).ctxs = s.ctxs := (rfl)
@[simp] theorem State.setFab_rings (s : State) (f : Fab → Fab) : (s.setFab f).rings = s.rings := (rfl)
@[simp] theorem State.setFab_flight (s : State) (f : Fab → Fab) : (s.setFab f).flight = s.flight := (rfl)
@[simp] theorem State.setFab_nextId (s : State) (f : Fab → Fab) : (s.setFab f).nextId = s.nextId := (rfl)
@[simp] theorem State.setFab_slots (s : State) (f : Fab → Fab) : (s.setFab f).slots = s.slots := (rfl)
@[simp] theorem State.setFab_images (s : State) (f : Fab → Fab) : (s.setFab f).images = s.images := (rfl)
@[simp] theorem State.setFab_mem (s : State) (f : Fab → Fab) : (s.setFab f).mem = s.mem := (rfl)
@[simp] theorem State.setFab_mig (s : State) (f : Fab → Fab) : (s.setFab f).mig = s.mig := (rfl)
@[simp] theorem State.setFab_retained (s : State) (f : Fab → Fab) : (s.setFab f).retained = s.retained := (rfl)
@[simp] theorem State.setFab_prefetched (s : State) (f : Fab → Fab) : (s.setFab f).prefetched = s.prefetched := (rfl)
@[simp] theorem State.setFab_kv (s : State) (f : Fab → Fab) : (s.setFab f).kv = s.kv := (rfl)
@[simp] theorem State.setFab_pwr (s : State) (f : Fab → Fab) : (s.setFab f).pwr = s.pwr := (rfl)
@[simp] theorem State.setFab_sec (s : State) (f : Fab → Fab) : (s.setFab f).sec = s.sec := (rfl)
@[simp] theorem State.setFab_mgt (s : State) (f : Fab → Fab) : (s.setFab f).mgt = s.mgt := (rfl)
@[simp] theorem State.setFab_out (s : State) (f : Fab → Fab) : (s.setFab f).out = s.out := (rfl)
@[simp] theorem State.setFab_free (s : State) (f : Fab → Fab) : (s.setFab f).free = s.free := (rfl)
@[simp] theorem State.setFab_reg (s : State) (f : Fab → Fab) (o : Nat) : (s.setFab f).reg o = s.reg o := rfl
@[simp] theorem State.setFab_effReg (s : State) (f : Fab → Fab) (o : Nat) : (s.setFab f).effReg o = s.effReg o := rfl
@[simp] theorem State.setFab_fldR (s : State) (f : Fab → Fab) (o h l : Nat) : (s.setFab f).fldR o h l = s.fldR o h l := rfl
@[simp] theorem State.setFab_effF (s : State) (f : Fab → Fab) (o h l : Nat) : (s.setFab f).effF o h l = s.effF o h l := rfl
@[simp] theorem State.setFab_devState (s : State) (f : Fab → Fab) : (s.setFab f).devState = s.devState := rfl
@[simp] theorem State.setFab_live (s : State) (f : Fab → Fab) : (s.setFab f).live = s.live := rfl
@[simp] theorem State.setFab_tickNum (s : State) (f : Fab → Fab) : (s.setFab f).tickNum = s.tickNum := rfl
@[simp] theorem State.setFab_ctx (s : State) (f : Fab → Fab) (m : Nat) : (s.setFab f).ctx m = s.ctx m := rfl
@[simp] theorem State.setFab_ring (s : State) (f : Fab → Fab) (m : Nat) : (s.setFab f).ring m = s.ring m := rfl
@[simp] theorem State.setFab_entry (s : State) (f : Fab → Fab) (m : Nat) : (s.setFab f).entry m = s.entry m := rfl
@[simp] theorem State.setFab_byteAt (s : State) (f : Fab → Fab) (pa : Nat) : (s.setFab f).byteAt pa = s.byteAt pa := rfl

/-! ### State.setPort -/

@[simp] theorem State.setPort_pending (s : State) (p : Nat) (f : Port → Port) : (s.setPort p f).pending = s.pending := (rfl)
@[simp] theorem State.setPort_regs (s : State) (p : Nat) (f : Port → Port) : (s.setPort p f).regs = s.regs := (rfl)
@[simp] theorem State.setPort_eff (s : State) (p : Nat) (f : Port → Port) : (s.setPort p f).eff = s.eff := (rfl)
@[simp] theorem State.setPort_dev (s : State) (p : Nat) (f : Port → Port) : (s.setPort p f).dev = s.dev := (rfl)
@[simp] theorem State.setPort_fns (s : State) (p : Nat) (f : Port → Port) : (s.setPort p f).fns = s.fns := (rfl)
@[simp] theorem State.setPort_msix (s : State) (p : Nat) (f : Port → Port) : (s.setPort p f).msix = s.msix := (rfl)
@[simp] theorem State.setPort_hol (s : State) (p : Nat) (f : Port → Port) : (s.setPort p f).hol = s.hol := (rfl)
@[simp] theorem State.setPort_tick (s : State) (p : Nat) (f : Port → Port) : (s.setPort p f).tick = s.tick := (rfl)
@[simp] theorem State.setPort_ctxs (s : State) (p : Nat) (f : Port → Port) : (s.setPort p f).ctxs = s.ctxs := (rfl)
@[simp] theorem State.setPort_rings (s : State) (p : Nat) (f : Port → Port) : (s.setPort p f).rings = s.rings := (rfl)
@[simp] theorem State.setPort_flight (s : State) (p : Nat) (f : Port → Port) : (s.setPort p f).flight = s.flight := (rfl)
@[simp] theorem State.setPort_nextId (s : State) (p : Nat) (f : Port → Port) : (s.setPort p f).nextId = s.nextId := (rfl)
@[simp] theorem State.setPort_slots (s : State) (p : Nat) (f : Port → Port) : (s.setPort p f).slots = s.slots := (rfl)
@[simp] theorem State.setPort_images (s : State) (p : Nat) (f : Port → Port) : (s.setPort p f).images = s.images := (rfl)
@[simp] theorem State.setPort_mem (s : State) (p : Nat) (f : Port → Port) : (s.setPort p f).mem = s.mem := (rfl)
@[simp] theorem State.setPort_mig (s : State) (p : Nat) (f : Port → Port) : (s.setPort p f).mig = s.mig := (rfl)
@[simp] theorem State.setPort_retained (s : State) (p : Nat) (f : Port → Port) : (s.setPort p f).retained = s.retained := (rfl)
@[simp] theorem State.setPort_prefetched (s : State) (p : Nat) (f : Port → Port) : (s.setPort p f).prefetched = s.prefetched := (rfl)
@[simp] theorem State.setPort_kv (s : State) (p : Nat) (f : Port → Port) : (s.setPort p f).kv = s.kv := (rfl)
@[simp] theorem State.setPort_pwr (s : State) (p : Nat) (f : Port → Port) : (s.setPort p f).pwr = s.pwr := (rfl)
@[simp] theorem State.setPort_sec (s : State) (p : Nat) (f : Port → Port) : (s.setPort p f).sec = s.sec := (rfl)
@[simp] theorem State.setPort_mgt (s : State) (p : Nat) (f : Port → Port) : (s.setPort p f).mgt = s.mgt := (rfl)
@[simp] theorem State.setPort_out (s : State) (p : Nat) (f : Port → Port) : (s.setPort p f).out = s.out := (rfl)
@[simp] theorem State.setPort_free (s : State) (p : Nat) (f : Port → Port) : (s.setPort p f).free = s.free := (rfl)
@[simp] theorem State.setPort_reg (s : State) (p : Nat) (f : Port → Port) (o : Nat) : (s.setPort p f).reg o = s.reg o := rfl
@[simp] theorem State.setPort_effReg (s : State) (p : Nat) (f : Port → Port) (o : Nat) : (s.setPort p f).effReg o = s.effReg o := rfl
@[simp] theorem State.setPort_fldR (s : State) (p : Nat) (f : Port → Port) (o h l : Nat) : (s.setPort p f).fldR o h l = s.fldR o h l := rfl
@[simp] theorem State.setPort_effF (s : State) (p : Nat) (f : Port → Port) (o h l : Nat) : (s.setPort p f).effF o h l = s.effF o h l := rfl
@[simp] theorem State.setPort_devState (s : State) (p : Nat) (f : Port → Port) : (s.setPort p f).devState = s.devState := rfl
@[simp] theorem State.setPort_live (s : State) (p : Nat) (f : Port → Port) : (s.setPort p f).live = s.live := rfl
@[simp] theorem State.setPort_tickNum (s : State) (p : Nat) (f : Port → Port) : (s.setPort p f).tickNum = s.tickNum := rfl
@[simp] theorem State.setPort_ctx (s : State) (p : Nat) (f : Port → Port) (m : Nat) : (s.setPort p f).ctx m = s.ctx m := rfl
@[simp] theorem State.setPort_ring (s : State) (p : Nat) (f : Port → Port) (m : Nat) : (s.setPort p f).ring m = s.ring m := rfl
@[simp] theorem State.setPort_entry (s : State) (p : Nat) (f : Port → Port) (m : Nat) : (s.setPort p f).entry m = s.entry m := rfl
@[simp] theorem State.setPort_byteAt (s : State) (p : Nat) (f : Port → Port) (pa : Nat) : (s.setPort p f).byteAt pa = s.byteAt pa := rfl

/-! ### State.command -/

@[simp] theorem State.command_regs (s : State) (c : Instr) : (s.command c).regs = s.regs := (rfl)
@[simp] theorem State.command_eff (s : State) (c : Instr) : (s.command c).eff = s.eff := (rfl)
@[simp] theorem State.command_dev (s : State) (c : Instr) : (s.command c).dev = s.dev := (rfl)
@[simp] theorem State.command_fns (s : State) (c : Instr) : (s.command c).fns = s.fns := (rfl)
@[simp] theorem State.command_msix (s : State) (c : Instr) : (s.command c).msix = s.msix := (rfl)
@[simp] theorem State.command_hol (s : State) (c : Instr) : (s.command c).hol = s.hol := (rfl)
@[simp] theorem State.command_tick (s : State) (c : Instr) : (s.command c).tick = s.tick := (rfl)
@[simp] theorem State.command_ctxs (s : State) (c : Instr) : (s.command c).ctxs = s.ctxs := (rfl)
@[simp] theorem State.command_rings (s : State) (c : Instr) : (s.command c).rings = s.rings := (rfl)
@[simp] theorem State.command_flight (s : State) (c : Instr) : (s.command c).flight = s.flight := (rfl)
@[simp] theorem State.command_nextId (s : State) (c : Instr) : (s.command c).nextId = s.nextId := (rfl)
@[simp] theorem State.command_slots (s : State) (c : Instr) : (s.command c).slots = s.slots := (rfl)
@[simp] theorem State.command_images (s : State) (c : Instr) : (s.command c).images = s.images := (rfl)
@[simp] theorem State.command_mem (s : State) (c : Instr) : (s.command c).mem = s.mem := (rfl)
@[simp] theorem State.command_mig (s : State) (c : Instr) : (s.command c).mig = s.mig := (rfl)
@[simp] theorem State.command_retained (s : State) (c : Instr) : (s.command c).retained = s.retained := (rfl)
@[simp] theorem State.command_prefetched (s : State) (c : Instr) : (s.command c).prefetched = s.prefetched := (rfl)
@[simp] theorem State.command_kv (s : State) (c : Instr) : (s.command c).kv = s.kv := (rfl)
@[simp] theorem State.command_pwr (s : State) (c : Instr) : (s.command c).pwr = s.pwr := (rfl)
@[simp] theorem State.command_sec (s : State) (c : Instr) : (s.command c).sec = s.sec := (rfl)
@[simp] theorem State.command_mgt (s : State) (c : Instr) : (s.command c).mgt = s.mgt := (rfl)
@[simp] theorem State.command_fab (s : State) (c : Instr) : (s.command c).fab = s.fab := (rfl)
@[simp] theorem State.command_out (s : State) (c : Instr) : (s.command c).out = s.out := (rfl)
@[simp] theorem State.command_free (s : State) (c : Instr) : (s.command c).free = s.free := (rfl)
@[simp] theorem State.command_reg (s : State) (c : Instr) (o : Nat) : (s.command c).reg o = s.reg o := rfl
@[simp] theorem State.command_effReg (s : State) (c : Instr) (o : Nat) : (s.command c).effReg o = s.effReg o := rfl
@[simp] theorem State.command_fldR (s : State) (c : Instr) (o h l : Nat) : (s.command c).fldR o h l = s.fldR o h l := rfl
@[simp] theorem State.command_effF (s : State) (c : Instr) (o h l : Nat) : (s.command c).effF o h l = s.effF o h l := rfl
@[simp] theorem State.command_devState (s : State) (c : Instr) : (s.command c).devState = s.devState := rfl
@[simp] theorem State.command_live (s : State) (c : Instr) : (s.command c).live = s.live := rfl
@[simp] theorem State.command_tickNum (s : State) (c : Instr) : (s.command c).tickNum = s.tickNum := rfl
@[simp] theorem State.command_ctx (s : State) (c : Instr) (m : Nat) : (s.command c).ctx m = s.ctx m := rfl
@[simp] theorem State.command_ring (s : State) (c : Instr) (m : Nat) : (s.command c).ring m = s.ring m := rfl
@[simp] theorem State.command_entry (s : State) (c : Instr) (m : Nat) : (s.command c).entry m = s.entry m := rfl
@[simp] theorem State.command_byteAt (s : State) (c : Instr) (pa : Nat) : (s.command c).byteAt pa = s.byteAt pa := rfl

/-! ### Reads of what was set -/

@[simp] theorem State.reg_setReg_same (s : State) (off : Nat) (w : Word) : (s.setReg off w).reg off = w :=
  spGet_spSet_same _ _ _ _

@[simp] theorem State.reg_setReg_ne (s : State) (off o : Nat) (w : Word) (h : o ≠ off) : (s.setReg off w).reg o = s.reg o :=
  spGet_spSet_ne _ _ _ _ _ _ h

theorem State.reg_setReg (s : State) (off o : Nat) (w : Word) : (s.setReg off w).reg o = if o = off then w else s.reg o := by
  by_cases h : o = off
  · subst h; simp
  · simp [h]

theorem State.reg_setF (s : State) (off hi lo v o : Nat) :
    (s.setF off hi lo v).reg o = if o = off then setFld (s.reg off) hi lo v else s.reg o := State.reg_setReg _ _ _ _

@[simp] theorem State.reg_setF_same (s : State) (off hi lo v : Nat) :
    (s.setF off hi lo v).reg off = setFld (s.reg off) hi lo v := State.reg_setReg_same _ _ _

@[simp] theorem State.reg_setF_ne (s : State) (off hi lo v o : Nat) (h : o ≠ off) : (s.setF off hi lo v).reg o = s.reg o :=
  State.reg_setReg_ne _ _ _ _ h

theorem State.reg_addF (s : State) (off hi lo n o : Nat) :
    (s.addF off hi lo n).reg o = if o = off then setFld (s.reg off) hi lo (s.fldR off hi lo + n) else s.reg o :=
  State.reg_setReg _ _ _ _

@[simp] theorem State.reg_addF_ne (s : State) (off hi lo n o : Nat) (h : o ≠ off) : (s.addF off hi lo n).reg o = s.reg o :=
  State.reg_setReg_ne _ _ _ _ h

@[simp] theorem State.reg_satF_ne (s : State) (off hi lo n o : Nat) (h : o ≠ off) : (s.satF off hi lo n).reg o = s.reg o :=
  State.reg_setReg_ne _ _ _ _ h

@[simp] theorem State.reg_maxF_ne (s : State) (off hi lo n o : Nat) (h : o ≠ off) : (s.maxF off hi lo n).reg o = s.reg o :=
  State.reg_setReg_ne _ _ _ _ h

/-- A field just set reads the value, cut to its width. -/
theorem State.fldR_setF_same (s : State) (off hi lo v : Nat) (h : lo ≤ hi) (h64 : hi < 64) :
    (s.setF off hi lo v).fldR off hi lo = v % 2 ^ (hi + 1 - lo) := by
  rw [State.fldR, State.reg_setF_same, fld_setFld_same _ _ _ _ h h64]

/-- A disjoint field of the register keeps its value. -/
theorem State.fldR_setF_disjoint (s : State) (off hi lo v hi' lo' : Nat) (h : lo ≤ hi) (h64 : hi < 64)
    (hd : hi' < lo ∨ hi < lo') : (s.setF off hi lo v).fldR off hi' lo' = s.fldR off hi' lo' := by
  rw [State.fldR, State.reg_setF_same, fld_setFld_ne _ _ _ _ _ _ h h64 hd, State.fldR]

@[simp] theorem State.fldR_setF_ne (s : State) (off hi lo v o hi' lo' : Nat) (h : o ≠ off) :
    (s.setF off hi lo v).fldR o hi' lo' = s.fldR o hi' lo' := by rw [State.fldR, State.reg_setF_ne _ _ _ _ _ _ h, State.fldR]

/-- A counter that wraps, just added to. -/
theorem State.fldR_addF_same (s : State) (off hi lo n : Nat) (h : lo ≤ hi) (h64 : hi < 64) :
    (s.addF off hi lo n).fldR off hi lo = (s.fldR off hi lo + n) % 2 ^ (hi + 1 - lo) := State.fldR_setF_same _ _ _ _ _ h h64

@[simp] theorem State.effReg_setEff_same (s : State) (off : Nat) (w : Word) : (s.setEff off w).effReg off = w :=
  spGet_spSet_same _ _ _ _

@[simp] theorem State.effReg_setEff_ne (s : State) (off o : Nat) (w : Word) (h : o ≠ off) :
    (s.setEff off w).effReg o = s.effReg o := spGet_spSet_ne _ _ _ _ _ _ h

@[simp] theorem State.ctx_setCtx_same (s : State) (n : Nat) (c : Ctx) : (s.setCtx n c).ctx n = c := spGet_spSet_same _ _ _ _

@[simp] theorem State.ctx_setCtx_ne (s : State) (n m : Nat) (c : Ctx) (h : m ≠ n) : (s.setCtx n c).ctx m = s.ctx m :=
  spGet_spSet_ne _ _ _ _ _ _ h

@[simp] theorem State.ring_setRing_same (s : State) (r : Nat) (g : Ring) : (s.setRing r g).ring r = g :=
  spGet_spSet_same _ _ _ _

@[simp] theorem State.ring_setRing_ne (s : State) (r q : Nat) (g : Ring) (h : q ≠ r) : (s.setRing r g).ring q = s.ring q :=
  spGet_spSet_ne _ _ _ _ _ _ h

/-- Setting a register keeps the register file canonical, and so does setting a value in force. -/
theorem State.setReg_registers_wf (s : State) (off : Nat) (w : Word) (h : Registers.wf s = true) :
    Registers.wf (s.setReg off w) = true := by
  simp only [Registers.wf, Bool.and_eq_true] at h ⊢
  exact ⟨spWf_spSet regReset _ _ _ h.1, h.2⟩

theorem State.setEff_registers_wf (s : State) (off : Nat) (w : Word) (h : Registers.wf s = true) :
    Registers.wf (s.setEff off w) = true := by
  simp only [Registers.wf, Bool.and_eq_true] at h ⊢
  exact ⟨h.1, spWf_spSet regReset _ _ _ h.2⟩

end Sys2Proof.Machine
end

