-- ==== Sys2Proof/Laws/Ops.lean ====
section
/-!
SUPPORT. What each shared operation can change: its frame, field by field, and what it does to the registers it names.
-/
namespace Sys2Proof.Machine

/-! ### tally -/

@[simp] theorem tally_pending (s : State) (k n : Nat) : (tally s k n).pending = s.pending := by unfold tally; split <;> simp
@[simp] theorem tally_regs (s : State) (k n : Nat) : (tally s k n).regs = s.regs := by unfold tally; split <;> simp
@[simp] theorem tally_eff (s : State) (k n : Nat) : (tally s k n).eff = s.eff := by unfold tally; split <;> simp
@[simp] theorem tally_dev (s : State) (k n : Nat) : (tally s k n).dev = s.dev := by unfold tally; split <;> simp
@[simp] theorem tally_fns (s : State) (k n : Nat) : (tally s k n).fns = s.fns := by unfold tally; split <;> simp
@[simp] theorem tally_msix (s : State) (k n : Nat) : (tally s k n).msix = s.msix := by unfold tally; split <;> simp
@[simp] theorem tally_hol (s : State) (k n : Nat) : (tally s k n).hol = s.hol := by unfold tally; split <;> simp
@[simp] theorem tally_ctxs (s : State) (k n : Nat) : (tally s k n).ctxs = s.ctxs := by unfold tally; split <;> simp
@[simp] theorem tally_rings (s : State) (k n : Nat) : (tally s k n).rings = s.rings := by unfold tally; split <;> simp
@[simp] theorem tally_flight (s : State) (k n : Nat) : (tally s k n).flight = s.flight := by unfold tally; split <;> simp
@[simp] theorem tally_nextId (s : State) (k n : Nat) : (tally s k n).nextId = s.nextId := by unfold tally; split <;> simp
@[simp] theorem tally_slots (s : State) (k n : Nat) : (tally s k n).slots = s.slots := by unfold tally; split <;> simp
@[simp] theorem tally_images (s : State) (k n : Nat) : (tally s k n).images = s.images := by unfold tally; split <;> simp
@[simp] theorem tally_mem (s : State) (k n : Nat) : (tally s k n).mem = s.mem := by unfold tally; split <;> simp
@[simp] theorem tally_mig (s : State) (k n : Nat) : (tally s k n).mig = s.mig := by unfold tally; split <;> simp
@[simp] theorem tally_retained (s : State) (k n : Nat) : (tally s k n).retained = s.retained := by unfold tally; split <;> simp
@[simp] theorem tally_prefetched (s : State) (k n : Nat) : (tally s k n).prefetched = s.prefetched := by unfold tally; split <;> simp
@[simp] theorem tally_kv (s : State) (k n : Nat) : (tally s k n).kv = s.kv := by unfold tally; split <;> simp
@[simp] theorem tally_pwr (s : State) (k n : Nat) : (tally s k n).pwr = s.pwr := by unfold tally; split <;> simp
@[simp] theorem tally_sec (s : State) (k n : Nat) : (tally s k n).sec = s.sec := by unfold tally; split <;> simp
@[simp] theorem tally_mgt (s : State) (k n : Nat) : (tally s k n).mgt = s.mgt := by unfold tally; split <;> simp
@[simp] theorem tally_fab (s : State) (k n : Nat) : (tally s k n).fab = s.fab := by unfold tally; split <;> simp
@[simp] theorem tally_out (s : State) (k n : Nat) : (tally s k n).out = s.out := by unfold tally; split <;> simp
@[simp] theorem tally_free (s : State) (k n : Nat) : (tally s k n).free = s.free := by unfold tally; split <;> simp
@[simp] theorem tally_reg (s : State) (k n : Nat) (o : Nat) : (tally s k n).reg o = s.reg o := by simp only [State.reg, tally_regs]
@[simp] theorem tally_effReg (s : State) (k n : Nat) (o : Nat) : (tally s k n).effReg o = s.effReg o := by simp only [State.effReg, tally_eff]
@[simp] theorem tally_fldR (s : State) (k n : Nat) (o h l : Nat) : (tally s k n).fldR o h l = s.fldR o h l := by simp only [State.fldR, State.reg, tally_regs]
@[simp] theorem tally_effF (s : State) (k n : Nat) (o h l : Nat) : (tally s k n).effF o h l = s.effF o h l := by simp only [State.effF, State.effReg, tally_eff]
@[simp] theorem tally_devState (s : State) (k n : Nat)  : (tally s k n).devState = s.devState := by simp only [State.devState, State.fldR, State.reg, tally_regs]
@[simp] theorem tally_live (s : State) (k n : Nat)  : (tally s k n).live = s.live := by simp only [State.live, tally_devState]
@[simp] theorem tally_tickNum (s : State) (k n : Nat)  : (tally s k n).tickNum = s.tickNum := by simp only [State.tickNum, State.fldR, State.reg, tally_regs]
@[simp] theorem tally_ctx (s : State) (k n : Nat) (m : Nat) : (tally s k n).ctx m = s.ctx m := by simp only [State.ctx, tally_ctxs]
@[simp] theorem tally_ring (s : State) (k n : Nat) (m : Nat) : (tally s k n).ring m = s.ring m := by simp only [State.ring, tally_rings]
@[simp] theorem tally_entry (s : State) (k n : Nat) (m : Nat) : (tally s k n).entry m = s.entry m := by simp only [State.entry, tally_flight]
@[simp] theorem tally_byteAt (s : State) (k n : Nat) (pa : Nat) : (tally s k n).byteAt pa = s.byteAt pa := by simp only [State.byteAt, tally_mem]

/-! ### tallyMax -/

@[simp] theorem tallyMax_pending (s : State) (k n : Nat) : (tallyMax s k n).pending = s.pending := by unfold tallyMax; split <;> simp
@[simp] theorem tallyMax_regs (s : State) (k n : Nat) : (tallyMax s k n).regs = s.regs := by unfold tallyMax; split <;> simp
@[simp] theorem tallyMax_eff (s : State) (k n : Nat) : (tallyMax s k n).eff = s.eff := by unfold tallyMax; split <;> simp
@[simp] theorem tallyMax_dev (s : State) (k n : Nat) : (tallyMax s k n).dev = s.dev := by unfold tallyMax; split <;> simp
@[simp] theorem tallyMax_fns (s : State) (k n : Nat) : (tallyMax s k n).fns = s.fns := by unfold tallyMax; split <;> simp
@[simp] theorem tallyMax_msix (s : State) (k n : Nat) : (tallyMax s k n).msix = s.msix := by unfold tallyMax; split <;> simp
@[simp] theorem tallyMax_hol (s : State) (k n : Nat) : (tallyMax s k n).hol = s.hol := by unfold tallyMax; split <;> simp
@[simp] theorem tallyMax_ctxs (s : State) (k n : Nat) : (tallyMax s k n).ctxs = s.ctxs := by unfold tallyMax; split <;> simp
@[simp] theorem tallyMax_rings (s : State) (k n : Nat) : (tallyMax s k n).rings = s.rings := by unfold tallyMax; split <;> simp
@[simp] theorem tallyMax_flight (s : State) (k n : Nat) : (tallyMax s k n).flight = s.flight := by unfold tallyMax; split <;> simp
@[simp] theorem tallyMax_nextId (s : State) (k n : Nat) : (tallyMax s k n).nextId = s.nextId := by unfold tallyMax; split <;> simp
@[simp] theorem tallyMax_slots (s : State) (k n : Nat) : (tallyMax s k n).slots = s.slots := by unfold tallyMax; split <;> simp
@[simp] theorem tallyMax_images (s : State) (k n : Nat) : (tallyMax s k n).images = s.images := by unfold tallyMax; split <;> simp
@[simp] theorem tallyMax_mem (s : State) (k n : Nat) : (tallyMax s k n).mem = s.mem := by unfold tallyMax; split <;> simp
@[simp] theorem tallyMax_mig (s : State) (k n : Nat) : (tallyMax s k n).mig = s.mig := by unfold tallyMax; split <;> simp
@[simp] theorem tallyMax_retained (s : State) (k n : Nat) : (tallyMax s k n).retained = s.retained := by unfold tallyMax; split <;> simp
@[simp] theorem tallyMax_prefetched (s : State) (k n : Nat) : (tallyMax s k n).prefetched = s.prefetched := by unfold tallyMax; split <;> simp
@[simp] theorem tallyMax_kv (s : State) (k n : Nat) : (tallyMax s k n).kv = s.kv := by unfold tallyMax; split <;> simp
@[simp] theorem tallyMax_pwr (s : State) (k n : Nat) : (tallyMax s k n).pwr = s.pwr := by unfold tallyMax; split <;> simp
@[simp] theorem tallyMax_sec (s : State) (k n : Nat) : (tallyMax s k n).sec = s.sec := by unfold tallyMax; split <;> simp
@[simp] theorem tallyMax_mgt (s : State) (k n : Nat) : (tallyMax s k n).mgt = s.mgt := by unfold tallyMax; split <;> simp
@[simp] theorem tallyMax_fab (s : State) (k n : Nat) : (tallyMax s k n).fab = s.fab := by unfold tallyMax; split <;> simp
@[simp] theorem tallyMax_out (s : State) (k n : Nat) : (tallyMax s k n).out = s.out := by unfold tallyMax; split <;> simp
@[simp] theorem tallyMax_free (s : State) (k n : Nat) : (tallyMax s k n).free = s.free := by unfold tallyMax; split <;> simp
@[simp] theorem tallyMax_reg (s : State) (k n : Nat) (o : Nat) : (tallyMax s k n).reg o = s.reg o := by simp only [State.reg, tallyMax_regs]
@[simp] theorem tallyMax_effReg (s : State) (k n : Nat) (o : Nat) : (tallyMax s k n).effReg o = s.effReg o := by simp only [State.effReg, tallyMax_eff]
@[simp] theorem tallyMax_fldR (s : State) (k n : Nat) (o h l : Nat) : (tallyMax s k n).fldR o h l = s.fldR o h l := by simp only [State.fldR, State.reg, tallyMax_regs]
@[simp] theorem tallyMax_effF (s : State) (k n : Nat) (o h l : Nat) : (tallyMax s k n).effF o h l = s.effF o h l := by simp only [State.effF, State.effReg, tallyMax_eff]
@[simp] theorem tallyMax_devState (s : State) (k n : Nat)  : (tallyMax s k n).devState = s.devState := by simp only [State.devState, State.fldR, State.reg, tallyMax_regs]
@[simp] theorem tallyMax_live (s : State) (k n : Nat)  : (tallyMax s k n).live = s.live := by simp only [State.live, tallyMax_devState]
@[simp] theorem tallyMax_tickNum (s : State) (k n : Nat)  : (tallyMax s k n).tickNum = s.tickNum := by simp only [State.tickNum, State.fldR, State.reg, tallyMax_regs]
@[simp] theorem tallyMax_ctx (s : State) (k n : Nat) (m : Nat) : (tallyMax s k n).ctx m = s.ctx m := by simp only [State.ctx, tallyMax_ctxs]
@[simp] theorem tallyMax_ring (s : State) (k n : Nat) (m : Nat) : (tallyMax s k n).ring m = s.ring m := by simp only [State.ring, tallyMax_rings]
@[simp] theorem tallyMax_entry (s : State) (k n : Nat) (m : Nat) : (tallyMax s k n).entry m = s.entry m := by simp only [State.entry, tallyMax_flight]
@[simp] theorem tallyMax_byteAt (s : State) (k n : Nat) (pa : Nat) : (tallyMax s k n).byteAt pa = s.byteAt pa := by simp only [State.byteAt, tallyMax_mem]

/-! ### signalMsi -/

@[simp] theorem signalMsi_pending (s : State) (fn v : Nat) : (signalMsi s fn v).pending = s.pending := by unfold signalMsi; split <;> simp
@[simp] theorem signalMsi_regs (s : State) (fn v : Nat) : (signalMsi s fn v).regs = s.regs := by unfold signalMsi; split <;> simp
@[simp] theorem signalMsi_eff (s : State) (fn v : Nat) : (signalMsi s fn v).eff = s.eff := by unfold signalMsi; split <;> simp
@[simp] theorem signalMsi_dev (s : State) (fn v : Nat) : (signalMsi s fn v).dev = s.dev := by unfold signalMsi; split <;> simp
@[simp] theorem signalMsi_fns (s : State) (fn v : Nat) : (signalMsi s fn v).fns = s.fns := by unfold signalMsi; split <;> simp
@[simp] theorem signalMsi_hol (s : State) (fn v : Nat) : (signalMsi s fn v).hol = s.hol := by unfold signalMsi; split <;> simp
@[simp] theorem signalMsi_tick (s : State) (fn v : Nat) : (signalMsi s fn v).tick = s.tick := by unfold signalMsi; split <;> simp
@[simp] theorem signalMsi_ctxs (s : State) (fn v : Nat) : (signalMsi s fn v).ctxs = s.ctxs := by unfold signalMsi; split <;> simp
@[simp] theorem signalMsi_rings (s : State) (fn v : Nat) : (signalMsi s fn v).rings = s.rings := by unfold signalMsi; split <;> simp
@[simp] theorem signalMsi_flight (s : State) (fn v : Nat) : (signalMsi s fn v).flight = s.flight := by unfold signalMsi; split <;> simp
@[simp] theorem signalMsi_nextId (s : State) (fn v : Nat) : (signalMsi s fn v).nextId = s.nextId := by unfold signalMsi; split <;> simp
@[simp] theorem signalMsi_slots (s : State) (fn v : Nat) : (signalMsi s fn v).slots = s.slots := by unfold signalMsi; split <;> simp
@[simp] theorem signalMsi_images (s : State) (fn v : Nat) : (signalMsi s fn v).images = s.images := by unfold signalMsi; split <;> simp
@[simp] theorem signalMsi_mem (s : State) (fn v : Nat) : (signalMsi s fn v).mem = s.mem := by unfold signalMsi; split <;> simp
@[simp] theorem signalMsi_mig (s : State) (fn v : Nat) : (signalMsi s fn v).mig = s.mig := by unfold signalMsi; split <;> simp
@[simp] theorem signalMsi_retained (s : State) (fn v : Nat) : (signalMsi s fn v).retained = s.retained := by unfold signalMsi; split <;> simp
@[simp] theorem signalMsi_prefetched (s : State) (fn v : Nat) : (signalMsi s fn v).prefetched = s.prefetched := by unfold signalMsi; split <;> simp
@[simp] theorem signalMsi_kv (s : State) (fn v : Nat) : (signalMsi s fn v).kv = s.kv := by unfold signalMsi; split <;> simp
@[simp] theorem signalMsi_pwr (s : State) (fn v : Nat) : (signalMsi s fn v).pwr = s.pwr := by unfold signalMsi; split <;> simp
@[simp] theorem signalMsi_sec (s : State) (fn v : Nat) : (signalMsi s fn v).sec = s.sec := by unfold signalMsi; split <;> simp
@[simp] theorem signalMsi_mgt (s : State) (fn v : Nat) : (signalMsi s fn v).mgt = s.mgt := by unfold signalMsi; split <;> simp
@[simp] theorem signalMsi_fab (s : State) (fn v : Nat) : (signalMsi s fn v).fab = s.fab := by unfold signalMsi; split <;> simp
@[simp] theorem signalMsi_free (s : State) (fn v : Nat) : (signalMsi s fn v).free = s.free := by unfold signalMsi; split <;> simp
@[simp] theorem signalMsi_reg (s : State) (fn v : Nat) (o : Nat) : (signalMsi s fn v).reg o = s.reg o := by simp only [State.reg, signalMsi_regs]
@[simp] theorem signalMsi_effReg (s : State) (fn v : Nat) (o : Nat) : (signalMsi s fn v).effReg o = s.effReg o := by simp only [State.effReg, signalMsi_eff]
@[simp] theorem signalMsi_fldR (s : State) (fn v : Nat) (o h l : Nat) : (signalMsi s fn v).fldR o h l = s.fldR o h l := by simp only [State.fldR, State.reg, signalMsi_regs]
@[simp] theorem signalMsi_effF (s : State) (fn v : Nat) (o h l : Nat) : (signalMsi s fn v).effF o h l = s.effF o h l := by simp only [State.effF, State.effReg, signalMsi_eff]
@[simp] theorem signalMsi_devState (s : State) (fn v : Nat)  : (signalMsi s fn v).devState = s.devState := by simp only [State.devState, State.fldR, State.reg, signalMsi_regs]
@[simp] theorem signalMsi_live (s : State) (fn v : Nat)  : (signalMsi s fn v).live = s.live := by simp only [State.live, signalMsi_devState]
@[simp] theorem signalMsi_tickNum (s : State) (fn v : Nat)  : (signalMsi s fn v).tickNum = s.tickNum := by simp only [State.tickNum, State.fldR, State.reg, signalMsi_regs]
@[simp] theorem signalMsi_ctx (s : State) (fn v : Nat) (m : Nat) : (signalMsi s fn v).ctx m = s.ctx m := by simp only [State.ctx, signalMsi_ctxs]
@[simp] theorem signalMsi_ring (s : State) (fn v : Nat) (m : Nat) : (signalMsi s fn v).ring m = s.ring m := by simp only [State.ring, signalMsi_rings]
@[simp] theorem signalMsi_entry (s : State) (fn v : Nat) (m : Nat) : (signalMsi s fn v).entry m = s.entry m := by simp only [State.entry, signalMsi_flight]
@[simp] theorem signalMsi_byteAt (s : State) (fn v : Nat) (pa : Nat) : (signalMsi s fn v).byteAt pa = s.byteAt pa := by simp only [State.byteAt, signalMsi_mem]

/-! ### signalPwr -/

@[simp] theorem signalPwr_pending (s : State)  : (signalPwr s).pending = s.pending := by unfold signalPwr; split <;> simp
@[simp] theorem signalPwr_regs (s : State)  : (signalPwr s).regs = s.regs := by unfold signalPwr; split <;> simp
@[simp] theorem signalPwr_eff (s : State)  : (signalPwr s).eff = s.eff := by unfold signalPwr; split <;> simp
@[simp] theorem signalPwr_dev (s : State)  : (signalPwr s).dev = s.dev := by unfold signalPwr; split <;> simp
@[simp] theorem signalPwr_fns (s : State)  : (signalPwr s).fns = s.fns := by unfold signalPwr; split <;> simp
@[simp] theorem signalPwr_hol (s : State)  : (signalPwr s).hol = s.hol := by unfold signalPwr; split <;> simp
@[simp] theorem signalPwr_tick (s : State)  : (signalPwr s).tick = s.tick := by unfold signalPwr; split <;> simp
@[simp] theorem signalPwr_ctxs (s : State)  : (signalPwr s).ctxs = s.ctxs := by unfold signalPwr; split <;> simp
@[simp] theorem signalPwr_rings (s : State)  : (signalPwr s).rings = s.rings := by unfold signalPwr; split <;> simp
@[simp] theorem signalPwr_flight (s : State)  : (signalPwr s).flight = s.flight := by unfold signalPwr; split <;> simp
@[simp] theorem signalPwr_nextId (s : State)  : (signalPwr s).nextId = s.nextId := by unfold signalPwr; split <;> simp
@[simp] theorem signalPwr_slots (s : State)  : (signalPwr s).slots = s.slots := by unfold signalPwr; split <;> simp
@[simp] theorem signalPwr_images (s : State)  : (signalPwr s).images = s.images := by unfold signalPwr; split <;> simp
@[simp] theorem signalPwr_mem (s : State)  : (signalPwr s).mem = s.mem := by unfold signalPwr; split <;> simp
@[simp] theorem signalPwr_mig (s : State)  : (signalPwr s).mig = s.mig := by unfold signalPwr; split <;> simp
@[simp] theorem signalPwr_retained (s : State)  : (signalPwr s).retained = s.retained := by unfold signalPwr; split <;> simp
@[simp] theorem signalPwr_prefetched (s : State)  : (signalPwr s).prefetched = s.prefetched := by unfold signalPwr; split <;> simp
@[simp] theorem signalPwr_kv (s : State)  : (signalPwr s).kv = s.kv := by unfold signalPwr; split <;> simp
@[simp] theorem signalPwr_pwr (s : State)  : (signalPwr s).pwr = s.pwr := by unfold signalPwr; split <;> simp
@[simp] theorem signalPwr_sec (s : State)  : (signalPwr s).sec = s.sec := by unfold signalPwr; split <;> simp
@[simp] theorem signalPwr_mgt (s : State)  : (signalPwr s).mgt = s.mgt := by unfold signalPwr; split <;> simp
@[simp] theorem signalPwr_fab (s : State)  : (signalPwr s).fab = s.fab := by unfold signalPwr; split <;> simp
@[simp] theorem signalPwr_free (s : State)  : (signalPwr s).free = s.free := by unfold signalPwr; split <;> simp
@[simp] theorem signalPwr_reg (s : State)  (o : Nat) : (signalPwr s).reg o = s.reg o := by simp only [State.reg, signalPwr_regs]
@[simp] theorem signalPwr_effReg (s : State)  (o : Nat) : (signalPwr s).effReg o = s.effReg o := by simp only [State.effReg, signalPwr_eff]
@[simp] theorem signalPwr_fldR (s : State)  (o h l : Nat) : (signalPwr s).fldR o h l = s.fldR o h l := by simp only [State.fldR, State.reg, signalPwr_regs]
@[simp] theorem signalPwr_effF (s : State)  (o h l : Nat) : (signalPwr s).effF o h l = s.effF o h l := by simp only [State.effF, State.effReg, signalPwr_eff]
@[simp] theorem signalPwr_devState (s : State)   : (signalPwr s).devState = s.devState := by simp only [State.devState, State.fldR, State.reg, signalPwr_regs]
@[simp] theorem signalPwr_live (s : State)   : (signalPwr s).live = s.live := by simp only [State.live, signalPwr_devState]
@[simp] theorem signalPwr_tickNum (s : State)   : (signalPwr s).tickNum = s.tickNum := by simp only [State.tickNum, State.fldR, State.reg, signalPwr_regs]
@[simp] theorem signalPwr_ctx (s : State)  (m : Nat) : (signalPwr s).ctx m = s.ctx m := by simp only [State.ctx, signalPwr_ctxs]
@[simp] theorem signalPwr_ring (s : State)  (m : Nat) : (signalPwr s).ring m = s.ring m := by simp only [State.ring, signalPwr_rings]
@[simp] theorem signalPwr_entry (s : State)  (m : Nat) : (signalPwr s).entry m = s.entry m := by simp only [State.entry, signalPwr_flight]
@[simp] theorem signalPwr_byteAt (s : State)  (pa : Nat) : (signalPwr s).byteAt pa = s.byteAt pa := by simp only [State.byteAt, signalPwr_mem]

/-! ### platformEvent -/

@[simp] theorem platformEvent_pending (s : State) (k d : Nat) : (platformEvent s k d).pending = s.pending := by unfold platformEvent; split <;> [rfl; (dsimp only; split <;> simp)]
@[simp] theorem platformEvent_eff (s : State) (k d : Nat) : (platformEvent s k d).eff = s.eff := by unfold platformEvent; split <;> [rfl; (dsimp only; split <;> simp)]
@[simp] theorem platformEvent_dev (s : State) (k d : Nat) : (platformEvent s k d).dev = s.dev := by unfold platformEvent; split <;> [rfl; (dsimp only; split <;> simp)]
@[simp] theorem platformEvent_fns (s : State) (k d : Nat) : (platformEvent s k d).fns = s.fns := by unfold platformEvent; split <;> [rfl; (dsimp only; split <;> simp)]
@[simp] theorem platformEvent_msix (s : State) (k d : Nat) : (platformEvent s k d).msix = s.msix := by unfold platformEvent; split <;> [rfl; (dsimp only; split <;> simp)]
@[simp] theorem platformEvent_hol (s : State) (k d : Nat) : (platformEvent s k d).hol = s.hol := by unfold platformEvent; split <;> [rfl; (dsimp only; split <;> simp)]
@[simp] theorem platformEvent_tick (s : State) (k d : Nat) : (platformEvent s k d).tick = s.tick := by unfold platformEvent; split <;> [rfl; (dsimp only; split <;> simp)]
@[simp] theorem platformEvent_ctxs (s : State) (k d : Nat) : (platformEvent s k d).ctxs = s.ctxs := by unfold platformEvent; split <;> [rfl; (dsimp only; split <;> simp)]
@[simp] theorem platformEvent_rings (s : State) (k d : Nat) : (platformEvent s k d).rings = s.rings := by unfold platformEvent; split <;> [rfl; (dsimp only; split <;> simp)]
@[simp] theorem platformEvent_flight (s : State) (k d : Nat) : (platformEvent s k d).flight = s.flight := by unfold platformEvent; split <;> [rfl; (dsimp only; split <;> simp)]
@[simp] theorem platformEvent_nextId (s : State) (k d : Nat) : (platformEvent s k d).nextId = s.nextId := by unfold platformEvent; split <;> [rfl; (dsimp only; split <;> simp)]
@[simp] theorem platformEvent_slots (s : State) (k d : Nat) : (platformEvent s k d).slots = s.slots := by unfold platformEvent; split <;> [rfl; (dsimp only; split <;> simp)]
@[simp] theorem platformEvent_images (s : State) (k d : Nat) : (platformEvent s k d).images = s.images := by unfold platformEvent; split <;> [rfl; (dsimp only; split <;> simp)]
@[simp] theorem platformEvent_mem (s : State) (k d : Nat) : (platformEvent s k d).mem = s.mem := by unfold platformEvent; split <;> [rfl; (dsimp only; split <;> simp)]
@[simp] theorem platformEvent_mig (s : State) (k d : Nat) : (platformEvent s k d).mig = s.mig := by unfold platformEvent; split <;> [rfl; (dsimp only; split <;> simp)]
@[simp] theorem platformEvent_retained (s : State) (k d : Nat) : (platformEvent s k d).retained = s.retained := by unfold platformEvent; split <;> [rfl; (dsimp only; split <;> simp)]
@[simp] theorem platformEvent_prefetched (s : State) (k d : Nat) : (platformEvent s k d).prefetched = s.prefetched := by unfold platformEvent; split <;> [rfl; (dsimp only; split <;> simp)]
@[simp] theorem platformEvent_kv (s : State) (k d : Nat) : (platformEvent s k d).kv = s.kv := by unfold platformEvent; split <;> [rfl; (dsimp only; split <;> simp)]
@[simp] theorem platformEvent_pwr (s : State) (k d : Nat) : (platformEvent s k d).pwr = s.pwr := by unfold platformEvent; split <;> [rfl; (dsimp only; split <;> simp)]
@[simp] theorem platformEvent_sec (s : State) (k d : Nat) : (platformEvent s k d).sec = s.sec := by unfold platformEvent; split <;> [rfl; (dsimp only; split <;> simp)]
@[simp] theorem platformEvent_fab (s : State) (k d : Nat) : (platformEvent s k d).fab = s.fab := by unfold platformEvent; split <;> [rfl; (dsimp only; split <;> simp)]
@[simp] theorem platformEvent_free (s : State) (k d : Nat) : (platformEvent s k d).free = s.free := by unfold platformEvent; split <;> [rfl; (dsimp only; split <;> simp)]
@[simp] theorem platformEvent_effReg (s : State) (k d : Nat) (o : Nat) : (platformEvent s k d).effReg o = s.effReg o := by simp only [State.effReg, platformEvent_eff]
@[simp] theorem platformEvent_effF (s : State) (k d : Nat) (o h l : Nat) : (platformEvent s k d).effF o h l = s.effF o h l := by simp only [State.effF, State.effReg, platformEvent_eff]
@[simp] theorem platformEvent_ctx (s : State) (k d : Nat) (m : Nat) : (platformEvent s k d).ctx m = s.ctx m := by simp only [State.ctx, platformEvent_ctxs]
@[simp] theorem platformEvent_ring (s : State) (k d : Nat) (m : Nat) : (platformEvent s k d).ring m = s.ring m := by simp only [State.ring, platformEvent_rings]
@[simp] theorem platformEvent_entry (s : State) (k d : Nat) (m : Nat) : (platformEvent s k d).entry m = s.entry m := by simp only [State.entry, platformEvent_flight]
@[simp] theorem platformEvent_byteAt (s : State) (k d : Nat) (pa : Nat) : (platformEvent s k d).byteAt pa = s.byteAt pa := by simp only [State.byteAt, platformEvent_mem]

theorem platformEvent_reg (s : State) (k d off : Nat) (h : off ≠ Reg.MGT_STAT) : (platformEvent s k d).reg off = s.reg off := by
  unfold platformEvent
  split
  · rfl
  · dsimp only
    split
    · simp [h]
    · simp

/-! ### logInsert -/

@[simp] theorem logInsert_pending (s : State) (a : LogArgs) : (logInsert s a).pending = s.pending := by unfold logInsert; dsimp only; (repeat' split) <;> simp
@[simp] theorem logInsert_eff (s : State) (a : LogArgs) : (logInsert s a).eff = s.eff := by unfold logInsert; dsimp only; (repeat' split) <;> simp
@[simp] theorem logInsert_dev (s : State) (a : LogArgs) : (logInsert s a).dev = s.dev := by unfold logInsert; dsimp only; (repeat' split) <;> simp
@[simp] theorem logInsert_fns (s : State) (a : LogArgs) : (logInsert s a).fns = s.fns := by unfold logInsert; dsimp only; (repeat' split) <;> simp
@[simp] theorem logInsert_msix (s : State) (a : LogArgs) : (logInsert s a).msix = s.msix := by unfold logInsert; dsimp only; (repeat' split) <;> simp
@[simp] theorem logInsert_hol (s : State) (a : LogArgs) : (logInsert s a).hol = s.hol := by unfold logInsert; dsimp only; (repeat' split) <;> simp
@[simp] theorem logInsert_tick (s : State) (a : LogArgs) : (logInsert s a).tick = s.tick := by unfold logInsert; dsimp only; (repeat' split) <;> simp
@[simp] theorem logInsert_ctxs (s : State) (a : LogArgs) : (logInsert s a).ctxs = s.ctxs := by unfold logInsert; dsimp only; (repeat' split) <;> simp
@[simp] theorem logInsert_rings (s : State) (a : LogArgs) : (logInsert s a).rings = s.rings := by unfold logInsert; dsimp only; (repeat' split) <;> simp
@[simp] theorem logInsert_flight (s : State) (a : LogArgs) : (logInsert s a).flight = s.flight := by unfold logInsert; dsimp only; (repeat' split) <;> simp
@[simp] theorem logInsert_nextId (s : State) (a : LogArgs) : (logInsert s a).nextId = s.nextId := by unfold logInsert; dsimp only; (repeat' split) <;> simp
@[simp] theorem logInsert_slots (s : State) (a : LogArgs) : (logInsert s a).slots = s.slots := by unfold logInsert; dsimp only; (repeat' split) <;> simp
@[simp] theorem logInsert_images (s : State) (a : LogArgs) : (logInsert s a).images = s.images := by unfold logInsert; dsimp only; (repeat' split) <;> simp
@[simp] theorem logInsert_mem (s : State) (a : LogArgs) : (logInsert s a).mem = s.mem := by unfold logInsert; dsimp only; (repeat' split) <;> simp
@[simp] theorem logInsert_mig (s : State) (a : LogArgs) : (logInsert s a).mig = s.mig := by unfold logInsert; dsimp only; (repeat' split) <;> simp
@[simp] theorem logInsert_retained (s : State) (a : LogArgs) : (logInsert s a).retained = s.retained := by unfold logInsert; dsimp only; (repeat' split) <;> simp
@[simp] theorem logInsert_prefetched (s : State) (a : LogArgs) : (logInsert s a).prefetched = s.prefetched := by unfold logInsert; dsimp only; (repeat' split) <;> simp
@[simp] theorem logInsert_kv (s : State) (a : LogArgs) : (logInsert s a).kv = s.kv := by unfold logInsert; dsimp only; (repeat' split) <;> simp
@[simp] theorem logInsert_pwr (s : State) (a : LogArgs) : (logInsert s a).pwr = s.pwr := by unfold logInsert; dsimp only; (repeat' split) <;> simp
@[simp] theorem logInsert_sec (s : State) (a : LogArgs) : (logInsert s a).sec = s.sec := by unfold logInsert; dsimp only; (repeat' split) <;> simp
@[simp] theorem logInsert_fab (s : State) (a : LogArgs) : (logInsert s a).fab = s.fab := by unfold logInsert; dsimp only; (repeat' split) <;> simp
@[simp] theorem logInsert_out (s : State) (a : LogArgs) : (logInsert s a).out = s.out := by unfold logInsert; dsimp only; (repeat' split) <;> simp
@[simp] theorem logInsert_free (s : State) (a : LogArgs) : (logInsert s a).free = s.free := by unfold logInsert; dsimp only; (repeat' split) <;> simp
@[simp] theorem logInsert_effReg (s : State) (a : LogArgs) (o : Nat) : (logInsert s a).effReg o = s.effReg o := by simp only [State.effReg, logInsert_eff]
@[simp] theorem logInsert_effF (s : State) (a : LogArgs) (o h l : Nat) : (logInsert s a).effF o h l = s.effF o h l := by simp only [State.effF, State.effReg, logInsert_eff]
@[simp] theorem logInsert_ctx (s : State) (a : LogArgs) (m : Nat) : (logInsert s a).ctx m = s.ctx m := by simp only [State.ctx, logInsert_ctxs]
@[simp] theorem logInsert_ring (s : State) (a : LogArgs) (m : Nat) : (logInsert s a).ring m = s.ring m := by simp only [State.ring, logInsert_rings]
@[simp] theorem logInsert_entry (s : State) (a : LogArgs) (m : Nat) : (logInsert s a).entry m = s.entry m := by simp only [State.entry, logInsert_flight]
@[simp] theorem logInsert_byteAt (s : State) (a : LogArgs) (pa : Nat) : (logInsert s a).byteAt pa = s.byteAt pa := by simp only [State.byteAt, logInsert_mem]

theorem logInsert_reg (s : State) (a : LogArgs) (off : Nat) (h : off ≠ Reg.MGT_LOG_STAT) :
    (logInsert s a).reg off = s.reg off := by
  unfold logInsert
  dsimp only
  (repeat' split) <;> first | rw [State.putMgt_reg, State.reg_setF_ne _ _ _ _ _ _ h] | rw [State.reg_satF_ne _ _ _ _ _ _ h]

/-! ### markUnwritten -/

@[simp] theorem markUnwritten_pending (s : State) (v : Nat) : (markUnwritten s v).pending = s.pending := by unfold markUnwritten; split <;> simp
@[simp] theorem markUnwritten_regs (s : State) (v : Nat) : (markUnwritten s v).regs = s.regs := by unfold markUnwritten; split <;> simp
@[simp] theorem markUnwritten_eff (s : State) (v : Nat) : (markUnwritten s v).eff = s.eff := by unfold markUnwritten; split <;> simp
@[simp] theorem markUnwritten_dev (s : State) (v : Nat) : (markUnwritten s v).dev = s.dev := by unfold markUnwritten; split <;> simp
@[simp] theorem markUnwritten_fns (s : State) (v : Nat) : (markUnwritten s v).fns = s.fns := by unfold markUnwritten; split <;> simp
@[simp] theorem markUnwritten_msix (s : State) (v : Nat) : (markUnwritten s v).msix = s.msix := by unfold markUnwritten; split <;> simp
@[simp] theorem markUnwritten_hol (s : State) (v : Nat) : (markUnwritten s v).hol = s.hol := by unfold markUnwritten; split <;> simp
@[simp] theorem markUnwritten_tick (s : State) (v : Nat) : (markUnwritten s v).tick = s.tick := by unfold markUnwritten; split <;> simp
@[simp] theorem markUnwritten_ctxs (s : State) (v : Nat) : (markUnwritten s v).ctxs = s.ctxs := by unfold markUnwritten; split <;> simp
@[simp] theorem markUnwritten_rings (s : State) (v : Nat) : (markUnwritten s v).rings = s.rings := by unfold markUnwritten; split <;> simp
@[simp] theorem markUnwritten_flight (s : State) (v : Nat) : (markUnwritten s v).flight = s.flight := by unfold markUnwritten; split <;> simp
@[simp] theorem markUnwritten_nextId (s : State) (v : Nat) : (markUnwritten s v).nextId = s.nextId := by unfold markUnwritten; split <;> simp
@[simp] theorem markUnwritten_slots (s : State) (v : Nat) : (markUnwritten s v).slots = s.slots := by unfold markUnwritten; split <;> simp
@[simp] theorem markUnwritten_images (s : State) (v : Nat) : (markUnwritten s v).images = s.images := by unfold markUnwritten; split <;> simp
@[simp] theorem markUnwritten_mem (s : State) (v : Nat) : (markUnwritten s v).mem = s.mem := by unfold markUnwritten; split <;> simp
@[simp] theorem markUnwritten_mig (s : State) (v : Nat) : (markUnwritten s v).mig = s.mig := by unfold markUnwritten; split <;> simp
@[simp] theorem markUnwritten_retained (s : State) (v : Nat) : (markUnwritten s v).retained = s.retained := by unfold markUnwritten; split <;> simp
@[simp] theorem markUnwritten_prefetched (s : State) (v : Nat) : (markUnwritten s v).prefetched = s.prefetched := by unfold markUnwritten; split <;> simp
@[simp] theorem markUnwritten_kv (s : State) (v : Nat) : (markUnwritten s v).kv = s.kv := by unfold markUnwritten; split <;> simp
@[simp] theorem markUnwritten_pwr (s : State) (v : Nat) : (markUnwritten s v).pwr = s.pwr := by unfold markUnwritten; split <;> simp
@[simp] theorem markUnwritten_sec (s : State) (v : Nat) : (markUnwritten s v).sec = s.sec := by unfold markUnwritten; split <;> simp
@[simp] theorem markUnwritten_fab (s : State) (v : Nat) : (markUnwritten s v).fab = s.fab := by unfold markUnwritten; split <;> simp
@[simp] theorem markUnwritten_out (s : State) (v : Nat) : (markUnwritten s v).out = s.out := by unfold markUnwritten; split <;> simp
@[simp] theorem markUnwritten_free (s : State) (v : Nat) : (markUnwritten s v).free = s.free := by unfold markUnwritten; split <;> simp
@[simp] theorem markUnwritten_reg (s : State) (v : Nat) (o : Nat) : (markUnwritten s v).reg o = s.reg o := by simp only [State.reg, markUnwritten_regs]
@[simp] theorem markUnwritten_effReg (s : State) (v : Nat) (o : Nat) : (markUnwritten s v).effReg o = s.effReg o := by simp only [State.effReg, markUnwritten_eff]
@[simp] theorem markUnwritten_fldR (s : State) (v : Nat) (o h l : Nat) : (markUnwritten s v).fldR o h l = s.fldR o h l := by simp only [State.fldR, State.reg, markUnwritten_regs]
@[simp] theorem markUnwritten_effF (s : State) (v : Nat) (o h l : Nat) : (markUnwritten s v).effF o h l = s.effF o h l := by simp only [State.effF, State.effReg, markUnwritten_eff]
@[simp] theorem markUnwritten_devState (s : State) (v : Nat)  : (markUnwritten s v).devState = s.devState := by simp only [State.devState, State.fldR, State.reg, markUnwritten_regs]
@[simp] theorem markUnwritten_live (s : State) (v : Nat)  : (markUnwritten s v).live = s.live := by simp only [State.live, markUnwritten_devState]
@[simp] theorem markUnwritten_tickNum (s : State) (v : Nat)  : (markUnwritten s v).tickNum = s.tickNum := by simp only [State.tickNum, State.fldR, State.reg, markUnwritten_regs]
@[simp] theorem markUnwritten_ctx (s : State) (v : Nat) (m : Nat) : (markUnwritten s v).ctx m = s.ctx m := by simp only [State.ctx, markUnwritten_ctxs]
@[simp] theorem markUnwritten_ring (s : State) (v : Nat) (m : Nat) : (markUnwritten s v).ring m = s.ring m := by simp only [State.ring, markUnwritten_rings]
@[simp] theorem markUnwritten_entry (s : State) (v : Nat) (m : Nat) : (markUnwritten s v).entry m = s.entry m := by simp only [State.entry, markUnwritten_flight]
@[simp] theorem markUnwritten_byteAt (s : State) (v : Nat) (pa : Nat) : (markUnwritten s v).byteAt pa = s.byteAt pa := by simp only [State.byteAt, markUnwritten_mem]

/-! ### logError -/

@[simp] theorem logError_pending (s : State) (a : LogArgs) : (logError s a).pending = s.pending := by unfold logError; dsimp only; split <;> simp
@[simp] theorem logError_eff (s : State) (a : LogArgs) : (logError s a).eff = s.eff := by unfold logError; dsimp only; split <;> simp
@[simp] theorem logError_dev (s : State) (a : LogArgs) : (logError s a).dev = s.dev := by unfold logError; dsimp only; split <;> simp
@[simp] theorem logError_fns (s : State) (a : LogArgs) : (logError s a).fns = s.fns := by unfold logError; dsimp only; split <;> simp
@[simp] theorem logError_msix (s : State) (a : LogArgs) : (logError s a).msix = s.msix := by unfold logError; dsimp only; split <;> simp
@[simp] theorem logError_hol (s : State) (a : LogArgs) : (logError s a).hol = s.hol := by unfold logError; dsimp only; split <;> simp
@[simp] theorem logError_tick (s : State) (a : LogArgs) : (logError s a).tick = s.tick := by unfold logError; dsimp only; split <;> simp
@[simp] theorem logError_ctxs (s : State) (a : LogArgs) : (logError s a).ctxs = s.ctxs := by unfold logError; dsimp only; split <;> simp
@[simp] theorem logError_rings (s : State) (a : LogArgs) : (logError s a).rings = s.rings := by unfold logError; dsimp only; split <;> simp
@[simp] theorem logError_flight (s : State) (a : LogArgs) : (logError s a).flight = s.flight := by unfold logError; dsimp only; split <;> simp
@[simp] theorem logError_nextId (s : State) (a : LogArgs) : (logError s a).nextId = s.nextId := by unfold logError; dsimp only; split <;> simp
@[simp] theorem logError_slots (s : State) (a : LogArgs) : (logError s a).slots = s.slots := by unfold logError; dsimp only; split <;> simp
@[simp] theorem logError_images (s : State) (a : LogArgs) : (logError s a).images = s.images := by unfold logError; dsimp only; split <;> simp
@[simp] theorem logError_mem (s : State) (a : LogArgs) : (logError s a).mem = s.mem := by unfold logError; dsimp only; split <;> simp
@[simp] theorem logError_mig (s : State) (a : LogArgs) : (logError s a).mig = s.mig := by unfold logError; dsimp only; split <;> simp
@[simp] theorem logError_retained (s : State) (a : LogArgs) : (logError s a).retained = s.retained := by unfold logError; dsimp only; split <;> simp
@[simp] theorem logError_prefetched (s : State) (a : LogArgs) : (logError s a).prefetched = s.prefetched := by unfold logError; dsimp only; split <;> simp
@[simp] theorem logError_kv (s : State) (a : LogArgs) : (logError s a).kv = s.kv := by unfold logError; dsimp only; split <;> simp
@[simp] theorem logError_pwr (s : State) (a : LogArgs) : (logError s a).pwr = s.pwr := by unfold logError; dsimp only; split <;> simp
@[simp] theorem logError_sec (s : State) (a : LogArgs) : (logError s a).sec = s.sec := by unfold logError; dsimp only; split <;> simp
@[simp] theorem logError_fab (s : State) (a : LogArgs) : (logError s a).fab = s.fab := by unfold logError; dsimp only; split <;> simp
@[simp] theorem logError_free (s : State) (a : LogArgs) : (logError s a).free = s.free := by unfold logError; dsimp only; split <;> simp
@[simp] theorem logError_effReg (s : State) (a : LogArgs) (o : Nat) : (logError s a).effReg o = s.effReg o := by simp only [State.effReg, logError_eff]
@[simp] theorem logError_effF (s : State) (a : LogArgs) (o h l : Nat) : (logError s a).effF o h l = s.effF o h l := by simp only [State.effF, State.effReg, logError_eff]
@[simp] theorem logError_ctx (s : State) (a : LogArgs) (m : Nat) : (logError s a).ctx m = s.ctx m := by simp only [State.ctx, logError_ctxs]
@[simp] theorem logError_ring (s : State) (a : LogArgs) (m : Nat) : (logError s a).ring m = s.ring m := by simp only [State.ring, logError_rings]
@[simp] theorem logError_entry (s : State) (a : LogArgs) (m : Nat) : (logError s a).entry m = s.entry m := by simp only [State.entry, logError_flight]
@[simp] theorem logError_byteAt (s : State) (a : LogArgs) (pa : Nat) : (logError s a).byteAt pa = s.byteAt pa := by simp only [State.byteAt, logError_mem]

theorem logError_reg (s : State) (a : LogArgs) (off : Nat) (h : off ≠ Reg.MGT_STAT) (h' : off ≠ Reg.MGT_LOG_STAT) :
    (logError s a).reg off = s.reg off := by
  unfold logError
  dsimp only
  split
  · rw [platformEvent_reg _ _ _ _ h, markUnwritten_reg, logInsert_reg _ _ _ h']
  · rw [markUnwritten_reg, logInsert_reg _ _ _ h']

/-! ### snapshotLog -/

@[simp] theorem snapshotLog_pending (s : State)  : (snapshotLog s).pending = s.pending := by unfold snapshotLog; simp
@[simp] theorem snapshotLog_eff (s : State)  : (snapshotLog s).eff = s.eff := by unfold snapshotLog; simp
@[simp] theorem snapshotLog_dev (s : State)  : (snapshotLog s).dev = s.dev := by unfold snapshotLog; simp
@[simp] theorem snapshotLog_fns (s : State)  : (snapshotLog s).fns = s.fns := by unfold snapshotLog; simp
@[simp] theorem snapshotLog_msix (s : State)  : (snapshotLog s).msix = s.msix := by unfold snapshotLog; simp
@[simp] theorem snapshotLog_hol (s : State)  : (snapshotLog s).hol = s.hol := by unfold snapshotLog; simp
@[simp] theorem snapshotLog_tick (s : State)  : (snapshotLog s).tick = s.tick := by unfold snapshotLog; simp
@[simp] theorem snapshotLog_ctxs (s : State)  : (snapshotLog s).ctxs = s.ctxs := by unfold snapshotLog; simp
@[simp] theorem snapshotLog_rings (s : State)  : (snapshotLog s).rings = s.rings := by unfold snapshotLog; simp
@[simp] theorem snapshotLog_flight (s : State)  : (snapshotLog s).flight = s.flight := by unfold snapshotLog; simp
@[simp] theorem snapshotLog_nextId (s : State)  : (snapshotLog s).nextId = s.nextId := by unfold snapshotLog; simp
@[simp] theorem snapshotLog_slots (s : State)  : (snapshotLog s).slots = s.slots := by unfold snapshotLog; simp
@[simp] theorem snapshotLog_images (s : State)  : (snapshotLog s).images = s.images := by unfold snapshotLog; simp
@[simp] theorem snapshotLog_mem (s : State)  : (snapshotLog s).mem = s.mem := by unfold snapshotLog; simp
@[simp] theorem snapshotLog_mig (s : State)  : (snapshotLog s).mig = s.mig := by unfold snapshotLog; simp
@[simp] theorem snapshotLog_retained (s : State)  : (snapshotLog s).retained = s.retained := by unfold snapshotLog; simp
@[simp] theorem snapshotLog_prefetched (s : State)  : (snapshotLog s).prefetched = s.prefetched := by unfold snapshotLog; simp
@[simp] theorem snapshotLog_kv (s : State)  : (snapshotLog s).kv = s.kv := by unfold snapshotLog; simp
@[simp] theorem snapshotLog_pwr (s : State)  : (snapshotLog s).pwr = s.pwr := by unfold snapshotLog; simp
@[simp] theorem snapshotLog_sec (s : State)  : (snapshotLog s).sec = s.sec := by unfold snapshotLog; simp
@[simp] theorem snapshotLog_fab (s : State)  : (snapshotLog s).fab = s.fab := by unfold snapshotLog; simp
@[simp] theorem snapshotLog_out (s : State)  : (snapshotLog s).out = s.out := by unfold snapshotLog; simp
@[simp] theorem snapshotLog_free (s : State)  : (snapshotLog s).free = s.free := by unfold snapshotLog; simp
@[simp] theorem snapshotLog_effReg (s : State)  (o : Nat) : (snapshotLog s).effReg o = s.effReg o := by simp only [State.effReg, snapshotLog_eff]
@[simp] theorem snapshotLog_effF (s : State)  (o h l : Nat) : (snapshotLog s).effF o h l = s.effF o h l := by simp only [State.effF, State.effReg, snapshotLog_eff]
@[simp] theorem snapshotLog_ctx (s : State)  (m : Nat) : (snapshotLog s).ctx m = s.ctx m := by simp only [State.ctx, snapshotLog_ctxs]
@[simp] theorem snapshotLog_ring (s : State)  (m : Nat) : (snapshotLog s).ring m = s.ring m := by simp only [State.ring, snapshotLog_rings]
@[simp] theorem snapshotLog_entry (s : State)  (m : Nat) : (snapshotLog s).entry m = s.entry m := by simp only [State.entry, snapshotLog_flight]
@[simp] theorem snapshotLog_byteAt (s : State)  (pa : Nat) : (snapshotLog s).byteAt pa = s.byteAt pa := by simp only [State.byteAt, snapshotLog_mem]

@[simp] theorem snapshotLog_reg (s : State) (off : Nat) : (snapshotLog s).reg off = s.reg off := rfl

/-! ### enterState -/

@[simp] theorem enterState_pending (s : State) (d : Nat) : (enterState s d).pending = s.pending := by unfold enterState; dsimp only; split <;> simp
@[simp] theorem enterState_eff (s : State) (d : Nat) : (enterState s d).eff = s.eff := by unfold enterState; dsimp only; split <;> simp
@[simp] theorem enterState_dev (s : State) (d : Nat) : (enterState s d).dev = s.dev := by unfold enterState; dsimp only; split <;> simp
@[simp] theorem enterState_fns (s : State) (d : Nat) : (enterState s d).fns = s.fns := by unfold enterState; dsimp only; split <;> simp
@[simp] theorem enterState_msix (s : State) (d : Nat) : (enterState s d).msix = s.msix := by unfold enterState; dsimp only; split <;> simp
@[simp] theorem enterState_hol (s : State) (d : Nat) : (enterState s d).hol = s.hol := by unfold enterState; dsimp only; split <;> simp
@[simp] theorem enterState_tick (s : State) (d : Nat) : (enterState s d).tick = s.tick := by unfold enterState; dsimp only; split <;> simp
@[simp] theorem enterState_ctxs (s : State) (d : Nat) : (enterState s d).ctxs = s.ctxs := by unfold enterState; dsimp only; split <;> simp
@[simp] theorem enterState_rings (s : State) (d : Nat) : (enterState s d).rings = s.rings := by unfold enterState; dsimp only; split <;> simp
@[simp] theorem enterState_flight (s : State) (d : Nat) : (enterState s d).flight = s.flight := by unfold enterState; dsimp only; split <;> simp
@[simp] theorem enterState_nextId (s : State) (d : Nat) : (enterState s d).nextId = s.nextId := by unfold enterState; dsimp only; split <;> simp
@[simp] theorem enterState_slots (s : State) (d : Nat) : (enterState s d).slots = s.slots := by unfold enterState; dsimp only; split <;> simp
@[simp] theorem enterState_images (s : State) (d : Nat) : (enterState s d).images = s.images := by unfold enterState; dsimp only; split <;> simp
@[simp] theorem enterState_mem (s : State) (d : Nat) : (enterState s d).mem = s.mem := by unfold enterState; dsimp only; split <;> simp
@[simp] theorem enterState_mig (s : State) (d : Nat) : (enterState s d).mig = s.mig := by unfold enterState; dsimp only; split <;> simp
theorem enterState_retained (s : State) (d : Nat) (h : d ≠ stSafe) : (enterState s d).retained = s.retained := by simp [enterState, h]
theorem enterState_prefetched (s : State) (d : Nat) (h : d ≠ stSafe) : (enterState s d).prefetched = s.prefetched := by simp [enterState, h]
@[simp] theorem enterState_kv (s : State) (d : Nat) : (enterState s d).kv = s.kv := by unfold enterState; dsimp only; split <;> simp
@[simp] theorem enterState_pwr (s : State) (d : Nat) : (enterState s d).pwr = s.pwr := by unfold enterState; dsimp only; split <;> simp
@[simp] theorem enterState_sec (s : State) (d : Nat) : (enterState s d).sec = s.sec := by unfold enterState; dsimp only; split <;> simp
@[simp] theorem enterState_fab (s : State) (d : Nat) : (enterState s d).fab = s.fab := by unfold enterState; dsimp only; split <;> simp
@[simp] theorem enterState_free (s : State) (d : Nat) : (enterState s d).free = s.free := by unfold enterState; dsimp only; split <;> simp
@[simp] theorem enterState_effReg (s : State) (d : Nat) (o : Nat) : (enterState s d).effReg o = s.effReg o := by simp only [State.effReg, enterState_eff]
@[simp] theorem enterState_effF (s : State) (d : Nat) (o h l : Nat) : (enterState s d).effF o h l = s.effF o h l := by simp only [State.effF, State.effReg, enterState_eff]
@[simp] theorem enterState_ctx (s : State) (d : Nat) (m : Nat) : (enterState s d).ctx m = s.ctx m := by simp only [State.ctx, enterState_ctxs]
@[simp] theorem enterState_ring (s : State) (d : Nat) (m : Nat) : (enterState s d).ring m = s.ring m := by simp only [State.ring, enterState_rings]
@[simp] theorem enterState_entry (s : State) (d : Nat) (m : Nat) : (enterState s d).entry m = s.entry m := by simp only [State.entry, enterState_flight]
@[simp] theorem enterState_byteAt (s : State) (d : Nat) (pa : Nat) : (enterState s d).byteAt pa = s.byteAt pa := by simp only [State.byteAt, enterState_mem]

/-- Entering a state: STATE and PREV_STATE (R3), and no other register but MGT_STAT's event count. -/
theorem enterState_glb (s : State) (d : Nat) :
    (enterState s d).reg Reg.GLB_STATE = setFld (setFld (s.reg Reg.GLB_STATE) 6 4 s.devState) 2 0 d := by
  unfold enterState
  dsimp only
  rw [platformEvent_reg _ _ _ _ (by decide), State.reg_setF_same, State.reg_setF_same]
  split <;> simp

theorem enterState_reg (s : State) (d off : Nat) (h : off ≠ Reg.GLB_STATE) (h' : off ≠ Reg.MGT_STAT) :
    (enterState s d).reg off = s.reg off := by
  unfold enterState
  dsimp only
  rw [platformEvent_reg _ _ _ _ h', State.reg_setF_ne _ _ _ _ _ _ h, State.reg_setF_ne _ _ _ _ _ _ h]
  split <;> simp

theorem enterState_devState (s : State) (d : Nat) (h : d < 8) : (enterState s d).devState = d := by
  rw [State.devState, State.fldR, enterState_glb, fld_setFld_same _ _ _ _ (by decide) (by decide)]
  exact Nat.mod_eq_of_lt h

theorem enterState_prev (s : State) (d : Nat) : (enterState s d).fldR Reg.GLB_STATE 6 4 = s.devState := by
  rw [State.fldR, enterState_glb, fld_setFld_ne _ _ _ _ _ _ (by decide) (by decide) (by decide),
    fld_setFld_same _ _ _ _ (by decide) (by decide)]
  exact Nat.mod_eq_of_lt (fld_lt _ _ _)

/-! ### holdEntry -/

@[simp] theorem holdEntry_pending (s : State) (id : Nat) : (holdEntry s id).pending = s.pending := (rfl)
@[simp] theorem holdEntry_regs (s : State) (id : Nat) : (holdEntry s id).regs = s.regs := (rfl)
@[simp] theorem holdEntry_eff (s : State) (id : Nat) : (holdEntry s id).eff = s.eff := (rfl)
@[simp] theorem holdEntry_dev (s : State) (id : Nat) : (holdEntry s id).dev = s.dev := (rfl)
@[simp] theorem holdEntry_fns (s : State) (id : Nat) : (holdEntry s id).fns = s.fns := (rfl)
@[simp] theorem holdEntry_msix (s : State) (id : Nat) : (holdEntry s id).msix = s.msix := (rfl)
@[simp] theorem holdEntry_hol (s : State) (id : Nat) : (holdEntry s id).hol = s.hol := (rfl)
@[simp] theorem holdEntry_tick (s : State) (id : Nat) : (holdEntry s id).tick = s.tick := (rfl)
@[simp] theorem holdEntry_ctxs (s : State) (id : Nat) : (holdEntry s id).ctxs = s.ctxs := (rfl)
@[simp] theorem holdEntry_rings (s : State) (id : Nat) : (holdEntry s id).rings = s.rings := (rfl)
@[simp] theorem holdEntry_nextId (s : State) (id : Nat) : (holdEntry s id).nextId = s.nextId := (rfl)
@[simp] theorem holdEntry_slots (s : State) (id : Nat) : (holdEntry s id).slots = s.slots := (rfl)
@[simp] theorem holdEntry_images (s : State) (id : Nat) : (holdEntry s id).images = s.images := (rfl)
@[simp] theorem holdEntry_mem (s : State) (id : Nat) : (holdEntry s id).mem = s.mem := (rfl)
@[simp] theorem holdEntry_mig (s : State) (id : Nat) : (holdEntry s id).mig = s.mig := (rfl)
@[simp] theorem holdEntry_retained (s : State) (id : Nat) : (holdEntry s id).retained = s.retained := (rfl)
@[simp] theorem holdEntry_prefetched (s : State) (id : Nat) : (holdEntry s id).prefetched = s.prefetched := (rfl)
@[simp] theorem holdEntry_kv (s : State) (id : Nat) : (holdEntry s id).kv = s.kv := (rfl)
@[simp] theorem holdEntry_pwr (s : State) (id : Nat) : (holdEntry s id).pwr = s.pwr := (rfl)
@[simp] theorem holdEntry_sec (s : State) (id : Nat) : (holdEntry s id).sec = s.sec := (rfl)
@[simp] theorem holdEntry_mgt (s : State) (id : Nat) : (holdEntry s id).mgt = s.mgt := (rfl)
@[simp] theorem holdEntry_fab (s : State) (id : Nat) : (holdEntry s id).fab = s.fab := (rfl)
@[simp] theorem holdEntry_out (s : State) (id : Nat) : (holdEntry s id).out = s.out := (rfl)
@[simp] theorem holdEntry_free (s : State) (id : Nat) : (holdEntry s id).free = s.free := (rfl)
@[simp] theorem holdEntry_reg (s : State) (id : Nat) (o : Nat) : (holdEntry s id).reg o = s.reg o := by simp only [State.reg, holdEntry_regs]
@[simp] theorem holdEntry_effReg (s : State) (id : Nat) (o : Nat) : (holdEntry s id).effReg o = s.effReg o := by simp only [State.effReg, holdEntry_eff]
@[simp] theorem holdEntry_fldR (s : State) (id : Nat) (o h l : Nat) : (holdEntry s id).fldR o h l = s.fldR o h l := by simp only [State.fldR, State.reg, holdEntry_regs]
@[simp] theorem holdEntry_effF (s : State) (id : Nat) (o h l : Nat) : (holdEntry s id).effF o h l = s.effF o h l := by simp only [State.effF, State.effReg, holdEntry_eff]
@[simp] theorem holdEntry_devState (s : State) (id : Nat)  : (holdEntry s id).devState = s.devState := by simp only [State.devState, State.fldR, State.reg, holdEntry_regs]
@[simp] theorem holdEntry_live (s : State) (id : Nat)  : (holdEntry s id).live = s.live := by simp only [State.live, holdEntry_devState]
@[simp] theorem holdEntry_tickNum (s : State) (id : Nat)  : (holdEntry s id).tickNum = s.tickNum := by simp only [State.tickNum, State.fldR, State.reg, holdEntry_regs]
@[simp] theorem holdEntry_ctx (s : State) (id : Nat) (m : Nat) : (holdEntry s id).ctx m = s.ctx m := by simp only [State.ctx, holdEntry_ctxs]
@[simp] theorem holdEntry_ring (s : State) (id : Nat) (m : Nat) : (holdEntry s id).ring m = s.ring m := by simp only [State.ring, holdEntry_rings]
@[simp] theorem holdEntry_byteAt (s : State) (id : Nat) (pa : Nat) : (holdEntry s id).byteAt pa = s.byteAt pa := by simp only [State.byteAt, holdEntry_mem]

end Sys2Proof.Machine
end

