-- ==== Sys2Proof/Laws/PerInstr.lean ====
section
/-!
SUPPORT. The per-command family Issuer: a well-formed command that is a function's access names a function the part has (R356),
and the message a well-formed command brings has a header within its fields (Table 12.4). One lemma for each constructor.
-/
set_option Elab.async false

namespace Sys2Proof.Laws.Issuer

/-- The issuing function exists and the message header fits. -/
def Statement (i : Instr) : Prop :=
  i.wf = true → (∀ fn, i.issuer = some fn → fn < 17) ∧ (∀ m, i.message = some m → msgOk m = true)

theorem inputStageCharged (volts slot : Nat) : Statement (.inputStageCharged volts slot) := by
  simp_all [Statement, Instr.wf, Instr.issuer, Instr.message]
theorem inputRemoved : Statement .inputRemoved := by
  simp_all [Statement, Instr.wf, Instr.issuer, Instr.message]
theorem inputSample (volts amps p10 p1000 p100k busiest : Nat) (droopGroups : List Nat) : Statement (.inputSample volts amps p10 p1000 p100k busiest droopGroups) := by
  simp_all [Statement, Instr.wf, Instr.issuer, Instr.message]
theorem rideThroughTimeout : Statement .rideThroughTimeout := by
  simp_all [Statement, Instr.wf, Instr.issuer, Instr.message]
theorem rideThroughEnd : Statement .rideThroughEnd := by
  simp_all [Statement, Instr.wf, Instr.issuer, Instr.message]
theorem powerFailShutdown : Statement .powerFailShutdown := by
  simp_all [Statement, Instr.wf, Instr.issuer, Instr.message]
theorem inputOvTimeout : Statement .inputOvTimeout := by
  simp_all [Statement, Instr.wf, Instr.issuer, Instr.message]
theorem excursionTimeout : Statement .excursionTimeout := by
  simp_all [Statement, Instr.wf, Instr.issuer, Instr.message]
theorem droopDetect (group millivolts : Nat) : Statement (.droopDetect group millivolts) := by
  simp_all [Statement, Instr.wf, Instr.issuer, Instr.message]
theorem droopRecovery (group cycles : Nat) : Statement (.droopRecovery group cycles) := by
  simp_all [Statement, Instr.wf, Instr.issuer, Instr.message]
theorem junctionSample (temps : List Int) : Statement (.junctionSample temps) := by
  simp_all [Statement, Instr.wf, Instr.issuer, Instr.message]
theorem thermalTrip : Statement .thermalTrip := by
  simp_all [Statement, Instr.wf, Instr.issuer, Instr.message]
theorem dramTempSample (vaults packages : List Int) (derate : Nat) : Statement (.dramTempSample vaults packages derate) := by
  simp_all [Statement, Instr.wf, Instr.issuer, Instr.message]
theorem loopReleaseStepUp (group : Nat) (loop : LoopName) : Statement (.loopReleaseStepUp group loop) := by
  simp_all [Statement, Instr.wf, Instr.issuer, Instr.message]
theorem stepChangeComplete (group : Nat) : Statement (.stepChangeComplete group) := by
  simp_all [Statement, Instr.wf, Instr.issuer, Instr.message]
theorem activityRamp (group demand stall fill : Nat) : Statement (.activityRamp group demand stall fill) := by
  simp_all [Statement, Instr.wf, Instr.issuer, Instr.message]
theorem energyWindow (total background : Nat) (dynamic times : List (Nat × Nat)) : Statement (.energyWindow total background dynamic times) := by
  simp_all [Statement, Instr.wf, Instr.issuer, Instr.message]
theorem domainPowerUpComplete (domain : Nat) : Statement (.domainPowerUpComplete domain) := by
  simp_all [Statement, Instr.wf, Instr.issuer, Instr.message]
theorem surpriseDown : Statement .surpriseDown := by
  simp_all [Statement, Instr.wf, Instr.issuer, Instr.message]
theorem functionLevelReset (fn : Nat) : Statement (.functionLevelReset fn) := by
  simp_all [Statement, Instr.wf, Instr.issuer, Instr.message, fnOk]
theorem vfEnableClear : Statement .vfEnableClear := by
  simp_all [Statement, Instr.wf, Instr.issuer, Instr.message]
theorem autoBootStart : Statement .autoBootStart := by
  simp_all [Statement, Instr.wf, Instr.issuer, Instr.message]
theorem firmwareAccepted : Statement .firmwareAccepted := by
  simp_all [Statement, Instr.wf, Instr.issuer, Instr.message]
theorem bootTimeout : Statement .bootTimeout := by
  simp_all [Statement, Instr.wf, Instr.issuer, Instr.message]
theorem trainComplete (cores vaults channels ports awl kat : Nat) : Statement (.trainComplete cores vaults channels ports awl kat) := by
  simp_all [Statement, Instr.wf, Instr.issuer, Instr.message]
theorem tickEdge (len : Nat) (report : EdgeReport) : Statement (.tickEdge len report) := by
  simp_all [Statement, Instr.wf, Instr.issuer, Instr.message]
theorem stateTransferComplete (ring : Nat) : Statement (.stateTransferComplete ring) := by
  simp_all [Statement, Instr.wf, Instr.issuer, Instr.message]
theorem coreYieldDone (array time : Nat) (report : YieldReport) : Statement (.coreYieldDone array time report) := by
  simp_all [Statement, Instr.wf, Instr.issuer, Instr.message]
theorem tickFenceExpiry (id : Nat) : Statement (.tickFenceExpiry id) := by
  simp_all [Statement, Instr.wf, Instr.issuer, Instr.message]
theorem holdLimitExpiry (id : Nat) : Statement (.holdLimitExpiry id) := by
  simp_all [Statement, Instr.wf, Instr.issuer, Instr.message]
theorem cmdDoorbell (fn ring : Nat) (value : Word) : Statement (.cmdDoorbell fn ring value) := by
  simp_all [Statement, Instr.wf, Instr.issuer, Instr.message, fnOk]
theorem returnHeadDoorbell (fn ring : Nat) (value : Word) : Statement (.returnHeadDoorbell fn ring value) := by
  simp_all [Statement, Instr.wf, Instr.issuer, Instr.message, fnOk]
theorem packetFetch (ring : Nat) (host : List Byte) : Statement (.packetFetch ring host) := by
  simp_all [Statement, Instr.wf, Instr.issuer, Instr.message]
theorem commandAdmit (ring : Nat) : Statement (.commandAdmit ring) := by
  simp_all [Statement, Instr.wf, Instr.issuer, Instr.message]
theorem recordWrite (ctx : Nat) : Statement (.recordWrite ctx) := by
  simp_all [Statement, Instr.wf, Instr.issuer, Instr.message]
theorem returnIrqTimeout (ctx : Nat) : Statement (.returnIrqTimeout ctx) := by
  simp_all [Statement, Instr.wf, Instr.issuer, Instr.message]
theorem matmul (id core : Nat) : Statement (.matmul id core) := by
  simp_all [Statement, Instr.wf, Instr.issuer, Instr.message]
theorem conv (id core : Nat) : Statement (.conv id core) := by
  simp_all [Statement, Instr.wf, Instr.issuer, Instr.message]
theorem scan (id core : Nat) : Statement (.scan id core) := by
  simp_all [Statement, Instr.wf, Instr.issuer, Instr.message]
theorem slotAcquire (id : Nat) : Statement (.slotAcquire id) := by
  simp_all [Statement, Instr.wf, Instr.issuer, Instr.message]
theorem attn (id core : Nat) : Statement (.attn id core) := by
  simp_all [Statement, Instr.wf, Instr.issuer, Instr.message]
theorem update (id core : Nat) : Statement (.update id core) := by
  simp_all [Statement, Instr.wf, Instr.issuer, Instr.message]
theorem rngFill (id core : Nat) : Statement (.rngFill id core) := by
  simp_all [Statement, Instr.wf, Instr.issuer, Instr.message]
theorem stageStart (command : Timed) : Statement (.stageStart command) := by
  simp_all [Statement, Instr.wf, Instr.issuer, Instr.message]
theorem itemClaim (id array : Nat) : Statement (.itemClaim id array) := by
  simp_all [Statement, Instr.wf, Instr.issuer, Instr.message]
theorem itemComplete (id array core : Nat) : Statement (.itemComplete id array core) := by
  simp_all [Statement, Instr.wf, Instr.issuer, Instr.message]
theorem sliceAdd (id : Nat) (item : Timed) : Statement (.sliceAdd id item) := by
  simp_all [Statement, Instr.wf, Instr.issuer, Instr.message]
theorem stageComplete (id time : Nat) : Statement (.stageComplete id time) := by
  simp_all [Statement, Instr.wf, Instr.issuer, Instr.message]
theorem weltPacketReceive (id dst seq : Nat) (crcOk : Bool) : Statement (.weltPacketReceive id dst seq crcOk) := by
  simp_all [Statement, Instr.wf, Instr.issuer, Instr.message]
theorem seamReceive (id entry chunk : Nat) : Statement (.seamReceive id entry chunk) := by
  simp_all [Statement, Instr.wf, Instr.issuer, Instr.message]
theorem chunkRecurrence (id entry : Nat) (chunk : Timed) : Statement (.chunkRecurrence id entry chunk) := by
  simp_all [Statement, Instr.wf, Instr.issuer, Instr.message]
theorem prefetch (id array va len fmt : Nat) : Statement (.prefetch id array va len fmt) := by
  simp_all [Statement, Instr.wf, Instr.issuer, Instr.message]
theorem load (id : Nat) : Statement (.load id) := by
  simp_all [Statement, Instr.wf, Instr.issuer, Instr.message]
theorem store (id : Nat) : Statement (.store id) := by
  simp_all [Statement, Instr.wf, Instr.issuer, Instr.message]
theorem migrate (id : Nat) : Statement (.migrate id) := by
  simp_all [Statement, Instr.wf, Instr.issuer, Instr.message]
theorem fork (id : Nat) : Statement (.fork id) := by
  simp_all [Statement, Instr.wf, Instr.issuer, Instr.message]
theorem park (id : Nat) : Statement (.park id) := by
  simp_all [Statement, Instr.wf, Instr.issuer, Instr.message]
theorem resume (id : Nat) : Statement (.resume id) := by
  simp_all [Statement, Instr.wf, Instr.issuer, Instr.message]
theorem event (id : Nat) : Statement (.event id) := by
  simp_all [Statement, Instr.wf, Instr.issuer, Instr.message]
theorem wait (ring : Nat) : Statement (.wait ring) := by
  simp_all [Statement, Instr.wf, Instr.issuer, Instr.message]
theorem waitPoll : Statement .waitPoll := by
  simp_all [Statement, Instr.wf, Instr.issuer, Instr.message]
theorem tickFence (id : Nat) : Statement (.tickFence id) := by
  simp_all [Statement, Instr.wf, Instr.issuer, Instr.message]
theorem config (id : Nat) : Statement (.config id) := by
  simp_all [Statement, Instr.wf, Instr.issuer, Instr.message]
theorem commit (id : Nat) : Statement (.commit id) := by
  simp_all [Statement, Instr.wf, Instr.issuer, Instr.message]
theorem allreduce (id : Nat) : Statement (.allreduce id) := by
  simp_all [Statement, Instr.wf, Instr.issuer, Instr.message]
theorem reduceScatter (id : Nat) : Statement (.reduceScatter id) := by
  simp_all [Statement, Instr.wf, Instr.issuer, Instr.message]
theorem allgather (id : Nat) : Statement (.allgather id) := by
  simp_all [Statement, Instr.wf, Instr.issuer, Instr.message]
theorem broadcast (id : Nat) : Statement (.broadcast id) := by
  simp_all [Statement, Instr.wf, Instr.issuer, Instr.message]
theorem alltoall (id : Nat) : Statement (.alltoall id) := by
  simp_all [Statement, Instr.wf, Instr.issuer, Instr.message]
theorem send (id : Nat) : Statement (.send id) := by
  simp_all [Statement, Instr.wf, Instr.issuer, Instr.message]
theorem recv (id : Nat) : Statement (.recv id) := by
  simp_all [Statement, Instr.wf, Instr.issuer, Instr.message]
theorem anchor (id : Nat) : Statement (.anchor id) := by
  simp_all [Statement, Instr.wf, Instr.issuer, Instr.message]
theorem collectiveData (port : Nat) (msg : FabMsg) : Statement (.collectiveData port msg) := by
  simp_all [Statement, Instr.wf, Instr.issuer, Instr.message]
theorem collectiveAbort (port : Nat) (msg : FabMsg) : Statement (.collectiveAbort port msg) := by
  simp_all [Statement, Instr.wf, Instr.issuer, Instr.message]
theorem ringKvBlock (port : Nat) (msg : FabMsg) : Statement (.ringKvBlock port msg) := by
  simp_all [Statement, Instr.wf, Instr.issuer, Instr.message]
theorem ringOpen (fn first count : Nat) : Statement (.ringOpen fn first count) := by
  simp_all [Statement, Instr.wf, Instr.issuer, Instr.message, fnOk]
theorem ringClose (fn first count : Nat) : Statement (.ringClose fn first count) := by
  simp_all [Statement, Instr.wf, Instr.issuer, Instr.message, fnOk]
theorem ctxOpen (fn part ctx count first : Nat) : Statement (.ctxOpen fn part ctx count first) := by
  simp_all [Statement, Instr.wf, Instr.issuer, Instr.message, fnOk]
theorem ctxClose (fn ctx : Nat) : Statement (.ctxClose fn ctx) := by
  simp_all [Statement, Instr.wf, Instr.issuer, Instr.message, fnOk]
theorem ctxSave (fn ctx : Nat) (discard : Bool) : Statement (.ctxSave fn ctx discard) := by
  simp_all [Statement, Instr.wf, Instr.issuer, Instr.message, fnOk]
theorem saveImageWrite (ctx : Nat) : Statement (.saveImageWrite ctx) := by
  simp_all [Statement, Instr.wf, Instr.issuer, Instr.message]
theorem ctxRestore (fn ctx : Nat) : Statement (.ctxRestore fn ctx) := by
  simp_all [Statement, Instr.wf, Instr.issuer, Instr.message, fnOk]
theorem ctxTeardown (fn ctx : Nat) : Statement (.ctxTeardown fn ctx) := by
  simp_all [Statement, Instr.wf, Instr.issuer, Instr.message, fnOk]
theorem holStageWrite (fn off : Nat) (bytes : List Byte) : Statement (.holStageWrite fn off bytes) := by
  simp_all [Statement, Instr.wf, Instr.issuer, Instr.message, fnOk]
theorem holVerify (fn : Nat) : Statement (.holVerify fn) := by
  simp_all [Statement, Instr.wf, Instr.issuer, Instr.message, fnOk]
theorem holVerifyDone : Statement .holVerifyDone := by
  simp_all [Statement, Instr.wf, Instr.issuer, Instr.message]
theorem holCommit (fn : Nat) : Statement (.holCommit fn) := by
  simp_all [Statement, Instr.wf, Instr.issuer, Instr.message, fnOk]
theorem holDiscard (fn : Nat) : Statement (.holDiscard fn) := by
  simp_all [Statement, Instr.wf, Instr.issuer, Instr.message, fnOk]
theorem holStore (fn : Nat) : Statement (.holStore fn) := by
  simp_all [Statement, Instr.wf, Instr.issuer, Instr.message, fnOk]
theorem holStoreDone (ok : Bool) : Statement (.holStoreDone ok) := by
  simp_all [Statement, Instr.wf, Instr.issuer, Instr.message]
theorem holApplyComplete : Statement .holApplyComplete := by
  simp_all [Statement, Instr.wf, Instr.issuer, Instr.message]
theorem fragmentAbandon : Statement .fragmentAbandon := by
  simp_all [Statement, Instr.wf, Instr.issuer, Instr.message]
theorem stateReqReady (fn : Nat) : Statement (.stateReqReady fn) := by
  simp_all [Statement, Instr.wf, Instr.issuer, Instr.message, fnOk]
theorem stateReqSafe (fn : Nat) : Statement (.stateReqSafe fn) := by
  simp_all [Statement, Instr.wf, Instr.issuer, Instr.message, fnOk]
theorem glbCommitWrite (fn mask : Nat) : Statement (.glbCommitWrite fn mask) := by
  simp_all [Statement, Instr.wf, Instr.issuer, Instr.message, fnOk]
theorem registerWrite (fn off size : Nat) (value : Word) : Statement (.registerWrite fn off size value) := by
  simp_all [Statement, Instr.wf, Instr.issuer, Instr.message, fnOk]
theorem bar4Read (fn addr len : Nat) : Statement (.bar4Read fn addr len) := by
  simp_all [Statement, Instr.wf, Instr.issuer, Instr.message, fnOk]
theorem bar4Write (fn addr : Nat) (bytes : List Byte) : Statement (.bar4Write fn addr bytes) := by
  simp_all [Statement, Instr.wf, Instr.issuer, Instr.message, fnOk]
theorem kvCtxCfgWrite (fn ctx : Nat) (value : Word) : Statement (.kvCtxCfgWrite fn ctx value) := by
  simp_all [Statement, Instr.wf, Instr.issuer, Instr.message, fnOk]
theorem memClassWrite (fn vault index : Nat) (value : Word) : Statement (.memClassWrite fn vault index value) := by
  simp_all [Statement, Instr.wf, Instr.issuer, Instr.message, fnOk]
theorem blkClassWrite (fn index : Nat) (value : Word) : Statement (.blkClassWrite fn index value) := by
  simp_all [Statement, Instr.wf, Instr.issuer, Instr.message, fnOk]
theorem classClearComplete (frame : Nat) : Statement (.classClearComplete frame) := by
  simp_all [Statement, Instr.wf, Instr.issuer, Instr.message]
theorem migInval (fn : Nat) (value : Word) : Statement (.migInval fn value) := by
  simp_all [Statement, Instr.wf, Instr.issuer, Instr.message, fnOk]
theorem migInvalComplete : Statement .migInvalComplete := by
  simp_all [Statement, Instr.wf, Instr.issuer, Instr.message]
theorem migPush (fn part : Nat) (value : Word) : Statement (.migPush fn part value) := by
  simp_all [Statement, Instr.wf, Instr.issuer, Instr.message, fnOk]
theorem migrationEpoch (part : Nat) : Statement (.migrationEpoch part) := by
  simp_all [Statement, Instr.wf, Instr.issuer, Instr.message]
theorem migrationMove (part : Nat) : Statement (.migrationMove part) := by
  simp_all [Statement, Instr.wf, Instr.issuer, Instr.message]
theorem refresh (tier vault channel : Nat) (upsets : List (Nat × Nat)) : Statement (.refresh tier vault channel upsets) := by
  simp_all [Statement, Instr.wf, Instr.issuer, Instr.message]
theorem patrolScrub (addr len : Nat) (last : Bool) : Statement (.patrolScrub addr len last) := by
  simp_all [Statement, Instr.wf, Instr.issuer, Instr.message]
theorem memMarginStart (fn vault : Nat) (value : Word) : Statement (.memMarginStart fn vault value) := by
  simp_all [Statement, Instr.wf, Instr.issuer, Instr.message, fnOk]
theorem blkMarginStart (fn : Nat) (value : Word) : Statement (.blkMarginStart fn value) := by
  simp_all [Statement, Instr.wf, Instr.issuer, Instr.message, fnOk]
theorem marginDone (unit errors : Nat) : Statement (.marginDone unit errors) := by
  simp_all [Statement, Instr.wf, Instr.issuer, Instr.message]
theorem bulkRecalibration (channel : Nat) (retrain : Bool) : Statement (.bulkRecalibration channel retrain) := by
  simp_all [Statement, Instr.wf, Instr.issuer, Instr.message]
theorem portUp (port badLanes : Nat) : Statement (.portUp port badLanes) := by
  simp_all [Statement, Instr.wf, Instr.issuer, Instr.message]
theorem linkDown (port : Nat) : Statement (.linkDown port) := by
  simp_all [Statement, Instr.wf, Instr.issuer, Instr.message]
theorem linkPacketReceive (port seq ack corrected : Nat) (crcOk fecOk : Bool) (msg : Option FabMsg) : Statement (.linkPacketReceive port seq ack corrected crcOk fecOk msg) := by
  cases msg <;> simp_all [Statement, Instr.wf, Instr.issuer, Instr.message]
theorem retrainComplete (port badLanes : Nat) : Statement (.retrainComplete port badLanes) := by
  simp_all [Statement, Instr.wf, Instr.issuer, Instr.message]
theorem plkRetrain (fn port : Nat) : Statement (.plkRetrain fn port) := by
  simp_all [Statement, Instr.wf, Instr.issuer, Instr.message, fnOk]
theorem plkMarginStart (fn port : Nat) (value : Word) : Statement (.plkMarginStart fn port value) := by
  simp_all [Statement, Instr.wf, Instr.issuer, Instr.message, fnOk]
theorem plkMarginDone (port errors : Nat) : Statement (.plkMarginDone port errors) := by
  simp_all [Statement, Instr.wf, Instr.issuer, Instr.message]
theorem pelvasRecalibration (port lane : Nat) : Statement (.pelvasRecalibration port lane) := by
  simp_all [Statement, Instr.wf, Instr.issuer, Instr.message]
theorem hello (port : Nat) (msg : FabMsg) : Statement (.hello port msg) := by
  simp_all [Statement, Instr.wf, Instr.issuer, Instr.message]
theorem helloTimer : Statement .helloTimer := by
  simp_all [Statement, Instr.wf, Instr.issuer, Instr.message]
theorem elect (port : Nat) (msg : FabMsg) : Statement (.elect port msg) := by
  simp_all [Statement, Instr.wf, Instr.issuer, Instr.message]
theorem electionTimeout : Statement .electionTimeout := by
  simp_all [Statement, Instr.wf, Instr.issuer, Instr.message]
theorem heartbeat (port : Nat) (msg : FabMsg) : Statement (.heartbeat port msg) := by
  simp_all [Statement, Instr.wf, Instr.issuer, Instr.message]
theorem heartbeatTimer : Statement .heartbeatTimer := by
  simp_all [Statement, Instr.wf, Instr.issuer, Instr.message]
theorem time (port : Nat) (msg : FabMsg) : Statement (.time port msg) := by
  simp_all [Statement, Instr.wf, Instr.issuer, Instr.message]
theorem timeTimer : Statement .timeTimer := by
  simp_all [Statement, Instr.wf, Instr.issuer, Instr.message]
theorem clasp (port : Nat) (msg : FabMsg) : Statement (.clasp port msg) := by
  simp_all [Statement, Instr.wf, Instr.issuer, Instr.message]
theorem claspSend (now : Nat) : Statement (.claspSend now) := by
  simp_all [Statement, Instr.wf, Instr.issuer, Instr.message]
theorem holdoverEdge (len : Nat) (report : EdgeReport) : Statement (.holdoverEdge len report) := by
  simp_all [Statement, Instr.wf, Instr.issuer, Instr.message]
theorem ready (port : Nat) (msg : FabMsg) : Statement (.ready port msg) := by
  simp_all [Statement, Instr.wf, Instr.issuer, Instr.message]
theorem readySend : Statement .readySend := by
  simp_all [Statement, Instr.wf, Instr.issuer, Instr.message]
theorem unready (port : Nat) (msg : FabMsg) : Statement (.unready port msg) := by
  simp_all [Statement, Instr.wf, Instr.issuer, Instr.message]
theorem member (port : Nat) (msg : FabMsg) : Statement (.member port msg) := by
  simp_all [Statement, Instr.wf, Instr.issuer, Instr.message]
theorem memberLossTimeout (id : Nat) : Statement (.memberLossTimeout id) := by
  simp_all [Statement, Instr.wf, Instr.issuer, Instr.message]
theorem standbyTakeover : Statement .standbyTakeover := by
  simp_all [Statement, Instr.wf, Instr.issuer, Instr.message]
theorem flockDrop (port : Nat) (msg : FabMsg) : Statement (.flockDrop port msg) := by
  simp_all [Statement, Instr.wf, Instr.issuer, Instr.message]
theorem flockDropTimer : Statement .flockDropTimer := by
  simp_all [Statement, Instr.wf, Instr.issuer, Instr.message]
theorem fiHoldRelease (rule : Nat) : Statement (.fiHoldRelease rule) := by
  simp_all [Statement, Instr.wf, Instr.issuer, Instr.message]
theorem clxIdWrite (fn : Nat) (value : Word) : Statement (.clxIdWrite fn value) := by
  simp_all [Statement, Instr.wf, Instr.issuer, Instr.message, fnOk]
theorem advanceSvn (fn arg : Nat) : Statement (.advanceSvn fn arg) := by
  simp_all [Statement, Instr.wf, Instr.issuer, Instr.message, fnOk]
theorem revokeKey (fn arg : Nat) : Statement (.revokeKey fn arg) := by
  simp_all [Statement, Instr.wf, Instr.issuer, Instr.message, fnOk]
theorem enrollOwner (fn : Nat) : Statement (.enrollOwner fn) := by
  simp_all [Statement, Instr.wf, Instr.issuer, Instr.message, fnOk]
theorem clearOwner (fn : Nat) : Statement (.clearOwner fn) := by
  simp_all [Statement, Instr.wf, Instr.issuer, Instr.message, fnOk]
theorem secOpComplete (ok : Bool) : Statement (.secOpComplete ok) := by
  simp_all [Statement, Instr.wf, Instr.issuer, Instr.message]
theorem getVersion (binding : Nat) (req : List Byte) : Statement (.getVersion binding req) := by
  simp_all [Statement, Instr.wf, Instr.issuer, Instr.message]
theorem getCapabilities (binding : Nat) (req : List Byte) : Statement (.getCapabilities binding req) := by
  simp_all [Statement, Instr.wf, Instr.issuer, Instr.message]
theorem negotiateAlgorithms (binding : Nat) (req : List Byte) : Statement (.negotiateAlgorithms binding req) := by
  simp_all [Statement, Instr.wf, Instr.issuer, Instr.message]
theorem getDigests (binding : Nat) (req : List Byte) : Statement (.getDigests binding req) := by
  simp_all [Statement, Instr.wf, Instr.issuer, Instr.message]
theorem getCertificate (binding : Nat) (req : List Byte) : Statement (.getCertificate binding req) := by
  simp_all [Statement, Instr.wf, Instr.issuer, Instr.message]
theorem challenge (binding : Nat) (req : List Byte) : Statement (.challenge binding req) := by
  simp_all [Statement, Instr.wf, Instr.issuer, Instr.message]
theorem getMeasurements (binding : Nat) (req : List Byte) : Statement (.getMeasurements binding req) := by
  simp_all [Statement, Instr.wf, Instr.issuer, Instr.message]
theorem chunkSend (binding : Nat) (req : List Byte) : Statement (.chunkSend binding req) := by
  simp_all [Statement, Instr.wf, Instr.issuer, Instr.message]
theorem chunkGet (binding : Nat) (req : List Byte) : Statement (.chunkGet binding req) := by
  simp_all [Statement, Instr.wf, Instr.issuer, Instr.message]
theorem respondIfReady (binding : Nat) (req : List Byte) : Statement (.respondIfReady binding req) := by
  simp_all [Statement, Instr.wf, Instr.issuer, Instr.message]
theorem spdmUnsupportedRequest (binding : Nat) (req : List Byte) : Statement (.spdmUnsupportedRequest binding req) := by
  simp_all [Statement, Instr.wf, Instr.issuer, Instr.message]
theorem mgtLogClear (fn : Nat) : Statement (.mgtLogClear fn) := by
  simp_all [Statement, Instr.wf, Instr.issuer, Instr.message, fnOk]
theorem logFlushTimer : Statement .logFlushTimer := by
  simp_all [Statement, Instr.wf, Instr.issuer, Instr.message]
theorem ageingCheck (group : Nat) (fell : Bool) : Statement (.ageingCheck group fell) := by
  simp_all [Statement, Instr.wf, Instr.issuer, Instr.message]
theorem devicePowerOn : Statement .devicePowerOn := by
  simp_all [Statement, Instr.wf, Instr.issuer, Instr.message]
theorem devicePowerOff : Statement .devicePowerOff := by
  simp_all [Statement, Instr.wf, Instr.issuer, Instr.message]
theorem faultReset : Statement .faultReset := by
  simp_all [Statement, Instr.wf, Instr.issuer, Instr.message]
theorem autoBoot (value : Nat) : Statement (.autoBoot value) := by
  simp_all [Statement, Instr.wf, Instr.issuer, Instr.message]
theorem safeBoot (value : Nat) : Statement (.safeBoot value) := by
  simp_all [Statement, Instr.wf, Instr.issuer, Instr.message]
theorem bmcStateRequest (value : Nat) : Statement (.bmcStateRequest value) := by
  simp_all [Statement, Instr.wf, Instr.issuer, Instr.message]
theorem powerMode (value : Nat) : Statement (.powerMode value) := by
  simp_all [Statement, Instr.wf, Instr.issuer, Instr.message]
theorem stepCeiling (value : Nat) : Statement (.stepCeiling value) := by
  simp_all [Statement, Instr.wf, Instr.issuer, Instr.message]
theorem logSnapshot (value : Nat) : Statement (.logSnapshot value) := by
  simp_all [Statement, Instr.wf, Instr.issuer, Instr.message]
theorem domainRequest (domain value : Nat) : Statement (.domainRequest domain value) := by
  simp_all [Statement, Instr.wf, Instr.issuer, Instr.message]
theorem bmcDeviceId (value : Nat) : Statement (.bmcDeviceId value) := by
  simp_all [Statement, Instr.wf, Instr.issuer, Instr.message]
theorem getPdr (handle : Nat) : Statement (.getPdr handle) := by
  simp_all [Statement, Instr.wf, Instr.issuer, Instr.message]
theorem getPdrRepositoryInfo : Statement .getPdrRepositoryInfo := by
  simp_all [Statement, Instr.wf, Instr.issuer, Instr.message]
theorem setEventReceiver (eid : Nat) : Statement (.setEventReceiver eid) := by
  simp_all [Statement, Instr.wf, Instr.issuer, Instr.message]
theorem getSensorReading (sensor : Nat) : Statement (.getSensorReading sensor) := by
  simp_all [Statement, Instr.wf, Instr.issuer, Instr.message]
theorem getStateSensorReadings (sensor : Nat) : Statement (.getStateSensorReadings sensor) := by
  simp_all [Statement, Instr.wf, Instr.issuer, Instr.message]
theorem getStateEffecterStates (effecter : Nat) : Statement (.getStateEffecterStates effecter) := by
  simp_all [Statement, Instr.wf, Instr.issuer, Instr.message]
theorem getNumericEffecterValue (effecter : Nat) : Statement (.getNumericEffecterValue effecter) := by
  simp_all [Statement, Instr.wf, Instr.issuer, Instr.message]
theorem pollForPlatformEventMessage (ack : Option Nat) : Statement (.pollForPlatformEventMessage ack) := by
  simp_all [Statement, Instr.wf, Instr.issuer, Instr.message]
theorem requestUpdate (agent : Nat) : Statement (.requestUpdate agent) := by
  simp_all [Statement, Instr.wf, Instr.issuer, Instr.message]
theorem updateComponent (agent component : Nat) : Statement (.updateComponent agent component) := by
  simp_all [Statement, Instr.wf, Instr.issuer, Instr.message]
theorem componentVerifyDone : Statement .componentVerifyDone := by
  simp_all [Statement, Instr.wf, Instr.issuer, Instr.message]
theorem activateFirmware (agent : Nat) : Statement (.activateFirmware agent) := by
  simp_all [Statement, Instr.wf, Instr.issuer, Instr.message]
theorem setEndpointId (binding eid : Nat) : Statement (.setEndpointId binding eid) := by
  simp_all [Statement, Instr.wf, Instr.issuer, Instr.message]
theorem getEndpointId (binding : Nat) : Statement (.getEndpointId binding) := by
  simp_all [Statement, Instr.wf, Instr.issuer, Instr.message]
theorem getMctpVersionSupport (binding type : Nat) : Statement (.getMctpVersionSupport binding type) := by
  simp_all [Statement, Instr.wf, Instr.issuer, Instr.message]
theorem getMessageTypeSupport (binding : Nat) : Statement (.getMessageTypeSupport binding) := by
  simp_all [Statement, Instr.wf, Instr.issuer, Instr.message]
theorem getEndpointUuid (binding : Nat) : Statement (.getEndpointUuid binding) := by
  simp_all [Statement, Instr.wf, Instr.issuer, Instr.message]
theorem pcieLinkUp (speed width : Nat) : Statement (.pcieLinkUp speed width) := by
  simp_all [Statement, Instr.wf, Instr.issuer, Instr.message]
theorem configurationSpaceWrite (fn : Nat) (field : CfgField) : Statement (.configurationSpaceWrite fn field) := by
  simp_all [Statement, Instr.wf, Instr.issuer, Instr.message, fnOk]
theorem msiXTableWrite (fn off size : Nat) (value : Word) : Statement (.msiXTableWrite fn off size value) := by
  simp_all [Statement, Instr.wf, Instr.issuer, Instr.message, fnOk]
theorem platformEventAcknowledge (id : Nat) : Statement (.platformEventAcknowledge id) := by
  simp_all [Statement, Instr.wf, Instr.issuer, Instr.message]
theorem componentDataTransfer (agent offset : Nat) (bytes : List Byte) : Statement (.componentDataTransfer agent offset bytes) := by
  simp_all [Statement, Instr.wf, Instr.issuer, Instr.message]
theorem logWriteComplete : Statement .logWriteComplete := by
  simp_all [Statement, Instr.wf, Instr.issuer, Instr.message]

end Sys2Proof.Laws.Issuer
end

