-- ==== Sys2Proof/Tests/Slice0.lean ====
section
/-!
SUPPORT. The model's own tests: terms each check of well-formedness refuses, and for each statement a state and operands that
meet its hypotheses, clause by clause.
-/
set_option maxRecDepth 40000
namespace Sys2Proof.Tests
open Sys2Proof.Machine

/-! ### Well-formedness -/

def msg0 (b : FabBody) : FabMsg := ⟨0, 1, false, 0, 0, b⟩

theorem test_wf_accepts : [Instr.ctxOpen 16 15 4095 0 262143, .registerWrite 0 0 8 0, .matmul 5 900, .hello 11 (msg0 (.ready 0)),
    .droopDetect 15 40, .getVersion 1 []].all Instr.wf = true := by decide
theorem test_wf_function : (Instr.holVerify 17).wf = false := by decide
theorem test_wf_ring : (Instr.packetFetch 262144 []).wf = false := by decide
theorem test_wf_context : (Instr.recordWrite 4096).wf = false := by decide
theorem test_wf_partition : (Instr.migrationMove 16).wf = false := by decide
theorem test_wf_core : (Instr.weltPacketReceive 0 64 0 true).wf = false := by decide
theorem test_wf_array : (Instr.itemClaim 0 68).wf = false := by decide
theorem test_wf_vault : (Instr.memMarginStart 0 64 0).wf = false := by decide
theorem test_wf_channel : (Instr.bulkRecalibration 64 false).wf = false := by decide
theorem test_wf_port : (Instr.linkDown 12).wf = false := by decide
theorem test_wf_lane : (Instr.pelvasRecalibration 0 4).wf = false := by decide
theorem test_wf_group : (Instr.droopDetect 16 30).wf = false := by decide
theorem test_wf_domain : (Instr.domainRequest 30 1).wf = false := by decide
theorem test_wf_rule : (Instr.fiHoldRelease 16).wf = false := by decide
theorem test_wf_binding : (Instr.getEndpointId 2).wf = false := by decide
theorem test_wf_size : (Instr.registerWrite 0 0 2 0).wf = false := by decide
theorem test_wf_device_id : (Instr.memberLossTimeout 65536).wf = false := by decide
theorem test_wf_message : (Instr.elect 0 ⟨65536, 0, false, 0, 0, .elect 0⟩).wf = false := by decide
theorem test_wf_temperatures : (Instr.junctionSample [32768]).wf = false := by decide
theorem test_wf_slot : (Instr.inputStageCharged 4800 8).wf = false := by decide

/-! ### The hash -/

/-- The first bytes of the published digest of "abc" (the example of FIPS 180-4; the hash of R70 and R400). -/
theorem test_sha256_abc : (sha256 [0x61, 0x62, 0x63]).take 4 = [0xBA, 0x78, 0x16, 0xBF] := by decide +kernel

/-! ### States -/

/-- Registers set one after another. -/
def R (s : State) (l : List (Nat × Nat)) : State := l.foldl (fun s x => s.setReg x.1 (BitVec.ofNat 64 x.2)) s

/-- The reset machine in another device state. -/
def dv (d : Nat) : State := R State.reset [(Reg.GLB_STATE, d)]

/-- A part in state d with the built-in structure, every domain up and the tick running. -/
def up (d : Nat) : State :=
  { dv d with
    hol := { State.reset.hol with cur := builtIn, verified := true }
    pwr := { State.reset.pwr with on := 2 ^ 30 - 1, ready := 2 ^ 30 - 1, volts := 4800 }
    tick := { State.reset.tick with running := true, lcCores := 2 ^ 64 - 1, beCores := 2 ^ 64 - 1 } }

/-- Context 1 open with rings 0 to 3, its first GiB mapped to 0x4000_0000, its ring table at 0x1000. -/
def op1 : State :=
  physWrite (physWrite (R { up stRun with ctxs := [(1, { Ctx.free with state := 1, count := 4 })] }
    [(Reg.CTX_PT_ROOT 1, 0x10000), (Reg.RING_CTX_TABLE 1, 0x1000)])
    0x10000 (leBytes 8 (2 ^ 63 + 0x20000))) 0x20000 (leBytes 8 (2 ^ 63 + 2 ^ 62 + 2 ^ 61 + 0x40000000))

/-- A fetching ring of context 1. -/
def rg : Ring := { Ring.closed with owner := 1, state := 2, tail := 4, w1 := BitVec.ofNat 64 (2 ^ 60 + 16 * 2 ^ 50), descVa := 0x1000 }

/-- A packet with these header words. -/
def pk (op : Nat) (ws : List Nat) (payload : List Byte) : Packet := ⟨BitVec.ofNat 64 (op * 2 ^ 56) :: ws.map (BitVec.ofNat 64), payload, 0⟩

/-- Command 7 of context 1 on ring 0. -/
def ent (p : Packet) : Entry :=
  { id := 7, ctx := 1, ring := 0, part := 0, pkt := p, lc := true, admitTick := 0, held := none, begun := false, stage := 0,
    run := StageRun.idle, handover := [], srcPtrs := [], space := [], ret := [], under := false, sat := false, spills := 0, core := 0,
    seeded := true, paged := true, seed := 0, step0 := 0, edges := 0, detail := 0, recvd := [], stagedVals := [], stagedRaw := [],
    done := false }

/-- Context 1 with ring 0 fetching and one command in flight. -/
def fl (e : Entry) : State := { op1 with rings := [(0, rg)], flight := [e] }

/-- UP port 0, its partner unknown. -/
def p0 (s : State) : State := R s [(Reg.PLK_STAT 0, 2 * 2 ^ 62)]

/-- What succeeds has a result. -/
theorem ok_of {α : Type} (x : Except MErr α) (h : x.toOption.isSome = true) : ∃ a, x = .ok a := by
  cases x with
  | error e => simp [Except.toOption] at h
  | ok a => exact ⟨a, rfl⟩

/-- What fails translation fails with that address. -/
theorem err_of {α : Type} (x : Except MErr α) (a : Nat)
    (h : (match x with | .error (.trans b) => decide (b = a) | _ => false) = true) : x = .error (.trans a) := by
  split at h
  · simp_all
  · simp at h

/-- Memory with no stored error, no frame being cleared and no cached line is still. -/
def quiet (s : State) : Bool := s.mem.sound && s.mem.clearing.isEmpty && s.mem.cache.isEmpty
theorem still_of (s : State) (h : quiet s = true) : s.mem.still := by
  simp only [quiet, Bool.and_eq_true, List.isEmpty_iff] at h
  exact ⟨h.1.1, h.1.2, by simp [h.2]⟩

/-- The command of an entry runs. -/
def runsB (s : State) (e : Entry) : Bool := s.live && decide (s.entry e.id = some e ∧ e.done = false) && s.partOn e.part
theorem runs_of (s : State) (e : Entry) (h : runsB s e = true) : s.runs e.id e := by
  simp only [runsB, Bool.and_eq_true, decide_eq_true_eq] at h
  exact ⟨h.1.1, h.1.2.1, h.1.2.2, h.2⟩

/-- What a stage act leaves behind is known when it makes no error. -/
theorem act_of (m : M) (h : m.2.isNone = true) : ∃ t, m = (t, none) := by
  obtain ⟨t, o⟩ := m
  cases o with
  | none => exact ⟨t, rfl⟩
  | some x => simp at h

/-! ### The machine, power -/

theorem witness_QueueStep : State.reset.pending = [] := by decide
theorem witness_OnlyInputSampleStops : (7201 : Nat) > 7200 := by decide
theorem witness_StaysCanonical : Memory.wf op1.mem = true ∧ Registers.wf op1 = true ∧ step op1 = .next op1 := by
  refine ⟨by decide, by decide, rfl⟩
theorem witness_PowerTransitions : (dv stOff).devState = stOff ∧ (dv stRun).devState ≠ stOff ∧ (dv stRun).devState ≠ stFault ∧
    (R (dv stRun) [(Reg.PWR_STAT, 2 ^ 58)]).fldR Reg.PWR_STAT 58 58 = 1 ∧
    (100 ≤ { (dv stRun).pwr with usOv := 100 }.usOv ∧
      ∃ l ∈ [{ GroupLoop.none with tripSamples := 100 }], 100 ≤ l.tripSamples) := by decide
theorem witness_InputSampled : (dv stStandby).devState = stStandby ∧ 3000 ≤ 3600 ∧ 7200 ≤ 7200 := by decide
theorem witness_RideThrough :
    (let s := R { up stRun with pwr := { (up stRun).pwr with usRide := 20000 } } [(Reg.PWR_STAT, 2 ^ 60)]
     s.working = true ∧ s.fldR Reg.PWR_STAT 60 60 = 1 ∧ 20000 ≤ s.pwr.usRide ∧ s.fldR Reg.PWR_STAT 58 58 = 0) ∧
    (let s := R { up stRun with pwr := { (up stRun).pwr with us41 := 1000, rideEdge := true } } [(Reg.PWR_STAT, 2 ^ 60)]
     s.fldR Reg.PWR_STAT 60 60 = 1 ∧ s.fldR Reg.PWR_STAT 58 58 = 0 ∧ 1000 ≤ s.pwr.us41 ∧ s.pwr.rideEdge = true) := by decide
theorem witness_DroopAndActivity : (15 < (up stRun).pwr.groups.length ∧ ((up stRun).loop 15).drooped = false) ∧
    ((up stRun).setLoop 0 fun l => { l with drooped := true }).loop 0 = { GroupLoop.none with drooped := true } ∧
    (up stRun).pwr.groups.length = 16 := by decide
theorem witness_SafetyLoops :
    (let s := R { up stRun with pwr := { (up stRun).pwr with usExc := 100, excAt := 100 } } [(Reg.PWR_STAT, 2 ^ 57)]
     s.fldR Reg.PWR_STAT 57 57 = 1 ∧ s.pwr.excAt ≤ s.pwr.usExc) ∧ (up stBoot).devState ≠ stOff ∧ (up stBoot).devState ≠ stStandby ∧
    100 ≤ (((up stRun).setLoop 15 fun l => { l with coolSamples := 100 }).loop 15).coolSamples := by decide
theorem witness_EnergyAndDomains : 10 + ([(4095, 5)].map (·.2)).sum ≤ 15 ∧ (∀ x ∈ [(4095, 5)] ++ [(1, 7)], x.1 < 4096) ∧
    (2 ^ 29).testBit 29 = true ∧ (0 : Nat).testBit 29 = false := by decide
theorem witness_StateRequests : 2 ≤ (up stReady).devState ∧ (up stReady).devState = stReady ∧ (up stRun).devState ≠ stReady ∧
    (up stSafe).devState = stSafe ∧ (up stSafe).openCtxs = [] ∧ (up stSafe).hol.verified = true ∧ (dv stBoot).hol.verified = false ∧
    (dv stBoot).hol.pendFull = none := by decide
theorem witness_BootAndFirmware :
    (let s := R { dv stStandby with pwr := (up stRun).pwr } [(Reg.MGT_STAT, 2 ^ 63)]
     s.devState = stStandby ∧ 4000 ≤ s.pwr.volts ∧ s.fldR Reg.MGT_STAT 63 63 = 1 ∧ s.dev.bmcOff = false) ∧
    { (up stRun).pwr with volts := 3999 }.volts < 4000 ∧ (dv stBoot).devState = stBoot ∧
    (∀ b ∈ [] :: (dv stBoot).sec.fwSlots, (dv stBoot).fwResult b ≠ 0) ∧ (dv stTrain).devState = stTrain := by decide
theorem witness_PowerOffAndFaultReset : 2 ≤ (dv stBoot).devState ∧ (dv stFault).devState = stFault := by decide
theorem witness_TrainEnds : (dv stTrain).devState = stTrain ∧ (1 ||| 0 ||| 0 ||| 0 ||| 0 ||| 0 : Nat) ≠ 0 ∧
    { (dv stTrain).dev with safeBoot := true }.safeBoot = true := by decide
theorem witness_LinkAndFunctionResets : (dv stBoot).working = true ∧ { (dv stBoot).dev with linkUp := true }.linkUp = true ∧
    State.reset.fns.length = 17 ∧
    (let s := { op1 with ctxs := [(1, { Ctx.free with state := 1, fn := 16, count := 4 })] }
     s.ctxState 1 = 1 ∧ s.ctxFn 1 = 16) := by decide

/-- A firmware image whose header is in order. -/
def fwImg : List Byte :=
  leBytes 8 (0x4E46574D * 2 ^ 32 + 2 ^ 16 + 0x0101) ++ leBytes 8 (64 * 2 ^ 32) ++ leBytes 8 (2 * 2 ^ 48) ++ zeros 40 ++ zeros 7856

/-- The signature scheme is opaque: where it accepts this image's signature, the image is accepted. -/
theorem witness_BootAndFirmware_accepted (h : Config.slhVerify ((dv stBoot).sec.fwKeys.getD (fwHeader fwImg).key [])
    (fwImg.take (fwHeader fwImg).length) ((fwImg.drop (fwHeader fwImg).length).take 7856) = true) :
    (dv stBoot).fwResult fwImg = 0 := by
  unfold State.fwResult
  simp only [h]
  decide

/-! ### The Hollon block, management, security -/

/-- HOL_STATUS with STAGE. -/
def hs (s : State) (stage extra : Nat) : State := R s [(Reg.HOL_STATUS, stage * 2 ^ 24 + extra)]

theorem witness_HollonVerified : (up stReady).live = true ∧ (up stReady).holStage ≠ stgVerifying ∧
    (hs (up stReady) stgVerifying 0).holStage = stgVerifying ∧ ([1, 2, 3, 4, 5, 6, 7, 8] : List Byte).length = 8 ∧ 0xFFFF8 % 8 = 0 ∧
    0xFFFF8 + 8 ≤ 0x100000 ∧ ([] : List Byte).length ≠ 4 ∧ ([] : List Byte).length ≠ 8 := by decide
theorem witness_HollonCommitted :
    (let s := hs (up stReady) stgFull 0
     s.live = true ∧ s.holStage = stgFull ∧ s.devState = stReady ∧ s.hol.pendFrag = none) ∧
    (let s := hs (up stRun) stgFragment 0
     s.holStage = stgFragment ∧ s.hol.pendFrag = none ∧ s.hol.pendFull = none) ∧
    ((up stReady).holStage ≠ stgFull ∧ (up stReady).holStage ≠ stgFragment) ∧ (hs (up stRun) stgFull 0).devState = stRun ∧
    (hs (up stReady) 0 (2 ^ 10)).fldR Reg.HOL_STATUS 10 10 = 1 ∧ (up stReady).pwr.on &&& (up stReady).pwr.ready = (up stReady).pwr.on := by
  decide
theorem witness_HollonCommitted_waiting :
    let s := { hs (up stRun) stgFragment 0 with hol := { (up stRun).hol with pendFrag := some (readImage []), expired := true } }
    s.holStage = stgFragment ∧ s.hol.pendFrag.isSome = true ∧ s.hol.expired = true := by
  refine ⟨by decide, rfl, rfl⟩
theorem witness_HollonStore :
    (let s := hs (up stReady) stgFull 0
     s.live = true ∧ s.holStage = stgFull ∧ s.fldR Reg.HOL_STATUS 8 8 = 0 ∧ s.mgt.component ≠ some 2) ∧
    (hs (up stReady) stgFull (2 ^ 8)).fldR Reg.HOL_STATUS 8 8 = 1 ∧
    { (up stReady).hol with storing := some (1, [0], true) }.storing = some (1, [0], true) ∧ 1 < (up stReady).sec.holSlots.length := by
  decide
theorem witness_Effecters : (dv stStandby).devState ≠ stOff ∧ (dv stStandby).effF Reg.CLX_CFG 63 63 = 0 ∧
    (dv stStandby).live = false ∧ (up stRun).live = true ∧ (up stRun).effF Reg.CLX_CFG 63 63 = 0 ∧
    (up stRun).fab.known = [] ∧ ((up stRun).setEff Reg.CLX_CFG (2 ^ 63)).live = true ∧
    ((up stRun).setEff Reg.CLX_CFG (2 ^ 63)).effF Reg.CLX_CFG 63 63 = 1 := by decide
theorem witness_SensorsAndEndpoints : (dv stStandby).devState ≠ stOff ∧
    ({ dv stRun with mgt := { State.reset.mgt with log := [⟨0, 1, 2, 3, 4⟩] } }).logView[0]?.isSome = true := by decide
theorem witness_Events : let s := { dv stRun with mgt := { State.reset.mgt with events := [⟨1, 0, 5⟩, ⟨2, 0, 6⟩] } }
    s.devState ≠ stOff ∧ s.mgt.events = ⟨1, 0, 5⟩ :: [⟨2, 0, 6⟩] ∧ ∀ x ∈ ([⟨2, 0, 6⟩] : List Event), x.id ≠ 1 := by decide
theorem witness_FirmwareUpdate : (up stReady).live = true ∧ (up stReady).mgt.updater = none ∧
    (let s := { up stReady with mgt := { State.reset.mgt with updater := some 0, component := some 1, received := [1, 2], activatable := some 1 } }
     s.devState ≠ stOff ∧ s.mgt.updater = some 0 ∧ s.mgt.component.isSome = true ∧ ([7] : List Byte).length ≤ 4096 ∧
       s.mgt.component = some 1 ∧ s.sec.runSlot < 2 ∧ s.sec.fwSlots.length = 2 ∧ s.mgt.activatable = some 1 ∧
       s.fwResult s.mgt.received ≠ 0 ∧ s.mgt.updater ≠ some 1) := by decide
theorem witness_LogAndAgeing :
    (let s := { up stReady with mgt := { State.reset.mgt with unwritten := true, writing := true } }
     s.devState ≠ stOff ∧ s.mgt.unwritten = true ∧ s.mgt.writing = true ∧ s.fldR Reg.HOL_STATUS 8 8 = 0 ∧ s.mgt.component = none) ∧
    (let s := { up stReady with mgt := { State.reset.mgt with trims := List.replicate 16 9 } }
     s.live = true ∧ s.mgt.trims.length = 16 ∧ s.mgt.trims.getD 15 0 < 10) := by decide
theorem witness_SecurityCommands :
    (let s := R (up stBoot) [(Reg.SEC_CMD_STATUS, 2 ^ 63)]
     2 ≤ s.devState ∧ s.fldR Reg.SEC_CMD_STATUS 63 63 = 1) ∧
    (let s := R (up stSafe) [(Reg.SEC_STAT, 5 * 2 ^ 39), (Reg.SEC_SLOT 1, 2 ^ 63 + 2 * 2 ^ 48)]
     s.fldR Reg.SEC_CMD_STATUS 63 63 = 0 ∧ s.live = true ∧ s.devState = stSafe ∧ s.fldR Reg.SEC_STAT 45 39 < 6 ∧
       5 ≤ s.fldR Reg.SEC_STAT 45 39 ∧ s.fldR (Reg.SEC_SLOT (1 - s.fldR Reg.SEC_STAT 55 55)) 63 63 = 1 ∧
       s.fldR (Reg.SEC_SLOT (1 - s.fldR Reg.SEC_STAT 55 55)) 54 48 < 5 ∧ 0 % 2 = s.fldR Reg.SEC_STAT 46 46) ∧
    (let s := R (up stRun) [(Reg.SEC_STAT, 5 * 2 ^ 39)]
     s.live = true ∧ 5 ≤ s.fldR Reg.SEC_STAT 45 39 ∧ s.fldR (Reg.SEC_SLOT (1 - s.fldR Reg.SEC_STAT 55 55)) 63 63 = 0 ∧ s.sec.rollback < 5 ∧
       1 % 2 ≠ s.fldR Reg.SEC_STAT 46 46 ∧ s.devState ≠ stSafe) ∧ (up stBoot).live = false ∧
    { (up stRun).sec with op := some (2, 1) }.op = some (2, 1) := by decide

/-- A part whose firmware runs, with connection 0 at a stage. -/
def sp (stage : Nat) : State :=
  { up stRun with
    dev := { State.reset.dev with fwRunning := true }
    sec := { State.reset.sec with certArea := some [1, 2, 3], conns := [{ SpdmConn.none with stage := stage, chunkOut := some (0, [9]) }, SpdmConn.none] } }

theorem witness_SpdmRequests : (up stRun).devState ≠ stOff ∧ (up stRun).spdmReady = false ∧ (sp 0).spdmReady = true ∧
    ((sp 0).conn 0).stage = 0 ∧ ((sp 1).conn 0).stage = 1 ∧ ((sp 2).conn 0).stage = 2 ∧ 3 ≤ ((sp 3).conn 0).stage ∧
    (sp 3).sec.conns.length = 2 ∧ (sp 3).sec.certArea.isSome = true ∧ rb [0, 0, 0, 0, 2, 0, 1, 0] 2 % 16 = 0 ∧
    rb [0, 0, 0, 0, 2, 0, 1, 0] 4 + 256 * rb [0, 0, 0, 0, 2, 0, 1, 0] 5 < (sp 3).certChain.length ∧
    rb [0, 0, 0, 0] 3 = 0 ∧ rb [0, 0, 0, 0] 2 % 2 = 0 ∧ rb [0, 0, 0, 0, 0, 0] 4 + 256 * rb [0, 0, 0, 0, 0, 0] 5 = 0 ∧
    ((sp 3).conn 0).chunkOut = some (rb [0, 0, 0, 0, 0, 0] 3, [9]) := by decide

/-! ### Contexts and the tick -/

theorem witness_ContextsOpenAndEnd :
    (let s := up stReady
     s.live = true ∧ 4095 < 4096 ∧ s.ctxBusy = false ∧ s.ctxState 4095 = 0 ∧ (s.part 0).defined = true ∧ s.fldR Reg.HOL_STATUS 10 10 = 0 ∧
       s.hol.pendFull = none ∧ s.hol.pendFrag = none ∧ (s.openCtxs.filter fun m => decide (s.ctxPart m = 0)).length < (s.part 0).maxCtx ∧
       262140 + 4 ≤ 262144 ∧ (∀ m ∈ s.openCtxs, 262144 ≤ (s.ctx m).first ∨ (s.ctx m).first + (s.ctx m).count ≤ 262140) ∧
       (s.part 1).defined = false ∧ s.openResult 0 0 4095 0 0 = resOk ∧ 262144 < 262141 + 4) ∧
    (R (up stReady) [(Reg.CTX_CMD_STATUS, 2 ^ 63)]).ctxBusy = true ∧ op1.ctxBusy = false ∧ op1.ctxState 1 ≠ 0 ∧
    op1.ctxState 1 = 1 ∧ (op1.ctx 1).closing = false ∧ op1.ctxFlight 1 = [] ∧ (op1.ctx 1).recs = [] := by decide

/-- Context 1 being saved, its save area at va 0x8000 of 4 KiB. -/
def sv (size : Nat) : State :=
  { R op1 [(Reg.CTX_SAVE 1, 8 * 2 ^ 24 + size)] with ctxs := [(1, { Ctx.free with state := 2, count := 4, saving := some false })] }

theorem witness_ContextsSaved : op1.ctxBusy = false ∧ op1.ctxState 1 = 1 ∧ op1.saveUnavail 1 (op1.saveHandles 1) = false ∧
    (sv 1).live = true ∧ ((sv 1).ctx 1).saving = some false ∧ (sv 1).quiet 1 = true ∧ (sv 1).ctxFlight 1 = [] ∧ (sv 1).ctxSlots 1 = [] ∧
    (sv 1).retained = [] ∧ (sv 1).saveUnavail 1 ((sv 1).saveHandles 1) = false ∧ (sv 1).mem.clearing = [] ∧
    (∀ r, r < 4 → ((sv 1).ring r).state = 0) := by decide
theorem witness_ContextsSaved_image : (∃ bs, saveImage (sv 1) 1 false = .ok bs ∧ bs.length ≤ (sv 1).saveSize 1 ∧
      (vwrite (sv 1) 1 ((sv 1).saveBase 1) bs).2 = none) ∧
    ∃ bs, saveImage (sv 0) 1 false = .ok bs ∧ (sv 0).saveSize 1 < bs.length := by
  refine ⟨⟨_, rfl, by decide, by decide⟩, ⟨_, rfl, by decide⟩⟩

/-- Context 1 with a save area that holds the image of (sv 1), or nothing. -/
def rs (image : Bool) : State :=
  let s := R op1 [(Reg.CTX_SAVE 1, 8 * 2 ^ 24 + 1)]
  if image then match saveImage (sv 1) 1 false with
    | .ok bs => (vwrite s 1 (s.saveBase 1) bs).1
    | .error _ => s
  else s

theorem witness_ContextsRestored : (rs true).live = true ∧ (rs true).ctxBusy = false ∧ (rs true).ctxState 1 = 1 ∧
    ((rs true).ctx 1).closing = false ∧ (∀ r, r < 4 → ((rs true).ring r).state = 0) ∧ (rs true).ctxFlight 1 = [] ∧
    (rs true).saveUnavail 1 [] = false ∧ (rs true).mem.clearing = [] := by decide
theorem witness_ContextsRestored_image : (∃ bs i, readImage? (rs true) 1 = .ok (some bs) ∧ readImg bs = some i ∧
      (rs true).restoreResult 1 i = resOk ∧ i.slots = [] ∧ i.cmds = [] ∧ (∀ x ∈ i.rings, x.state = 0) ∧
      (rs true).saveUnavail 1 (i.rings.map (·.sh)) = false ∧
      (∀ r ∈ ((rs true).ctx 1).recs ++ i.recs, (rs true).oversized 1 r = false)) ∧
    readImage? (rs false) 1 = .ok none ∧ (rs false).mem.sound = true := by
  refine ⟨⟨_, _, rfl, rfl, by decide, by decide, by decide, by decide, by decide, by decide⟩, rfl, by decide⟩
theorem witness_TickEdges :
    (let s := up stRun
     s.tick.running = true ∧ s.inGroup = false ∧ s.fab.sched = none ∧ s.dev.stateReq = none) ∧
    ((up stRun).setEff Reg.TCK_CFG (BitVec.ofNat 64 (5000 * 2 ^ 32))).tckMode = 0 ∧
    ((up stRun).setEff Reg.TCK_CFG (BitVec.ofNat 64 (5000 * 2 ^ 32))).tckPeriod = 5000 ∧
    ((up stRun).setEff Reg.TCK_CFG (BitVec.ofNat 64 (2 ^ 59 + 5000 * 2 ^ 32 + 7))).tckMode = 1 ∧
    ((up stRun).setEff Reg.TCK_CFG (BitVec.ofNat 64 (2 ^ 59 + 5000 * 2 ^ 32 + 7))).tckLimit = 5007 ∧
    ((up stRun).setEff Reg.TCK_CFG (BitVec.ofNat 64 (2 ^ 59 + 5000 * 2 ^ 32 + 7))).outstanding true = false ∧ (up stRun).tick.lcOpen = false ∧
    ((fl (ent (pk opcLoad [] []))).setEff Reg.TCK_CFG (BitVec.ofNat 64 (2 ^ 59 + 5000 * 2 ^ 32 + 7))).outstanding true = true ∧
    ((R (up stRun) [(Reg.CLX_STAT, 2 ^ 62)]).setEff Reg.TCK_CFG (BitVec.ofNat 64 (5000 * 2 ^ 32))).holdoverDue 5000 = true := by decide
theorem witness_WaitsAndYields :
    (let e := ent (pk opcTickFence [] [])
     runsB (fl e) e = true ∧ e.pkt.op = opcTickFence ∧ e.edges = 0 ∧ e.pkt.sh = 0 ∧
       (∀ x ∈ (fl e).ringFlight e.ring, x.id < 7 → x.done = true) ∧ { e with edges := 1 }.edges ≠ 0) ∧
    (let e := ent (pk opcTickFence [0, 3] [])
     e.pkt.sh ≠ 0 ∧ (advanceDraws (fl e) e.ctx [e.pkt.sh]).2.isNone = true) ∧
    (let e := ent (pk opcPark [] [])
     let s := { fl e with rings := [(0, { rg with transfer := true })] }
     runsB s e = true ∧ e.pkt.op = opcPark ∧ (s.ring e.ring).transfer = true ∧
       (∀ x ∈ s.ringFlight e.ring, x.done = true ∨ x = e) ∧ e ∈ s.flight) ∧
    (ent (pk opcResume [] [])).pkt.op = opcResume ∧
    (let e := { ent (pk opcLoad [] []) with held := some 0 }
     let s := R (fl e) [(Reg.TCK_STATUS, 64 * 2 ^ 16)]
     waitSince s e = some 0 ∧ 0 + s.holdLimit ≤ s.tickNum ∧ ∀ r ∈ s.kv.reserved, r.1 ≠ 7) := by decide
theorem witness_CoreYields : let e := { ent (pk opcMatmul [] []) with run := { StageRun.idle with started := true, arrays := [5], claims := [⟨5, 0⟩] } }
    let s := { fl e with ctxs := [(1, { Ctx.free with state := 2, count := 4, saving := some false })] }
    5 < 64 ∧ (s.flight.find? fun e => !e.done && e.run.claims.any (fun c => decide (c.array = 5)) && s.mustYield e 5) = some e ∧
    s.entry e.id = some e ∧ s.effF (Reg.SEQ_CFG 5) 15 0 < 65536 ∧ (s.setEff (Reg.SEQ_CFG 5) 0).effF (Reg.SEQ_CFG 5) 15 0 = 0 := by decide

/-! ### Rings and their commands -/

theorem witness_Doorbells :
    (let s := { op1 with rings := [(0, rg)] }
     s.live = true ∧ s.ctxOfRing 0 = some 1 ∧ (s.ring 0).state ≠ 0 ∧ (s.ring 0).state ≠ 5 ∧
       ((fld (9 : Word) 31 0) + 2 ^ 32 - (s.ring 0).head) % 2 ^ 32 ≤ (s.ring 0).cap ∧ s.fnOn 0 = true ∧ s.ctxFn 1 = 0 ∧ s.ctxState 1 ≠ 0) ∧
    (op1.ring 3).state = 0 ∧ op1.ctxOfRing 4 = none := by decide
theorem witness_RingsOpenAndClose :
    (let s := op1
     s.live = true ∧ quiet s = true ∧ s.ctxOfRing 3 = some 1 ∧ s.ctxState 1 = 1 ∧ writeErr s 1 (pieces (s.descVa 1 3 + 32) 16) = none ∧ (s.ring 3).state = 0 ∧
       s.fldR Reg.RING_CTL_STATUS 1 1 = 0) ∧
    (let s := { op1 with rings := [(0, rg)] }
     (s.ring 0).state ≠ 0 ∧ (s.ring 0).state ≠ 5 ∧ (s.ring 0).descVa = s.descVa 1 0 ∧ (s.ring 0).stream = none ∧ s.ringFlight 0 = [] ∧
       (∀ x ∈ (s.ctx (s.ring 0).owner).recs, x.ring ≠ 0)) ∧
    op1.ctxOfRing 4 = none := by decide
theorem witness_RingsOpenAndClose_read : ∃ bs, vread op1 1 (op1.descVa 1 3) 32 = .ok bs := ⟨_, rfl⟩
theorem witness_PacketsFetched : let s := { op1 with rings := [(0, rg)] }
    s.live = true ∧ s.fldR Reg.PWR_STAT 58 58 = 0 ∧ s.ctxOfRing 0 = some 1 ∧ s.turnOf (s.ctxPart 1) = some 0 ∧
    fld (s.ring 0).w0 0 0 = 0 ∧ fld (s.ring 0).w2 0 0 = 0 ∧ 64 * packetEntries (fld (wordAt (zeros 64) 0) 18 0) ≤ (zeros 64).length ∧
    s.barsCompute 0 = false ∧ packetEntries (fld (wordAt (zeros 64) 0) 18 0) ≤ (s.ring 0).avail ∧
    (let host := leBytes 8 256 ++ zeros 312
     64 * packetEntries (fld (wordAt host 0) 18 0) ≤ host.length ∧ (s.ring 0).avail < packetEntries (fld (wordAt host 0) 18 0) ∧
       packetEntries (fld (wordAt host 0) 18 0) ≤ (s.ring 0).cap) ∧
    (let s := { op1 with rings := [(0, { rg with parked := true, state := 4 })] }
     let host := leBytes 8 (opcMatmul * 2 ^ 56) ++ zeros 56
     s.turnOf (s.ctxPart 1) = some 0 ∧ (s.barsCompute 0 && isCompute (fld (wordAt host 0) 63 56)) = true ∧
       64 * packetEntries (fld (wordAt host 0) 18 0) ≤ host.length) := by decide

/-- Ring 0 with a packet fetched, and a budget in force. -/
def fe (p : Packet) (st : Nat) (budget : Nat) : State :=
  { op1.setEff (Reg.TCK_CTX_BUDGET 1) (BitVec.ofNat 64 budget) with rings := [(0, { rg with fetched := some p, state := st })] }

/-- Ring 0 holds a well-formed packet that may be admitted now, and the next number is free. -/
def admits (s : State) (p : Packet) : Bool :=
  decide ((s.ring 0).fetched = some p ∧ s.ctxOfRing 0 = some 1 ∧ s.entry s.nextId = none) && s.mayAdmit 0 1 p && !packetBad (s.ring 0) p &&
    !(takeEntry s 1 0 p).handleClash (newEntry s 1 0 p)

theorem witness_CommandsAdmitted :
    (admits (fe (pk opcLoad [0, 0, 1] []) 2 1000000) (pk opcLoad [0, 0, 1] []) = true ∧ (pk opcLoad [0, 0, 1] []).count ≠ 0) ∧
    (let p := pk opcLoad [0, 3] []
     let s := fe p 2 1000000
     admits s p = true ∧ p.count = 0 ∧ p.sh ≠ 0 ∧ (advanceDraws (takeEntry s 1 0 p) 1 [p.sh]).2.isNone = true) ∧
    (let p := pk opcMatmul [0, 0, 1] []
     let s := { fe p 2 5 with ctxs := [(1, { Ctx.free with state := 1, count := 4, used := 5 })] }
     (s.ring 0).fetched = some p ∧ s.admissible 0 = true ∧ s.overBudget 1 0 p = true) := by decide
theorem witness_WaitsTested :
    (let p := pk opcWait [0, 0, 1, 0x2000, 3] []
     let s := fe p 2 1000000
     s.live = true ∧ quiet s = true ∧ (s.ring 0).fetched = some p ∧ s.ctxOfRing 0 = some 1 ∧ p.op = opcWait ∧ packetBad (s.ring 0) p = false ∧
       writeErr s 1 (pieces ((s.ring 0).descVa + 32) 16) = none ∧ (s.ring 0).descVa % 64 = 0 ∧ s.mayAdmit 0 1 p = true) ∧
    (let p := pk opcWait [0, 0, 1, 0x2000, 0] []
     let s := fe p 3 1000000
     quiet s = true ∧ (s.ring 0).state = 3 ∧ s.ctxState 1 = 1 ∧ (s.ctx 1).saving = none ∧ packetBad (s.ring 0) p = false ∧
       (s.setRing 0 { s.ring 0 with state := (s.ring 0).base }).mayAdmit 0 1 p = true ∧ p.sh = 0 ∧ p.kh = 0 ∧ s.entry s.nextId = none ∧
       s.waitingRings = [0]) := by decide
theorem witness_WaitsTested_counters : waitMet (fe (pk opcWait [0, 0, 1, 0x2000, 3] []) 2 1000000) 1 (pk opcWait [0, 0, 1, 0x2000, 3] []) =
      .ok false ∧
    waitMet (fe (pk opcWait [0, 0, 1, 0x2000, 0] []) 3 1000000) 1 (pk opcWait [0, 0, 1, 0x2000, 0] []) = .ok true := ⟨rfl, rfl⟩
theorem witness_WaitsTested_poll : let p := pk opcWait [0, 0, 1, 0x2000, 3] []
    let s := fe p 3 1000000
    (∀ k ∈ s.waitingRings, k = 0) ∧ (s.ring 0).fetched = some p ∧ s.ctxOfRing 0 = some 1 ∧ waitMet s 1 p = .ok false :=
  ⟨by decide, rfl, by decide, rfl⟩

/-- Context 1 with a record waiting and its return ring of 16 entries. -/
def rw_ (en : Nat) : State :=
  { R op1 [(Reg.RING_RET_CFG 1, en * 2 ^ 63 + 4 * 2 ^ 59 + 5)] with
    ctxs := [(1, { Ctx.free with state := 1, count := 4, recs := [⟨7, List.replicate 7 0, [], false, none⟩], unsignalled := 1 })] }

theorem witness_RecordsWritten : (∀ x ∈ ((rw_ 1).ctx 1).recs, (rw_ 1).oversized 1 x = false) ∧ (rw_ 1).live = true ∧ (rw_ 1).ctxState 1 = 1 ∧
    ((rw_ 1).ctx 1).recs = ⟨7, List.replicate 7 0, [], false, none⟩ :: [] ∧ (rw_ 0).fldR (Reg.RING_RET_CFG 1) 63 63 = 0 ∧
    (rw_ 1).fldR (Reg.RING_RET_CFG 1) 63 63 = 1 ∧ packetEntries 0 ≤ (rw_ 1).retFree 1 ∧ (rw_ 1).fldR (Reg.RING_RET_BASE 1) 0 0 = 0 ∧
    (List.replicate 7 (0 : Word)).length = 7 ∧ 0 < ((rw_ 1).ctx 1).unsignalled ∧ (rw_ 1).fldR (Reg.RING_RET_CFG 1) 15 0 ≠ 0 ∧
    (rw_ 1).msixOpen 0 0 = false := by decide
/-- A state whose domains have all gone. -/
def dark (s : State) : State := { s with pwr := { s.pwr with ready := 0 } }

theorem witness_LoadsAndStores :
    (let e := ent (pk opcLoad [0, 0, 3, 0x3FFE] [1, 2, 3])
     let s := fl e
     runsB s e = true ∧ quiet s = true ∧ e.pkt.op = opcLoad ∧ e.pkt.count ≤ e.pkt.payload.length ∧ e.pkt.sh = 0 ∧
       writeErr s 1 (pieces e.pkt.va e.pkt.count) = none ∧
       (∀ c ∈ s.openCtxs, s.hostHits (s.reaches e.ctx e.pkt.va e.pkt.count) (some 7) c = false) ∧
       writeErr (dark s) 1 (pieces e.pkt.va e.pkt.count) = some .unavail) ∧
    (let e := ent (pk opcLoad [0, 3, 3, 0x3FFE] [1, 2, 3])
     let s := fl e
     e.pkt.sh ≠ 0 ∧ writeErr s 1 (pieces e.pkt.va e.pkt.count) = none ∧
       (∀ c ∈ s.openCtxs, s.hostHits (s.reaches e.ctx e.pkt.va e.pkt.count) (some 7) c = false) ∧
       (advanceDraws (vwrite s 1 e.pkt.va (e.pkt.payload.take e.pkt.count)).1 1 [e.pkt.sh]).2.isNone = true) ∧
    (let e := ent (pk opcLoad [0, 0, 1, 2 ^ 40] [1])
     let s := fl e
     writeErr s 1 (pieces e.pkt.va e.pkt.count) = some (.trans (2 ^ 40)) ∧
       (∀ c ∈ s.openCtxs, s.hostHits (s.reaches e.ctx e.pkt.va e.pkt.count) (some 7) c = false)) ∧
    (let e := ent (pk opcStore [0, 0, 3, 0x3FFE] [])
     runsB (fl e) e = true ∧ e.pkt.op = opcStore ∧ e.pkt.count ≤ 262144 ∧ e.pkt.sh = 0 ∧ packetEntries e.pkt.count ≤ (fl e).retCap 1 ∧
       (fl e).retCap 1 < packetEntries 1000) ∧
    (let e := ent (pk opcStore [0, 3, 3, 0x3FFE] [])
     e.pkt.sh ≠ 0 ∧ (advanceDraws (vtouch (fl e) 1 e.pkt.va e.pkt.count) 1 [e.pkt.sh]).2.isNone = true) := by decide
theorem witness_LoadsAndStores_read : (∃ bs, vread (fl (ent (pk opcStore [0, 0, 3, 0x3FFE] []))) 1 0x3FFE 3 = .ok bs) ∧
    vread (fl (ent (pk opcStore [0, 0, 1, 2 ^ 40] []))) 1 (2 ^ 40) 1 = .error (.trans (2 ^ 40)) ∧
    ∃ bs, vread (fl (ent (pk opcStore [0, 0, 1000, 0x3FFE] []))) 1 0x3FFE 1000 = .ok bs :=
  ⟨ok_of _ (by decide), err_of _ _ (by decide), ok_of _ (by decide +kernel)⟩

/-- FORK of ring 0 into ring 1, HELD. -/
def fk (st : Option Stream) : State :=
  let s := fl (ent (pk opcFork [0, 0, 1] (leBytes 8 1 ++ leBytes 8 0)))
  { s with rings := [(0, { rg with stream := st }), (1, { rg with state := 1, descVa := 0x1040 })] }

theorem witness_ControlCommands :
    (let e := ent (pk opcEvent [0, 0, 5, 0x2008] [])
     runsB (fl e) e = true ∧ quiet (fl e) = true ∧ e.pkt.op = opcEvent ∧ e.pkt.sh = 0 ∧ writeErr (fl e) 1 (pieces e.pkt.counter 8) = none ∧
       (fl e).waitersOn 1 e.pkt.counter = []) ∧
    (let e := ent (pk opcMigrate [] [])
     runsB (fl e) e = true ∧ e.pkt.op = opcMigrate ∧ e.begun = false ∧ e.pkt.sh = 0) ∧
    (let e := ent (pk opcFork [0, 0, 1] (leBytes 8 1 ++ leBytes 8 0))
     runsB (fk none) e = true ∧ quiet (fk none) = true ∧ e.pkt.op = opcFork ∧ e.seeded = true ∧ e.paged = true ∧
       childrenOf e.pkt = [⟨0, 1, 0⟩] ∧ 16 ≤ e.pkt.payload.length ∧ ((fk none).ring 1).state = 1 ∧
       (fk none).ctxOfRing 1 = some 1 ∧ ((fk (some ⟨0, 0, 3, 64⟩)).ring 0).stream.map (·.depth) = some 64 ∧
       (((fk none).ring 0).stream.map (·.depth)).getD 0 ≠ 64 ∧ e.pkt.sh = 0 ∧ e.pkt.kh = 0 ∧
       (fk none).chainWidth ((((fk none).ring 0).stream.map (·.chain)).getD 7) < 262144 ∧ (fk none).domReady 24 = true ∧
       writeErr (fk none) 1 (pieces (((fk none).ring 1).descVa + 32) 16) = none ∧ ((fk none).ring 1).descVa % 64 = 0) := by decide

/-- MIGRATE of one page of context 1 to the bulk tier, with frames on its stack or none. -/
def mg (frames : Nat) : State :=
  physWrite (physWrite (R (fl (ent (pk opcMigrate [0, 0, 1, 0, 1] []))) [(Reg.MIG_COUNT 0, frames), (Reg.MIG_STACK 0 1, 0x30000)])
    0x20000 (leBytes 8 (2 ^ 63 + 0x28000))) 0x28000 (leBytes 8 (2 ^ 63 + 2 ^ 62 + 2 ^ 61 + 2 ^ 60 + 0x40000000))

theorem witness_ControlCommands_read : (∃ v, vread64 (fl (ent (pk opcEvent [0, 0, 5, 0x2008] []))) 1 0x2008 = .ok v) ∧
    migratePlan (fl (ent (pk opcMigrate [] []))) (ent (pk opcMigrate [] [])) = .ok [] ∧
    (mg 0).stackLen 0 1 = 0 ∧ quiet (mg 1) = true ∧ (match migratePlan (mg 0) (ent (pk opcMigrate [0, 0, 1, 0, 1] [])) with
      | .ok (_ :: _) => true
      | _ => false) = true ∧
    ∃ x, popFrames (mg 1) 0 1 1 = .ok x := by
  refine ⟨ok_of _ (by decide), rfl, by decide, by decide, by decide +kernel, ok_of _ (by decide +kernel)⟩
theorem witness_ConfigAndCommit :
    (let e := ent (pk opcConfig [0, 0, 1] (leBytes 8 0x28 ++ leBytes 8 5))
     runsB (fl e) e = true ∧ e.pkt.op = opcConfig ∧ 16 * e.pkt.count ≤ e.pkt.payload.length ∧ e.pkt.sh = 0 ∧
       ∀ k, k < e.pkt.count → (wordAt e.pkt.payload (2 * k)).toNat % 8 = 0 ∧ (wordAt e.pkt.payload (2 * k)).toNat < 0x1900000 ∧
         (match findReg (wordAt e.pkt.payload (2 * k)).toNat with
           | some g => g.1.plain
           | none => true) = true) ∧
    (let e := ent (pk opcConfig [0, 3, 1] (leBytes 8 0x28 ++ leBytes 8 5))
     e.pkt.sh ≠ 0 ∧ (advanceDraws (fl e) 1 [e.pkt.sh]).2.isNone = true) ∧
    (let e := ent (pk opcCommit [] [])
     runsB (fl e) e = true ∧ e.pkt.op = opcCommit ∧ e.pkt.sh = 0) ∧
    (let e := ent (pk opcCommit [0, 3] [])
     e.pkt.sh ≠ 0 ∧ (advanceDraws (fl e) 1 [e.pkt.sh]).2.isNone = true) := by decide
theorem witness_ConfigAndCommit_writes : ∀ e, e = ent (pk opcConfig [0, 0, 1] (leBytes 8 0x28 ++ leBytes 8 5)) →
    ∃ u, exec (.registerWrite ((fl e).ctxFn e.ctx) 0x28 8 5) (fl e) = .next u ∧ u.entry 7 = some e := by
  rintro e rfl
  exact ⟨_, rfl, by decide⟩

/-! ### Accesses over PCIe -/

theorem witness_RegisterWrites :
    (let s := up stRun
     2 ≤ s.devState ∧ Reg.CTX_CFG 4095 % 8 = 0 ∧ (Reg.CTX_CFG 4095 < 0x1900000 ∨ 0x1A00000 ≤ Reg.CTX_CFG 4095) ∧
       s.reachable (Reg.CTX_CFG 4095) = true ∧ 9 % 8 ≠ 0 ∧ (0x28 + 2 ^ 40) % 8 = 0 ∧ 0x1A00000 ≤ 0x28 + 2 ^ 40 ∧
       (findReg (0x28 + 2 ^ 40)).isNone = true ∧
       (match findReg (Reg.CTX_CFG 4095) with
         | some (r, i, j) => r.plain && s.mayWrite 0 r i j && !s.mayWrite 3 r i j
         | none => false) = true) := by decide
theorem witness_Bar4Accesses : (up stRun).bar4Reach 0 0x40000 64 = some 0 ∧ (up stRun).badUnit 0x40000 64 = none ∧
    (up stRun).clears 0x40000 64 = false ∧ quiet (up stRun) = true ∧ (up stRun).packetOwners 0x40000 64 = [] ∧
    (∀ c ∈ op1.openCtxs, op1.hostHits [(0x80000, 64)] none c = false) ∧ op1.bar4Reach 0 0x80000 64 = some 0 ∧
    { up stRun with mem := { Mem.empty with clearing := [0] } }.clears 0x40000 64 = true ∧
    (up stRun).live = true ∧ (up stRun).hol.cur.ownerOf 0x40000 ≠ (up stRun).hol.cur.partOfFn 16 ∧ (dv stBoot).devState = stBoot := by
  decide
theorem witness_FunctionSettings : (up stRun).fns.length = 17 ∧ 2 ≤ (up stRun).devState ∧ (up stRun).fnOn 0 = true ∧
    (let s := { up stRun with fns := { FnCfg.reset 0 with d3hot := true, msixEnable := true } :: FnCfg.resetAll.tail,
                              msix := [(2047, { MsixEntry.reset with pend := true })] }
     (s.fn 0).d3hot = true ∧ (s.msixAt 0 2047).pend = true ∧ (s.fn 0).msixEnable = true ∧ (s.fn 0).msixMask = false) ∧
    kvCfgBad op1 1 16 2 = false ∧ quiet op1 = true ∧ op1.live = true ∧ 0x2C ∈ [0x00, 0x08, 0x2C] := by decide
theorem witness_FunctionSettings_pool : let s1 := op1.setReg (Reg.KV_CTX_CFG 1) (BitVec.ofNat 64 (16 * 2 ^ 55 + 2))
    (op1.pool 1).1 = 0 ∧ (op1.pool 1).2 = [] ∧ ∃ fresh, freshPages op1 1 0 2 = .ok fresh ∧
      (linkPool ((vtouch s1 1 (s1.poolVa 1 0) 32).setPool 1 (2, fresh)) 1 [] fresh).2 = none := ⟨by decide, by decide, _, rfl, by decide⟩

/-! ### Memory -/

theorem witness_ClassWrites : (up stRun).live = true ∧ (up stRun).flight = [] ∧ 63 < 64 ∧ 47 < 48 ∧ 4095 < 4096 ∧
    (up stRun).hol.cur.partOfCore 63 ≠ (up stRun).hol.cur.partOfFn 1 ∧ (up stRun).retained = [] ∧ (up stRun).mem.waiting = [] ∧
    (let s := { up stRun with mem := { Mem.empty with clearing := [5], waiting := [⟨0, 5 * 2 ^ 21, 8, none⟩] } }
     s.mem.waiting = [⟨0, 5 * 2 ^ 21, 8, none⟩] ∧
       (s.putMem { s.mem with clearing := s.mem.clearing.filter fun x => decide (x ≠ 5), waiting := [] }).clears (5 * 2 ^ 21) 8 = false) := by
  decide
theorem witness_RefreshAndScrub :
    (let s := up stRun
     s.live = true ∧ quiet s = true ∧ 255 < 256 ∧ s.hol.cur.ownerOf (nearTop - 64) = some 0 ∧ nearTop - 64 < nearTop ∧ (nearTop - 64) % 64 = 0 ∧ s.classOf (nearTop - 64) = 0 ∧
       (nearTop - 64, UnitError.bad) ∉ s.mem.errs ∧ s.fldR (s.memCfg 0x40) 31 16 ≠ 0) ∧
    (let s := { up stRun with mem := { Mem.empty with errs := [(0x40, .correctable)] } }
     s.classOf 0x40 = 0 ∧ (s.hol.cur.ownerOf 0x40).isSome = true ∧ s.reachOk 0x40 64 = true ∧ (0x40, UnitError.correctable) ∈ s.mem.errs ∧
       (0x40, UnitError.bad) ∉ s.mem.errs) := by decide
theorem witness_FramesAndInvalidations :
    (let s := R (up stRun) [(Reg.MIG_STACK 0 0, 2 ^ 48 + 0x30000)]
     let v : Word := BitVec.ofNat 64 (5 * 2 ^ 21)
     s.live = true ∧ fld v 51 51 = 0 ∧ fld (1 : Word) 7 0 ≠ 0 ∧ s.hol.cur.ownerOf (frameAddr (fld v 38 21)) = some 0 ∧
       s.hol.cur.ownerOf (frameAddr (fld v 38 21) + frameSize - 1) = some 0 ∧
       isBulk (frameAddr (fld v 38 21)) = decide (fld v 63 63 = 1) ∧ s.frameInUse 0 (frameAddr (fld v 38 21)) = false ∧
       s.stackLen 0 (fld v 63 63) < s.fldR (Reg.MIG_STACK 0 (fld v 63 63)) 63 48 ∧
       s.stackOk 0 (fld v 63 63) (s.stackLen 0 (fld v 63 63)) = true ∧ quiet s = true ∧ s.retained = []) ∧
    (up stRun).hol.cur.ownerOf (frameAddr (fld (BitVec.ofNat 64 (5 * 2 ^ 21)) 38 21)) ≠ some 1 ∧
    { (up stRun).mig with inval := [(1, false, 3, 2)] }.inval = (1, false, 3, 2) :: [] := by decide

/-- One move of partition 0 to the bulk tier, from near frame 5, its leaf entry at 0x20000. -/
def mv (target : Option Nat) : State :=
  { R op1 [(Reg.MIG_STACK 0 1, 0x30000)] with
    mig := { State.reset.mig with queue := [⟨0, 1, 0, 0x20000, 2 ^ 63 + 2 ^ 62 + 2 ^ 61 + 0x40000000, 5 * frameSize, true, target, none⟩] } }

theorem witness_MigrationEngine :
    (let s := op1.setEff (Reg.MIG_PART_CFG 0) (BitVec.ofNat 64 (2 ^ 56))
     let s := { s with mig := { s.mig with epoch := List.replicate 16 1 } }
     s.live = true ∧ s.effF (Reg.MIG_PART_CFG 0) 63 56 ≠ 0 ∧ s.effF (Reg.MIG_PART_CFG 0) 63 56 ≤ s.mig.epoch.getD 0 0 ∧
       s.mig.epoch.length = 16 ∧ spWf (fun _ => (0 : Nat)) s.mem.counts = true) ∧
    ((mv none).mig.queue.find? fun m => decide (m.part = 0)).isSome = true ∧ (mv none).partOn 0 = true ∧ (mv none).stackLen 0 1 = 0 ∧
    (let s := mv (some (bulkBase + frameSize))
     Memory.wf s.mem = true ∧ quiet s = true ∧ s.physNat 0x20000 = 2 ^ 63 + 2 ^ 62 + 2 ^ 61 + 0x40000000 ∧
       s.reachOk (5 * frameSize) frameSize = true ∧ s.reachOk (bulkBase + frameSize) frameSize = true ∧ s.physOk 0x20000 = true ∧
       (bulkBase + frameSize) % frameSize = 0 ∧ 5 * frameSize % frameSize = 0 ∧ 5 * frameSize ≠ bulkBase + frameSize ∧
       0x20000 < 5 * frameSize ∧ (∀ m ∈ s.mig.queue, m.cmd = none) ∧
       s.stackOk 0 0 (s.stackLen 0 0) = true ∧ s.stackVa 0 0 (s.stackLen 0 0) % 8 = 0 ∧ 0x20000 % 8 = 0 ∧
       s.stackVa 0 0 (s.stackLen 0 0) ≠ 0x20000 ∧ 0x20000 < bulkBase + frameSize ∧
       s.stackVa 0 0 (s.stackLen 0 0) < bulkBase + frameSize) := by decide +kernel
theorem witness_ZeroCount :
    (let p := pk opcFork [0, 0, 0] []
     admits (fe p 2 1000000) p = true ∧ p.count = 0 ∧ p.sh = 0 ∧ ((fe p 2 1000000).ring 0).stream = none) ∧
    (let p := pk opcWait [0, 0, 0] []
     admits (fe p 2 1000000) p = true ∧ ((fe p 2 1000000).ring 0).state = ((fe p 2 1000000).ring 0).base) ∧
    (let p := pk opcFork [0, 3, 0] []
     admits (fe p 2 1000000) p = true ∧ p.sh ≠ 0 ∧ p.op ∈ [opcFork, opcPark, opcResume]) ∧
    (∀ op ∈ [opcLoad, opcMatmul], let p := pk op [0, 3, 0] []
     let s := fe p 2 1000000
     admits s p = true ∧ p.count = 0 ∧ p.sh ≠ 0 ∧ p.op ∉ [opcFork, opcPark, opcResume] ∧
       (advanceDraws (takeEntry s 1 0 p) 1 (if isCompute p.op then drawHandles (newEntry s 1 0 p) else [p.sh])).2.isNone = true) ∧
    { rg with stream := some ⟨1, 0, 3, 0⟩ }.stream ≠ none := by decide

/-! ### Margining -/

theorem witness_Margining : (up stSafe).live = true ∧ (up stSafe).devState = stSafe ∧ fld (BitVec.ofNat 64 (2 ^ 63)) 63 63 = 1 ∧
    (up stSafe).fldR (Reg.MEM_STAT 63) 50 50 = 0 ∧ (up stSafe).fldR Reg.BLK_STAT 50 50 = 0 ∧ (up stSafe).fldR (Reg.PLK_STAT 11) 58 58 = 0 ∧
    (up stSafe).domReady 29 = true ∧ (up stRun).live = true ∧ (up stRun).devState ≠ stSafe ∧
    (R (up stSafe) [(Reg.PLK_STAT 11, 2 ^ 58)]).fldR (Reg.PLK_STAT 11) 58 58 = 1 ∧
    (R (up stSafe) [(Reg.MEM_STAT 63, 2 ^ 50)]).fldR (Reg.MEM_STAT 63) 50 50 = 1 ∧
    (R (up stSafe) [(Reg.BLK_STAT, 2 ^ 50)]).fldR Reg.BLK_STAT 50 50 = 1 := by decide

/-! ### Stages -/

/-- A packet of `st` stages, sequence length `len` and `n` entries, with state handle sh. -/
def cpk (op st len n sh : Nat) (desc : List Nat) : Packet :=
  ⟨[op * 2 ^ 56 + st * 2 ^ 52, 0, sh, len * 2 ^ 39 + n, 0, 0, 0, 0].map (BitVec.ofNat 64), desc.flatMap (leBytes 8), 0⟩

/-- A MATMUL of one INT8 row and k elements with n columns, x at 0x3000, w at 0x4000, A64 output to 0x5000. -/
def mmD (n k ctl : Nat) : List Nat :=
  [2 ^ 56, 0x3000, 0x5000, 2 ^ 39 + n * 2 ^ 14 + ctl, k * 2 ^ 39 + 6 * 2 ^ 27, 0, 0x4000, 0]

/-- A SCAN of one element and one input, decay gates, its state only, chunks of 16. -/
def scDsc : List Nat := [3 * 2 ^ 56, 0x3000, 0, 2 ^ 39 + 2 ^ 14 + 0x80, 16 * 2 ^ 8, 0, 0x4000, 0]

/-- The state of one stage, its partition given an accumulator tile for streams. -/
def stg (e : Entry) : State :=
  let s := fl e
  { s with hol := { s.hol with cur := { s.hol.cur with parts := s.hol.cur.parts.map fun p => { p with frag := { p.frag with accTiles := 1 } } } } }

def mmE : Entry := ent (cpk opcMatmul 1 1 1 0 (mmD 1 1 0x80))
def scE : Entry := { ent (cpk opcScan 1 1 1 1 scDsc) with held := some 0 }

/-- A started stage on array 0. -/
def started (e : Entry) (items : Nat) : Entry := { e with begun := true, run := { e.run with started := true, arrays := [0], items := items, anchors := [0] } }

/-- What is there can be named. -/
theorem some_of {α : Type} (o : Option α) (h : o.isSome = true) : ∃ a, o = some a := by
  cases o with
  | none => simp at h
  | some a => exact ⟨a, rfl⟩

/-- Every act of the start of a stage succeeds, from the admission it lacked on. -/
def startsOk (s : State) (e : Entry) : Bool := match admitTake s e with
  | (sa, none) => match sa.entry e.id with
    | some ea => match readAux sa ea ea.desc, readPtrs sa ea ea.desc with
      | .ok aux, .ok ps =>
        let d := ea.desc
        let e1 := { ea with run := { ea.run with aux := aux, ptrs := ps } }
        let s1 := updRun (touchAll sa ea.ctx ((if auxVa d = 0 then [] else [(auxVa d, 64)]) ++
          if ptrsVa d = 0 then [] else [(ptrsVa d, 32 * ea.pkt.count)])) e.id fun r => { r with aux := aux, ptrs := ps }
        ea.run.welt.isEmpty && decide (64 * ea.pkt.stages ≤ ea.pkt.payload.length) && !descBad s1 e1 d && !s1.handleClash e1 &&
        !stageEmpty s1 e1 d && !(s1.stageUnits e1 d).isEmpty && !(s1.stageArrays e1 d).isEmpty &&
        match stageTake s1 e1 d with
        | (s2, none) => match s2.entry e.id with
          | some e2 => (match stageWork s2 e2 d with
            | .ok w => decide (w.count ≠ 0)
            | .error _ => false) && match stageBegin s2 e2 d (s2.stageArrays e1 d) with
            | (u, none) => decide (d.op ≠ opcAttn) || (ringProgress u ((u.entry e.id).getD e2) d).2.isNone
            | _ => false
          | none => false
        | _ => false
      | _, _ => false
    | none => false
  | _ => false

theorem witness_StageStarts :
    (let e := mmE
     let s := stg e
     runsB s e = true ∧ quiet s = true ∧ isCompute e.pkt.op = true ∧ e.stage < e.pkt.stages ∧ e.run.started = false ∧
       (s.ctx e.ctx).saving = none ∧ s.streamWait e = false ∧ (s.ring e.ring).transfer = false ∧ ((charge s e 5).entry 7).isSome = true) ∧
    { rg with transfer := true }.transfer = true ∧
    (let e := scE
     e.desc.op = opcScan ∧ e.held ≠ none ∧ e.pkt.len ≠ 0 ∧ e.desc.scD ≠ 0 ∧ runsB (stg e) e = true) := by
  decide +kernel
theorem witness_StageStarts_starts : (∃ ec, (charge (stg mmE) mmE 5).entry 7 = some ec ∧ startsOk (charge (stg mmE) mmE 5) ec = true) ∧
    startsOk (stg scE) scE = true := by
  refine ⟨⟨_, rfl, by decide +kernel⟩, by decide +kernel⟩
theorem witness_StageStarts_units :
    (let s := { stg mmE with tick := { (stg mmE).tick with lcCores := 0 } }
     s.stageUnits mmE mmE.desc ≠ [] ∧ s.stageArrays mmE mmE.desc = []) ∧
    (let s := { stg mmE with dev := { (stg mmE).dev with badCores := 2 ^ 64 - 1 } }
     s.stageUnits mmE mmE.desc = []) := by decide +kernel

/-- The item the started stage gives an array next. -/
def nextOf (s : State) (e : Entry) (a : Nat) : Option (Nat × Bool) := match stageWork s e e.desc with
  | .ok w => nextItem s e w a
  | .error _ => none

/-- A stage act that fails translation at an address. -/
def failsAt (m : M) (va : Nat) : Bool := match m with
  | (_, some (.trans x)) => decide (x = va)
  | _ => false

theorem witness_ItemsClaimedAndCompleted :
    (let e := { started mmE 1 with run := { (started mmE 1).run with arrays := [0, 63] } }
     let s := stg e
     runsB s e = true ∧ e.run.started = true ∧ e.run.welt = [] ∧ e.run.arrays.contains 63 = true ∧ s.mayClaim e 63 = true ∧ nextOf s e 63 = some (0, false) ∧
       nextOf s { e with run := { e.run with reissue := [0] } } 63 = some (0, true) ∧
       nextOf s { e with run := { e.run with claims := [⟨0, 0⟩] } } 63 = none ∧
       { s with tick := { s.tick with lcCores := 0 } }.mayClaim e 63 = false ∧ (e.run.claims.find? fun c => decide (c.array = 63)) = none) ∧
    (let e := { started mmE 1 with run := { (started mmE 1).run with claims := [⟨0, 0⟩] } }
     (e.run.claims.find? fun c => decide (c.array = 0)) = some ⟨0, 0⟩ ∧ (stg e).unitOn e 0 = true ∧ (dark (stg e)).unitOn e 0 = false ∧
       (finishItem (charge (stg e) e 5) e 0 0).2.isNone = true) ∧
    (let e := started (ent (cpk opcMatmul 1 1 1 0 [2 ^ 56, 2 ^ 40, 0x5000, 2 ^ 39 + 2 ^ 14 + 0x80, 2 ^ 39 + 6 * 2 ^ 27, 0, 0x4000, 0])) 1
     failsAt (finishItem (charge (stg e) e 5) e 0 0) (2 ^ 40) = true) := by decide +kernel

/-- A MATMUL of two slices, one partial waiting. -/
def slE (adds : List Nat) (red : List Partial) : Entry :=
  let e := started (ent (cpk opcMatmul 1 1 1 0 (mmD 1 64 0x100))) 2
  { e with run := { e.run with parts := [⟨0, [5], 0, 0⟩], adds := adds, red := red } }

/-- A SCAN whose only item is done, and then its only sweep. -/
def scS : State :=
  let e := started scE 1
  let s := stg { e with run := { e.run with claims := [⟨0, 0⟩] } }
  (finishItem s ((s.entry 7).getD e) 0 0).1
def scS1 : State := (chunkAct scS ((scS.entry 7).getD scE) 0 0).1
def scOf (s : State) : Entry := (s.entry 7).getD scE

/-- A sweep of chunk c can start, and everything it does succeeds; or none can. -/
def sweepOk (s : State) (e : Entry) (due : Bool) : Bool := match keyOf s e, stageProd s e e.desc with
  | .ok _, .ok p => match sweepDue s e e.desc p 0 0 with
    | .ok (some _) => due && !lowerDue s e e.desc p 0 0 && (chunkAct s e 0 0).2.isNone
    | .ok none => !due
    | .error _ => false
  | _, _ => false

/-- A SCAN with a seam that has no packet under way. -/
def smE : Entry :=
  let e := started scE 1
  { e with run := { e.run with seams := [⟨0, 0, ⟨[0], 0, 0, 0⟩, false⟩] } }

theorem witness_SlicesChunksAndSeams :
    (let e := slE [] []
     runsB (stg e) e = true ∧ e.run.started = true ∧ (e.run.parts.find? fun x => decide (x.key = 0)) = some ⟨0, [5], 0, 0⟩ ∧
       (keyOf (charge (stg e) e 5) e).toOption.isSome = true ∧
       (match stageWork (charge (stg e) e 5) e e.desc with
         | .ok (.prod p) => decide (p.itemTile 0 = 0 ∧ p.slices = 2)
         | _ => false) = true ∧ (addSlice (charge (stg e) e 5) e 0).2.isNone = true) ∧
    (let e := slE [1] [⟨0, [7], 0, 0⟩]
     (addSlice (charge (stg e) e 5) e 0).2.isNone = true) ∧
    (runsB scS (scOf scS) = true ∧ (scOf scS).run.started = true ∧ (scOf scS).desc.op = opcScan ∧ sweepOk scS (scOf scS) true = true) ∧
    ((scOf scS1).run.sweeps.contains (0, 0, 0) = true ∧ (scOf scS1).desc.scMode = false ∧ sweepOk scS1 (scOf scS1) false = true) ∧
    (runsB (stg smE) smE = true ∧ smE.seamDue smE.desc 0 0 = true ∧
      8 * smE.desc.scD ≤ (stg smE).regionFree (seamTarget (stg smE) smE smE.desc 0 0) ∧ smE.seamDue smE.desc 0 1 = false) := by
  decide +kernel

/-- A command of n MATMUL stages whose current one has its item done. -/
def dnE (n : Nat) : Entry :=
  let e := started (ent (cpk opcMatmul n 1 1 0 ((List.replicate n (mmD 1 1 0x80)).flatten))) 1
  { e with run := { e.run with done := [⟨0, 0⟩], commits := [0] } }

/-- Every act of a stage's completion succeeds. -/
def completesOk (s : State) (e : Entry) : Bool := stageDone s e && match stageFinish s e with
  | (u, none) => match u.entry e.id with
    | some e1 => (stageNext u e1 (some 9)).2.isNone
    | none => false
  | _ => false

theorem witness_StageCompletes :
    runsB (stg (dnE 1)) (dnE 1) = true ∧ (dnE 1).run.started = true ∧
    completesOk (stg (dnE 1)) (dnE 1) = true ∧ (dnE 1).pkt.stages ≤ (dnE 1).stage + 1 ∧ packetEntries 0 ≤ (stg (dnE 1)).retCap 1 ∧
    runsB (stg (dnE 2)) (dnE 2) = true ∧ completesOk (stg (dnE 2)) (dnE 2) = true ∧ (dnE 2).stage + 1 < (dnE 2).pkt.stages ∧
    stageDone (stg (started mmE 1)) (started mmE 1) = false := by decide +kernel

/-- A halo packet that array `final` waits for, on its way to array 5. -/
def wlP (final fails : Nat) : WeltPacket := ⟨63, 5, final, 9, 0, 0, 0, 0, 0, [1], fails, true⟩
/-- A command at its second stage with that packet of its first outstanding. -/
def wlE (final fails : Nat) : Entry :=
  let e := ent (cpk opcMatmul 2 1 1 0 (mmD 1 1 0x80 ++ mmD 1 1 0x80))
  { e with stage := 1, run := { e.run with welt := [wlP final fails] } }

theorem witness_HalosAndPrefetch :
    (∀ x ∈ [(5, 0), (6, 0), (5, 3)], let e := wlE x.1 x.2
      runsB (stg e) e = true ∧
        (e.run.welt.find? fun p => p.sent && decide (p.dst = 5 ∧ p.seq = 9 ∧ p.fails < 4)) = some (wlP x.1 x.2) ∧
        (acceptPacket (stg e) e (wlP x.1 x.2)).2.isNone = true ∧ (wlP x.1 x.2).stage + 1 = e.stage) ∧
    runsB (stg mmE) mmE = true ∧ quiet (stg mmE) = true ∧
    (stg mmE).devState = stRun ∧ isCompute mmE.pkt.op = true ∧ prefetchStage mmE < mmE.pkt.stages ∧
    ((stg mmE).grantedArrays 1 mmE.cls).contains 63 = true ∧ prefetchBarred (stg mmE) mmE 0x4000 64 = false ∧
    prefetchBarred (stg (dnE 2)) (dnE 2) 0x5004 4 = true := by decide +kernel

/-- The 1 by 1 MATMUL's product, its one sum and its conversion. -/
def oneByOne (s : State) (e : Entry) : Bool := match keyOf s e, stageProd s e e.desc with
  | .ok key, .ok p => decide (p.slices = 1 ∧ p.kOuter = false ∧ p.order ≠ 3 ∧ p.tiles = [⟨0, 0, 0⟩]) &&
    match p.passes ⟨0, 0, 0⟩, p.sums s key (e.run.anchors.getD 0 0) ⟨0, 0, 0⟩ 0 0 with
    | [q], .ok o => (mmSums s e e.desc p (p.ent 0) q).toOption.isSome &&
      (match mmConvert s e e.desc key (e.run.anchors.getD 0 0) 0 [0] 0 o.pt.vals with
      | .ok [_] => true
      | _ => false)
    | _, _ => false
  | _, _ => false

theorem witness_StageResults :
    (let e := started mmE 1
     let s := stg e
     runsB s e = true ∧ quiet s = true ∧ e.run.started = true ∧ e.desc.op = opcMatmul ∧ e.desc.op ≠ opcRngFill ∧ e.run.welt = [] ∧
       (runRest (charge s e 5) 7 opcMatmul).2.isNone = true ∧ e.pkt.count = 1 ∧ e.run.items = 1 ∧ e.run.done = [] ∧ e.run.parts = [] ∧
       e.run.claims = [] ∧ e.run.commits = [] ∧ e.run.arrays = [0] ∧ s.mayClaim e 0 = true ∧
       e.desc.mmN = 1 ∧ mmRows e e.desc 0 = 1 ∧ e.desc.outDst = 0 ∧ e.desc.onAwl = false ∧ oneByOne s e = true ∧
       writeErr s 1 (pieces (mmAddr e e.desc 0).y (outBytes e.desc.mmOut)) = none ∧ (mmAddr e e.desc 0).y % 64 = 0) ∧
    (let e := started (ent (cpk opcMatmul 1 1 1 0 [2 ^ 56, 2 ^ 40, 0x5000, 2 ^ 39 + 2 ^ 14 + 0x80, 2 ^ 39 + 6 * 2 ^ 27, 0, 0x4000, 0])) 1
     failsAt (runRest (charge (stg e) e 5) 7 opcMatmul) (2 ^ 40) = true) ∧
    (let e := started scE 1
     (runRest (charge (stg e) e 5) 7 opcScan).2.isNone = true) ∧
    (∀ x ∈ [Ex.ofInt 3, Ex.ofInt (-4)].zip [Ex.ofInt 5, Ex.ofInt 6], 0 < (x.1.mul x.2).den ∧
      (roundGrid ((x.1.mul x.2).scale (48 - 10)) false fun _ => 0).natAbs < 2 ^ 48) := by decide +kernel

theorem witness_StageResults_others : (∀ op ∈ [opcConv, opcAttn, opcUpdate],
      let e := started (ent (cpk op 1 1 1 0 (mmD 1 1 0x80 |>.set 0 (op * 2 ^ 56)))) 0
      (stg e).entry 7 = some e ∧ e.desc.op = op ∧ (runRest (charge (stg e) e 5) 7 op).2.isNone = true) ∧
    (let e := started (ent (cpk opcRngFill 1 1 1 0 [6 * 2 ^ 56, 0, 0x5000, 0, 0, 0, 0, 0])) 1
     e.desc.op = opcRngFill ∧ (runRest (charge (stg e) e 5) 7 opcRngFill).2.isNone = true) := by decide +kernel

/-! ### Collectives -/

/-- COLLECTIVE op of group 0, one element of 8 bytes from 0x3000 to 0x5000, rank or root or peer 0. -/
def coE (op fmt : Nat) : Entry :=
  ent ⟨[0x40 * 2 ^ 56, 0, 0, 1, op * 2 ^ 60 + 0x3000, fmt * 2 ^ 60 + 0x5000, 3 * 2 ^ 32, 2 ^ 32 + 8 * 2 ^ 12].map (BitVec.ofNat 64), leBytes 2 0, 0⟩

/-- A group of `size` members, this device (ID 5) rank 0 and device 6 rank 1, with a spill area. -/
def coS (size algo : Nat) (e : Entry) : State :=
  let s := R (p0 (stg e)) [(Reg.CLX_ID, 5), (Reg.CLX_GROUP_CFG 0, 2 ^ 63 + algo * 2 ^ 58 + size * 2 ^ 41 + 77 * 2 ^ 9), (Reg.CTX_SPILL 1, 2 ^ 24 + 1),
    (Reg.PLK_STAT 0, 2 * 2 ^ 62 + 6 * 2 ^ 32)]
  s.putFab { s.fab with groups := [(0, [5, 6])], ports := updAt s.fab.ports 0 fun q => { q with partnerSeen := true } }

/-- The hypotheses a fresh COLLECTIVE meets. -/
def coOk (size algo op fmt : Nat) : Bool :=
  let e := coE op fmt
  let s := coS size algo e
  let c := collOf e.pkt
  let g := s.group c.group
  runsB s e && quiet s && decide (e.pkt.op = opcCollective ∧ c.op = op ∧ e.begun = false ∧ e.pkt.sh = 0 ∧ e.recvd = [] ∧
    e.stagedVals = [] ∧ e.stagedRaw = [] ∧ s.fab.store = [] ∧ (∀ x ∈ s.flight, x.pkt.op = opcCollective → x = e) ∧ s.unacked = [] ∧
    g.valid = true ∧ g.part = e.part ∧ g.rank < g.size ∧ g.size = size ∧ g.algo = algo ∧ collBad e.pkt c g = false ∧
    g.members.getD g.rank 65536 = s.devId ∧ s.areaHeld e.ctx + c.dstBytes g ≤ s.spillSize e.ctx ∧ s.fldR Reg.FI_CTL 0 0 = 0 ∧
    writeErr s 1 (pieces c.dst (c.dstBytes g)) = none ∧ c.n ≠ 0) && (vread s e.ctx c.src (c.srcBytes g)).toOption.isSome

theorem witness_CollectivesIssued :
    (∀ op ∈ [coAllreduce, coReduceScatter, coAllgather, coBroadcast, coAlltoall, coSend, coAnchor],
      coOk 2 1 op 6 = true ∧ coOk 1 0 op (if op = coAnchor then 0 else 6) = true) ∧
    coOk 2 0 coAllreduce 6 = true ∧ coOk 2 0 coRecv 6 = true := by decide +kernel
theorem witness_CollectivesIssued_sends :
    (let e := coE coAllgather 6
     let s := coS 2 0 e
     let c := collOf e.pkt
     let g := s.group c.group
     (∃ o ∈ outgoing e.pkt c g (zeros 8), o.rank ≠ g.rank) ∧ s.egress false 6 (.coll 2 77 0 0 false 0 0 []) = some 0) ∧
    (let e := coE coAnchor 0
     let s := coS 1 0 e
     exponentOf (collOf e.pkt) [4] ≠ noExponent ∧ writeErr s 1 (pieces ((collOf e.pkt).dst / 8 * 8) 8) = none ∧
       (vread64 s 1 ((collOf e.pkt).dst / 8 * 8)).toOption.isSome = true ∧
       (translate s 1 ((collOf e.pkt).dst / 8 * 8) true).toOption.isSome = true) := by decide +kernel

/-- The same COLLECTIVE begun, with what it has received. -/
def bgE (op : Nat) (recvd : List (Nat × Nat)) (raw : List (Nat × List Byte)) : Entry :=
  { coE op 6 with begun := true, recvd := recvd, stagedRaw := raw }

theorem witness_CollectivesIssued_begun :
    (let e := bgE coAllgather [(0, 0), (1, 0)] [(0, zeros 8), (8, zeros 8)]
     let s := coS 2 0 e
     runsB s e = true ∧ quiet s = true ∧ e.begun = true ∧ collArrived e (collOf e.pkt) (s.group 0) = true ∧
       (∀ x ∈ s.flight, x.pkt.op = opcCollective → x = e) ∧ e.pkt.sh = 0 ∧
       writeErr s 1 (pieces (collOf e.pkt).dst (collOut e (collOf e.pkt) (s.group 0)).1.length) = none) ∧
    collArrived (bgE coAllgather [(0, 0)] [(0, zeros 8)]) (collOf (bgE coAllgather [(0, 0)] [(0, zeros 8)]).pkt)
      ((coS 2 0 (bgE coAllgather [(0, 0)] [(0, zeros 8)])).group 0) = false ∧
    (let e := bgE coSend [] []
     let s := coS 2 0 e
     runsB s e = true ∧ quiet s = true ∧ (collOf e.pkt).op = coSend ∧ e.begun = true ∧ e.recvd = [] ∧ e.detail = 0 ∧ s.unacked = [] ∧
       (∀ x ∈ s.flight, x.pkt.op = opcCollective → x = e)) ∧
    (let e := bgE coSend [(1, 0)] []
     runsB (coS 2 0 e) e = true ∧ e.recvd ≠ []) := by decide +kernel

/-- A message of rank 1 of the group. -/
def coM (op first : Nat) (abort : Bool) (n : Nat) : FabMsg := ⟨5, 6, false, 3, 0, .coll op 77 1 (if op ≤ 1 then 1 else 0) abort first 0 (zeros n)⟩

theorem witness_CollectivesReceived :
    (let e := bgE coAllgather [(0, 0)] [(0, zeros 8)]
     let s := coS 2 0 e
     let c := collOf e.pkt
     s.takesVc12 0 (coM 2 0 false 8) = true ∧ s.takesVc12 11 (coM 2 0 false 8) = false ∧ quiet s = true ∧ s.fab.dead.contains (77, 3) = false ∧
       { s.fab with dead := [(77, 3)] }.dead.contains (77, 3) = true ∧ s.collMatch 77 3 coAllgather false = some e ∧
       s.entry e.id = some e ∧ collAgrees e c (s.group 0) coAllgather 1 0 0 8 = true ∧ c.op ≠ coRecv ∧ c.reduces = false ∧
       collArrived (takeBytes e c 1 0 0 (zeros 8)) c (s.group 0) = true ∧ c.op ≠ coAnchor ∧
       writeErr s 1 (pieces c.dst (collOut (takeBytes e c 1 0 0 (zeros 8)) c (s.group 0)).1.length) = none ∧
       collArrived (takeBytes e c 1 0 1 (zeros 4)) c (s.group 0) = false ∧ s.collMatch 77 3 coAllgather true = some e ∧
       s.collMatch 78 3 coAllgather false = none ∧ s.storeBytes + bodyLength (coM 2 0 false 8).body ≤ 4 * 2 ^ 20) ∧
    (let e := { bgE coAllreduce [(0, 1)] [] with stagedVals := [(0, [5])] }
     let s := coS 2 0 e
     s.collMatch 77 3 coAllreduce false = some e ∧ collAgrees e (collOf e.pkt) (s.group 0) coAllreduce 1 0 0 8 = true ∧
       collArrived (takeSum e 1 0 (zeros 8)) (collOf e.pkt) (s.group 0) = true) := by decide +kernel
/-- A receive store that is full: messages of 32 bytes and 1 MiB. -/
theorem witness_CollectivesReceived_full : 4 * 2 ^ 20 < (List.replicate 4 (32 + 1048544)).foldl (· + ·) 0 + 40 := by decide

/-- A ring stage of ATTN that has sent both laps. -/
def rbE : Entry :=
  let e := started (ent (cpk opcAttn 1 1 1 0 [4 * 2 ^ 56, 0, 0, 2 ^ 21, 0, 0, 9 * 2 ^ 32, 0])) 0
  { e with run := { e.run with blocks := [(2, 0, 0)] } }
def rbM : FabMsg := ⟨5, 6, false, 9, 0, .ringBlock 1 1 1 0 0 0 0 1 []⟩

theorem witness_CollectivesReceived_ring :
    (let s := p0 (stg mmE)
     s.takesVc12 11 rbM = false ∧ s.kv.dead.contains 9 = false ∧ s.ringStage 9 = none ∧
       { s.kv with dead := [9] }.dead.contains 9 = true) ∧
    (let s := R (coS 2 0 rbE) [(Reg.KV_RING 0, 3 * 2 ^ 56 + 6 * 2 ^ 32)]
     s.takesVc12 0 rbM = true ∧ s.ringStage 9 = some rbE ∧ s.kvRing rbE.desc = (3, 0, 6) ∧ 1 + 1 < (s.kvRing rbE.desc).1 ∧ s.fldR Reg.FI_CTL 0 0 = 0 ∧
       s.egress false 6 (.ringBlock 1 1 2 0 0 0 0 1 []) = some 0 ∧
       (useBlock (s.putKv { s.kv with blocks := s.kv.blocks ++ [rbM] }) rbE rbM).2.isNone = true) := by
  decide +kernel

/-! ### The fabric -/

/-- Device 5 with these CLX_STAT bits and CLX_MGR, in force CLX_CFG, and members. -/
def fbS (stat mgr cfg : Nat) (ms : List Member) : State :=
  let s := (R (p0 (up stRun)) [(Reg.CLX_ID, 5), (Reg.CLX_STAT, stat), (Reg.CLX_MGR, mgr)]).setEff Reg.CLX_CFG (BitVec.ofNat 64 cfg)
  s.putFab { s.fab with members := ms }

/-- The manager of a group of devices 5 and 6; and a member whose manager is 6. -/
def mgrS : State := fbS (2 ^ 62 + 2 ^ 61) (5 * 2 ^ 48 + 2 ^ 15 + 2) (2 ^ 63 + 2 ^ 62) [⟨5, 0, true, true⟩, ⟨6, 30, true, true⟩]
def memS : State := fbS (2 ^ 62 + 2 ^ 60) (6 * 2 ^ 48 + 2 ^ 15 + 5 * 2 ^ 32 + 2 ^ 14 + 2) (2 ^ 63 + 2 ^ 62) [⟨5, 0, true, true⟩, ⟨6, 30, true, true⟩]
/-- A device that has joined and knows no manager. -/
def newS : State := fbS 0 0 (2 ^ 63 + 2 ^ 62) []

theorem witness_Links :
    (let s := R (up stRun) [(Reg.PLK_CTL 11, 2 ^ 63)]
     s.fab.ports.length = 12 ∧ 3 ≤ s.devState ∧ s.devState ≤ 6 ∧ s.portOk 11 = true ∧ s.fldR (Reg.PLK_CTL 11) 63 63 = 1 ∧
       s.fldR (Reg.PLK_STAT 11) 63 62 = 0 ∧ widthOf 12 ≠ 0 ∧ widthOf 3 ≠ 0 ∧ widthOf 5 = 0 ∧ s.fldR Reg.FI_CTL 0 0 = 0 ∧ s.fab.held = []) ∧
    (let s := R mgrS [(Reg.PLK_STAT 0, 2 * 2 ^ 62 + 6 * 2 ^ 32)]
     let s := s.putFab { s.fab with ports := updAt s.fab.ports 0 fun q => { q with partnerSeen := true } }
     s.fldR (Reg.PLK_STAT 0) 63 62 ≠ 0 ∧ s.isManager = true ∧ (s.port 0).partnerSeen = true ∧ s.portSwitch 0 = false ∧
       s.fldR (Reg.PLK_STAT 0) 47 32 ≠ s.devId ∧ s.fldR (Reg.PLK_STAT 0) 47 32 ∈ s.fab.members.map (·.id) ∧ s.fab.changes = []) ∧
    memS.isManager = false ∧ memS.live = true ∧ memS.fldR (Reg.PLK_STAT 0) 63 62 = 2 ∧
    (R memS [(Reg.PLK_STAT 0, 3 * 2 ^ 62)]).fldR (Reg.PLK_STAT 0) 63 62 = 3 ∧ 0 = (memS.port 0).rxSeq ∧ 65535 ≠ (memS.port 0).rxSeq ∧
    (memS.fab.held.find? fun h => decide (h.1 = 15)) = none ∧
    ({ memS.fab with held := [(15, 0, msg0 (.ready 0))] }.held.find? fun h => decide (h.1 = 15)) = some (15, 0, msg0 (.ready 0)) ∧
    memS.fldR (Reg.FI_RULE 15) 45 45 = 0 := by decide +kernel
theorem witness_Links_message : ∃ u, exec (.unready 0 (msg0 (.unready 0))) memS = .next u ∧ u.fab.held = [] ∧
    (Instr.unready 0 (msg0 (.unready 0)), bodyType (FabBody.unready 0)) ∈ [(Instr.unready 0 (msg0 (.unready 0)), 0x12)] :=
  ⟨_, rfl, by decide +kernel, by decide⟩

/-- A message for this device, and one for another. -/
theorem witness_DomainMessages_receiver : newS.forMe ⟨5, 6, false, 0, 0, .elect 4⟩ = true ∧ newS.forMe ⟨0, 6, true, 0, 0, .elect 4⟩ = true ∧
    newS.forMe ⟨7, 6, false, 0, 0, .elect 4⟩ = false ∧ mgrS.forMe ⟨5, 7, false, 0, 0, .elect 4⟩ = true ∧
    memS.forMe ⟨5, 6, false, 0, 0, .heartbeat 1 0⟩ = true := by decide +kernel
theorem witness_DomainMessages :
    newS.portUp 0 = true ∧ newS.fab.ports.length = 12 ∧ ((newS.port 0).partnerSeen && newS.portSwitch 0) = false ∧
    (9 : Word) ≠ newS.reg Reg.GLB_SERIAL ∧ 5 = newS.devId ∧
    (fbS (2 ^ 57) 0 0 []).dupId = true ∧ (fbS 0 0 0 []).joined = false ∧ (fbS 0 0 0 []).isManager = false ∧
    (mgrS.dupId = false ∧ mgrS.joined = true ∧ mgrS.isManager = true ∧ mgrS.leads = true ∧ 7 ≠ mgrS.devId ∧ 7 ∉ mgrS.fab.members.map (·.id) ∧
      mgrS.fab.changes = []) ∧
    (newS.dupId = false ∧ newS.joined = true ∧ newS.isManager = false ∧ newS.manager = none ∧ newS.eligible = true ∧ newS.inGroup = false ∧
      newS.bestKnown = some newS.devId) ∧
    (newS.putFab { newS.fab with best := some 3 }).bestKnown ≠ some newS.devId ∧
    memS.manager = some 6 ∧ newS.fldR Reg.FI_CTL 0 0 = 0 ∧ newS.fab.held = [] ∧ 0 ∈ newS.upPorts ∧ mgrS.inGroup = true ∧
    6 ∈ mgrS.otherMembers := by decide +kernel
theorem witness_DomainMessages_lower : ∀ b, newS.bestKnown = some b → 4 < b := by
  have h : newS.bestKnown = some 5 := by decide +kernel
  intro b hb
  rw [h] at hb
  injection hb with hb
  omega

/-- The manager in a tick mode, its tick of 30 µs with 10 µs of stretch. -/
def tkS (mode : Nat) : State := mgrS.setEff Reg.TCK_CFG (BitVec.ofNat 64 (mode * 2 ^ 59 + 3000 * 2 ^ 32 + 1000))

theorem witness_ClaspAndReady :
    (tkS 0).portUp 0 = true ∧ (tkS 0).dupId = false ∧ (tkS 0).leads = true ∧ (tkS 0).joined = true ∧ (tkS 0).tick.running = true ∧ (tkS 0).fabricMode = false ∧
    (tkS 0).fab.sched = none ∧ ((tkS 0).tckMode = 0 ∧ (tkS 0).fab.edgeAt + (tkS 0).tckLimit ≤ (tkS 0).tckLimit + (tkS 0).lead) ∧
    ((tkS 1).tckMode = 1 ∧ (tkS 1).allReady = true ∧ (tkS 1).fab.edgeAt + (tkS 1).tckPeriod ≤ (tkS 1).tckPeriod + (tkS 1).lead) ∧
    ((tkS 2).tckMode = 2 ∧ (tkS 2).allReady = true) ∧
    (let s := (tkS 1).putFab { (tkS 1).fab with members := [⟨5, 0, true, false⟩] }
     s.tckMode ≠ 0 ∧ s.allReady = false ∧ s.fab.edgeAt + s.tckLimit ≤ s.tckLimit + s.lead) ∧
    memS.leads = false ∧ memS.isManager = false ∧ memS.manager = some 6 ∧ 6 ≠ memS.devId ∧ memS.tickNum < 1 ∧ 0 ≤ memS.tickNum ∧ memS.inGroup = true ∧
    6 / 1024 = mgrS.devId / 1024 ∧ mgrS.tickNum = 0 ∧ mgrS.fab.readySent = false ∧ (tkS 1).outstanding true = false ∧
    (tkS 2).outstanding false = false := by decide +kernel

theorem witness_MembershipAndLock :
    memS.portUp 0 = true ∧ memS.dupId = false ∧ memS.isManager = false ∧ memS.manager ≠ none ∧ memS.manager ≠ some 7 ∧
    memS.standby ≠ some 7 ∧ memS.manager = some 6 ∧ memS.standby = some 5 ∧
    (∃ x ∈ mgrS.fab.members, x.id = 6 ∧ 30 ≤ x.silent) ∧ mgrS.isManager = true ∧ 6 ≠ mgrS.devId ∧ mgrS.fab.changes = [] ∧
    mgrS.isStandby = false ∧ memS.isStandby = true ∧ memS.inGroup = true ∧ (∃ x ∈ memS.fab.members, x.id = 6 ∧ 30 ≤ x.silent) ∧
    mgrS.root = none ∧ mgrS.follower = false := by decide +kernel
theorem witness_MembershipAndLock_follower :
    (let s := (fbS (2 ^ 62 + 2 ^ 61) (5 * 2 ^ 48 + 2 ^ 15 + 2) (2 ^ 63 + 2 ^ 62 + 2 ^ 61) [⟨5, 0, true, true⟩])
     s.follower = true ∧ s.isManager = true ∧ s.heldTerm.1 < 15) := by decide +kernel
end Sys2Proof.Tests
end

namespace Sys2Proof.Machine

/-! ### Reset (O3) -/

/-- GLB_STATE at reset: STATE is BOOT and PREV_STATE is STANDBY (Table 0.4). -/
theorem reset_glbState :
    State.reset.fldR Reg.GLB_STATE 2 0 = stBoot ∧ State.reset.fldR Reg.GLB_STATE 6 4 = stStandby := by decide +kernel

/-- Settles O3: the reset state lists no register, context, ring or byte, so every read gives its default. -/
theorem resetState : Obligations.ResetState := by
  obtain ⟨hboot, hprev⟩ := reset_glbState
  have hreg : ∀ off, State.reset.reg off = regReset off ∧ State.reset.effReg off = regReset off :=
    fun off => ⟨spGet_nil _ off, spGet_nil _ off⟩
  have hctx : ∀ n, State.reset.ctxState n = 0 := fun n => congrArg Ctx.state (spGet_nil Ctx.free n)
  have hring : ∀ r, (State.reset.ring r).state = 0 := fun r => congrArg Ring.state (spGet_nil Ring.closed r)
  exact ⟨⟨hboot, hprev, hreg, hctx, hring, rfl, rfl⟩, rfl, rfl⟩

/-! ### State requests (O12) -/

/-- A write of one register is a change of that register alone. -/
theorem onlyRegs_setReg (s : State) (off : Nat) (w : Word) : s.onlyRegs (s.setReg off w) [off] :=
  ⟨rfl, fun o ho => State.reg_setReg_ne s off o w (by simpa using ho)⟩

/-- READY and SAFE are accepted under R4, whoever asks. -/
theorem reqOk_safe (s : State) : s.reqOk stSafe = decide (s.devState = stReady) := rfl

theorem reqOk_ready (s : State) :
    s.reqOk stReady = (decide (s.devState = stSafe ∧ s.openCtxs = []) && (s.hol.verified || s.hol.pendFull.isSome)) := rfl

/-- An accepted request is held for the next edge. -/
theorem stateRequest_accepted (s : State) (d : Nat) (h : s.reqOk d = true) :
    stateRequest s d = s.putDev { s.dev with stateReq := some d } := if_pos h

/-- A refused request sets REQ_REJECT (R4). -/
theorem stateRequest_refused (s : State) (d : Nat) (h : s.reqOk d = false) :
    stateRequest s d = s.setF Reg.GLB_STATE 8 8 1 := if_neg (by simp [h])

/-- What a refused request leaves: REQ_REJECT, and nothing else. -/
theorem stateRequest_refused_effect (s : State) (d : Nat) (h : s.reqOk d = false) :
    (stateRequest s d).reg Reg.GLB_STATE = setFld (s.reg Reg.GLB_STATE) 8 8 1 ∧
      s.onlyRegs (stateRequest s d) [Reg.GLB_STATE] := by
  rw [stateRequest_refused s d h]
  exact ⟨State.reg_setF_same s _ _ _ _, onlyRegs_setReg s _ _⟩

/-- A request touches neither memory nor work. -/
theorem stateRequest_keeps (s : State) (d : Nat) :
    (stateRequest s d).mem = s.mem ∧ s.sameWork (stateRequest s d) := by
  unfold stateRequest State.sameWork
  split <;> simp

theorem exec_stateReqSafe (fn : Nat) (s : State) (h : 2 ≤ s.devState) :
    exec (.stateReqSafe fn) s = .next (if fn = 0 then stateRequest s stSafe else s) := by
  change Host.Outcome.next _ = _
  by_cases hf : fn = 0 <;> simp [hf, Nat.not_lt.mpr h]

theorem exec_stateReqReady (fn : Nat) (s : State) (h : 2 ≤ s.devState) :
    exec (.stateReqReady fn) s = .next (if fn = 0 then stateRequest s stReady else s) := by
  change Host.Outcome.next _ = _
  by_cases hf : fn = 0 <;> simp [hf, Nat.not_lt.mpr h]

/-- In a powered part a BMC request in range is made and answered with success (Table 17.1). -/
theorem exec_bmcStateRequest (v : Nat) (s : State) (hp : s.devState ≠ stOff) (hv : v = 1 ∨ v = 2) :
    exec (.bmcStateRequest v) s =
      .next (pldm (stateRequest s (if v = 1 then stReady else stSafe)) ccSuccess []) := by
  change Host.Outcome.next (effecter _ _ _) = _
  simp [effecter, State.powered, hp, hv]

/-- Settles O12. -/
theorem stateRequests : Obligations.StateRequests := by
  unfold Obligations.StateRequests
  intro s hs
  refine ⟨⟨_, exec_stateReqSafe 0 s hs, fun h => ?_, fun h => ?_⟩, ⟨_, exec_stateReqReady 0 s hs, fun h ho hv => ?_, fun h => ?_⟩,
    fun v hv => ⟨_, exec_bmcStateRequest v s (by simp only [stOff]; omega) hv, rfl, fun h2 hr => ?_, ?_⟩, fun fn hf => ?_⟩
  · exact stateRequest_accepted s _ (by simp [reqOk_safe, h])
  · exact stateRequest_refused_effect s _ (by simp [reqOk_safe, h])
  · exact stateRequest_accepted s _ (by simp [reqOk_ready, h, ho, hv])
  · refine stateRequest_refused_effect s _ ?_
    rw [reqOk_ready]
    rcases h with h | h | ⟨h, h'⟩ <;> simp [*]
  · subst h2
    have : s.reqOk stSafe = true := by simp [reqOk_safe, hr]
    exact congrArg (·.dev.stateReq) (stateRequest_accepted s _ this)
  · obtain ⟨hmem, hwork⟩ := stateRequest_keeps s (if v = 1 then stReady else stSafe)
    exact ⟨⟨fun pa => congrArg (fun m : Mem => spGet 0 m.cells pa) hmem, congrArg Mem.errs hmem⟩, hwork⟩
  · simp [exec_stateReqSafe fn s hs, exec_stateReqReady fn s hs, hf]

end Sys2Proof.Machine

namespace Sys2Proof.Machine


/-! ### Fields and masks -/

/-- Bit b lies in the field. -/
def FieldDef.has (f : FieldDef) (b : Nat) : Bool := decide (f.lo ≤ b ∧ b ≤ f.hi)

/-- Every field lies in its word, and no two fields of a register share a bit. -/
def RegDef.tidy (r : RegDef) : Bool :=
  r.fields.all (fun f => decide (f.lo ≤ f.hi ∧ f.hi < 64)) &&
    r.fields.all fun f => r.fields.all fun g => decide (f = g ∨ f.hi < g.lo ∨ g.hi < f.lo)

theorem regDefs_tidy : regDefs.all RegDef.tidy = true := by decide +kernel

theorem mem_regDefs_of_findReg {off i j : Nat} {r : RegDef} (h : findReg off = some (r, i, j)) : r ∈ regDefs := by
  obtain ⟨r', hr', hat⟩ := List.exists_of_findSome?_eq_some h
  obtain ⟨ij, -, heq⟩ := Option.map_eq_some_iff.mp hat
  have : r' = r := congrArg Prod.fst heq
  exact this ▸ hr'

/-- In a tidy register a bit belongs to one field at most. -/
theorem RegDef.eq_of_tidy {r : RegDef} (h : r.tidy = true) {f g : FieldDef} (hf : f ∈ r.fields) (hg : g ∈ r.fields) {b : Nat}
    (hfb : f.has b = true) (hgb : g.has b = true) : f = g := by
  simp only [RegDef.tidy, Bool.and_eq_true, List.all_eq_true, decide_eq_true_eq] at h
  simp only [FieldDef.has, decide_eq_true_eq] at hfb hgb
  rcases h.2 f hf g hg with h | h | h
  · exact h
  · omega
  · omega

theorem RegDef.bounds_of_tidy {r : RegDef} (h : r.tidy = true) {f : FieldDef} (hf : f ∈ r.fields) : f.lo ≤ f.hi ∧ f.hi < 64 := by
  simp only [RegDef.tidy, Bool.and_eq_true, List.all_eq_true, decide_eq_true_eq] at h
  exact h.1 f hf

/-- The mask of a field has the field's bits. -/
theorem testBit_maskOf (hi lo b : Nat) (h : lo ≤ hi) (h64 : hi < 64) :
    (maskOf hi lo).toNat.testBit b = decide (lo ≤ b ∧ b ≤ hi) := by
  rw [maskOf, BitVec.toNat_ofNat, Nat.testBit_mod_two_pow, Nat.testBit_mul_two_pow, Nat.testBit_two_pow_sub_one]
  simp only [← Bool.decide_and]
  exact decide_eq_decide.mpr (by omega)

theorem testBit_foldl_masks (a : Acc) (l : List FieldDef) (hl : ∀ f ∈ l, f.lo ≤ f.hi ∧ f.hi < 64) (m : Word) (b : Nat) :
    (l.foldl (fun m f => if f.acc = a then m ||| maskOf f.hi f.lo else m) m).toNat.testBit b =
      (m.toNat.testBit b || l.any fun f => decide (f.acc = a) && f.has b) := by
  induction l generalizing m with
  | nil => simp
  | cons f l ih =>
    rw [List.foldl_cons, ih (fun g hg => hl g (List.mem_cons_of_mem _ hg)), List.any_cons]
    obtain ⟨hlo, hhi⟩ := hl f List.mem_cons_self
    by_cases h : f.acc = a
    · simp [h, FieldDef.has, testBit_maskOf _ _ _ hlo hhi, Bool.or_assoc]
    · simp [h]

/-- A bit of the mask of one access type: a field of that type has it. -/
theorem testBit_bitsOf (a : Acc) (l : List FieldDef) (hl : ∀ f ∈ l, f.lo ≤ f.hi ∧ f.hi < 64) (b : Nat) :
    (bitsOf l a).toNat.testBit b = l.any fun f => decide (f.acc = a) && f.has b := by
  simp [bitsOf, testBit_foldl_masks a l hl]

/-- In a tidy register the mask of an access type has the bits of a field exactly when the field is of that type. -/
theorem testBit_bitsOf_field {r : RegDef} (hr : r.tidy = true) {f : FieldDef} (hf : f ∈ r.fields) (a : Acc) {b : Nat}
    (hb : f.has b = true) : (bitsOf r.fields a).toNat.testBit b = decide (f.acc = a) := by
  rw [testBit_bitsOf a _ fun g hg => RegDef.bounds_of_tidy hr hg, Bool.eq_iff_iff, List.any_eq_true, decide_eq_true_eq]
  constructor
  · rintro ⟨g, hg, h⟩
    rw [Bool.and_eq_true, decide_eq_true_eq] at h
    exact (RegDef.eq_of_tidy hr hf hg hb h.2) ▸ h.1
  · intro h
    exact ⟨f, hf, by simp [h, hb]⟩

/-- One bit of what a write leaves (R8): taken, cleared, set, or kept. -/
theorem testBit_written (l : List FieldDef) (old v : Word) (b : Nat) (h64 : b < 64) :
    (written l old v).toNat.testBit b =
      let m (a : Acc) := (bitsOf l a).toNat.testBit b
      (((old.toNat.testBit b && !(m .rw || m .rwt || m .rwk)) || (v.toNat.testBit b && (m .rw || m .rwt || m .rwk))) &&
        !(v.toNat.testBit b && m .w1c)) || (v.toNat.testBit b && m .w1s) := by
  simp only [written, BitVec.testBit_toNat, BitVec.getLsbD_or, BitVec.getLsbD_and, BitVec.getLsbD_not, h64, decide_true, Bool.true_and]

section
variable {r : RegDef} (hr : r.tidy = true) {f : FieldDef} (hf : f ∈ r.fields) (old v : Word)
include hr hf

/-- The bit of a field after a write, by the field's access type (R8). -/
theorem testBit_written_field {b : Nat} (hb : f.has b = true) :
    (written r.fields old v).toNat.testBit b =
      let take := decide (f.acc = .rw) || decide (f.acc = .rwt) || decide (f.acc = .rwk)
      (((old.toNat.testBit b && !take) || (v.toNat.testBit b && take)) &&
        !(v.toNat.testBit b && decide (f.acc = .w1c))) || (v.toNat.testBit b && decide (f.acc = .w1s)) := by
  have h64 : b < 64 := by
    have := RegDef.bounds_of_tidy hr hf
    simp only [FieldDef.has, decide_eq_true_eq] at hb
    omega
  simp only [testBit_written _ _ _ _ h64, testBit_bitsOf_field hr hf _ hb]

/-- A field all of whose bits two words share reads the same in both. -/
theorem fld_eq_of_testBit (x y : Word) (h : ∀ b, f.has b = true → x.toNat.testBit b = y.toNat.testBit b) :
    fld x f.hi f.lo = fld y f.hi f.lo := by
  obtain ⟨hlo, -⟩ := RegDef.bounds_of_tidy hr hf
  refine Nat.eq_of_testBit_eq fun i => ?_
  simp only [fld, testBit_bits]
  by_cases hi : i < f.hi + 1 - f.lo
  · rw [h (f.lo + i) (by simp only [FieldDef.has, decide_eq_true_eq]; omega)]
  · simp [hi]

theorem fld_written_rw (h : f.acc = .rw ∨ f.acc = .rwt) : fld (written r.fields old v) f.hi f.lo = fld v f.hi f.lo :=
  fld_eq_of_testBit hr hf _ _ fun b hb => by
    rw [testBit_written_field hr hf old v hb]
    rcases h with h | h <;> simp [h]

theorem fld_written_ro (h : f.acc = .ro) : fld (written r.fields old v) f.hi f.lo = fld old f.hi f.lo :=
  fld_eq_of_testBit hr hf _ _ fun b hb => by simp [testBit_written_field hr hf old v hb, h]

theorem testBit_written_w1c (h : f.acc = .w1c) {b : Nat} (hb : f.has b = true) :
    (written r.fields old v).toNat.testBit b = (old.toNat.testBit b && !v.toNat.testBit b) := by
  simp [testBit_written_field hr hf old v hb, h]

end

/-! ### A register's write -/

theorem RegDef.plain_ne {r : RegDef} (h : r.plain = true) {n : String}
    (hn : n ∈ ["CTX_PT_ROOT", "CTX_SPILL", "CTX_SAVE", "CTX_STATE_TBL", "CTX_KEY_TBL", "RING_RET_BASE", "RING_RET_CFG", "MIG_STACK",
      "KV_RING", "CLX_GROUP_CFG", "CLX_GROUP_MAP", "PLK_CTL", "FI_CTL", "PWR_CFG", "PWR_DOMAIN", "GLB_STATE_REQ", "GLB_COMMIT",
      "RING_CTL", "CTX_CMD", "MEM_MARGIN", "BLK_MARGIN", "PLK_MARGIN", "MEM_CLASS", "BLK_CLASS", "MIG_INVAL", "MIG_PUSH",
      "KV_CTX_CFG", "CLX_ID", "SEC_CMD", "MGT_LOG_STAT", "HOL_CMD"]) : r.name ≠ n := by
  rintro rfl
  simp [RegDef.plain, hn] at h

/-- A register whose write has no further effect is no command. -/
theorem commandWrite_plain (s : State) (fn i j : Nat) (r : RegDef) (v : Word) (h : r.plain = true) :
    commandWrite s fn r i j v = none := by
  unfold commandWrite
  repeat rw [if_neg (RegDef.plain_ne h (by simp))]

theorem afterWrite_plain (s0 s : State) (i j : Nat) (r : RegDef) (h : r.plain = true) : afterWrite s0 s r i j = s := by
  have ne {n : String} := RegDef.plain_ne h (n := n)
  have haddr : isAddressReg r.name = false := by
    simp only [isAddressReg, List.contains_eq_mem, List.mem_cons, List.not_mem_nil, or_false, decide_eq_false_iff_not, not_or]
    exact ⟨ne (by simp), ne (by simp), ne (by simp), ne (by simp), ne (by simp)⟩
  unfold afterWrite
  rw [if_neg (by simp [haddr])]
  repeat rw [if_neg (by simp [ne])]

/-- A whole write of a register whose write has no further effect sets that register. -/
theorem regWrite_plain (s : State) (fn off i j : Nat) (r : RegDef) (v : Word) (h : r.plain = true) (ho : off % 8 = 0) :
    regWrite s fn r i j off 8 v = if r.fields = [] then s else s.setReg off (written r.fields (s.reg off) v) := by
  have hoff : off / 8 * 8 = off := by omega
  have hcov : r.covered off 8 = r.fields := by simp [RegDef.covered]
  simp [regWrite, hoff, hcov, placed, commandWrite_plain _ _ _ _ _ _ h, afterWrite_plain _ _ _ _ _ h,
    RegDef.plain_ne h (n := "PLK_CTL") (by simp)]

section
variable {s : State} {off : Nat} (fn : Nat) (v : Word) (hs : 2 ≤ s.devState)
include hs

/-- An unaligned write is logged as an unsupported request (R436). -/
theorem exec_registerWrite_unaligned (h : off % 8 ≠ 0) :
    exec (.registerWrite fn off 8 v) s = .next (logAer s (.unsupportedRequest fn off)) := by
  change Host.Outcome.next (busWrite s fn off 8 v) = _
  simp [busWrite, Nat.not_lt.mpr hs, h]

variable (ho : off % 8 = 0) (hw : off < 0x1900000 ∨ 0x1A00000 ≤ off)
include ho hw

/-- An aligned write outside the staging window of an offset that holds no register does nothing (R436). -/
theorem exec_registerWrite_reserved (hr : findReg off = none) : exec (.registerWrite fn off 8 v) s = .next s := by
  have hoff : off / 8 * 8 = off := by omega
  have hwin : ¬ (0x1900000 ≤ off ∧ off < 0x1A00000) := by omega
  change Host.Outcome.next (busWrite s fn off 8 v) = _
  simp [busWrite, Nat.not_lt.mpr hs, ho, hwin, hoff, hr]

/-- One that hits a register writes it where its block is reached and the function may write it (R408, R436). -/
theorem exec_registerWrite_register {r : RegDef} {i j : Nat} (hr : findReg off = some (r, i, j)) :
    exec (.registerWrite fn off 8 v) s =
      .next (if s.reachable off && s.mayWrite fn r i j then regWrite s fn r i j off 8 v else s) := by
  have hoff : off / 8 * 8 = off := by omega
  have hwin : ¬ (0x1900000 ≤ off ∧ off < 0x1A00000) := by omega
  change Host.Outcome.next (busWrite s fn off 8 v) = _
  simp [busWrite, Nat.not_lt.mpr hs, ho, hwin, hoff, hr]

end

/-- Settles O41. -/
theorem registerWrites : Obligations.RegisterWrites := by
  unfold Obligations.RegisterWrites
  intro s fn off v hs
  refine ⟨fun r i j ho hw hr hp hreach hmay => ?_, fun r i j hr ho hw hmay => ?_, exec_registerWrite_unaligned fn v hs, fun ho hw hr => ?_⟩
  · have hexec : exec (.registerWrite fn off 8 v) s =
        .next (if r.fields = [] then s else s.setReg off (written r.fields (s.reg off) v)) := by
      rw [exec_registerWrite_register fn v hs ho hw hr, regWrite_plain s fn off i j r v hp ho]
      simp [hreach, hmay]
    by_cases hl : r.fields = []
    · exact ⟨s, by simp [hexec, hl], ⟨rfl, fun _ _ => rfl⟩, by simp [hl]⟩
    have htidy : r.tidy = true := List.all_eq_true.mp regDefs_tidy r (mem_regDefs_of_findReg hr)
    refine ⟨_, by rw [hexec, if_neg hl], onlyRegs_setReg s off _, fun f hf => ?_⟩
    rw [State.reg_setReg_same]
    exact ⟨fld_written_rw htidy hf _ v, fld_written_ro htidy hf _ v, fun h b hlo hhi =>
      testBit_written_w1c htidy hf _ v h (by simp [FieldDef.has, hlo, hhi])⟩
  · rw [show off / 8 * 8 = off by omega] at hr
    simp [exec_registerWrite_register fn v hs ho hw hr, hmay]
  · exact exec_registerWrite_reserved fn v hs ho hw hr

end Sys2Proof.Machine

namespace Sys2Proof.Machine

/-! ### What accounting, logging and sending change -/

/-- Nothing but registers, memory, retained copies, the tick's tallies, MSI-X, the log, the fabric unit, outputs and the count of free
values has changed. -/
structure State.keepsWork (s t : State) : Prop where
  pending : t.pending = s.pending
  eff : t.eff = s.eff
  dev : t.dev = s.dev
  fns : t.fns = s.fns
  hol : t.hol = s.hol
  ctxs : t.ctxs = s.ctxs
  rings : t.rings = s.rings
  flight : t.flight = s.flight
  nextId : t.nextId = s.nextId
  slots : t.slots = s.slots
  images : t.images = s.images
  mig : t.mig = s.mig
  prefetched : t.prefetched = s.prefetched
  kv : t.kv = s.kv
  pwr : t.pwr = s.pwr
  sec : t.sec = s.sec

namespace State.keepsWork
variable {s t u : State}

theorem refl (s : State) : s.keepsWork s := by constructor <;> rfl

theorem trans (h : s.keepsWork t) (h' : t.keepsWork u) : s.keepsWork u where
  pending := h'.pending.trans h.pending
  eff := h'.eff.trans h.eff
  dev := h'.dev.trans h.dev
  fns := h'.fns.trans h.fns
  hol := h'.hol.trans h.hol
  ctxs := h'.ctxs.trans h.ctxs
  rings := h'.rings.trans h.rings
  flight := h'.flight.trans h.flight
  nextId := h'.nextId.trans h.nextId
  slots := h'.slots.trans h.slots
  images := h'.images.trans h.images
  mig := h'.mig.trans h.mig
  prefetched := h'.prefetched.trans h.prefetched
  kv := h'.kv.trans h.kv
  pwr := h'.pwr.trans h.pwr
  sec := h'.sec.trans h.sec

theorem ctx (h : s.keepsWork t) (n : Nat) : t.ctx n = s.ctx n := congrArg (spGet Ctx.free · n) h.ctxs
theorem entry (h : s.keepsWork t) (id : Nat) : t.entry id = s.entry id :=
  congrArg (List.find? fun e : Entry => decide (e.id = id)) h.flight
theorem fn (h : s.keepsWork t) (n : Nat) : t.fn n = s.fn n := congrArg (fun l : List FnCfg => l.getD n (FnCfg.reset n)) h.fns

/-- A fold of such steps is such a step. -/
theorem foldl {α : Type} {f : State → α → State} (l : List α) (s : State) (hf : ∀ (s : State) a, s.keepsWork (f s a)) :
    s.keepsWork (l.foldl f s) := by
  induction l generalizing s with
  | nil => exact refl s
  | cons a l ih => exact (hf s a).trans (ih _)

theorem ite {p : Prop} [Decidable p] {a b : State} (ha : s.keepsWork a) (hb : s.keepsWork b) : s.keepsWork (if p then a else b) := by
  split
  · exact ha
  · exact hb

end State.keepsWork

theorem keepsWork_setReg (s : State) (off : Nat) (w : Word) : s.keepsWork (s.setReg off w) := by constructor <;> rfl
theorem keepsWork_addF (s : State) (off hi lo n : Nat) : s.keepsWork (s.addF off hi lo n) := keepsWork_setReg s off _
theorem keepsWork_satF (s : State) (off hi lo n : Nat) : s.keepsWork (s.satF off hi lo n) := keepsWork_setReg s off _
theorem keepsWork_putMem (s : State) (m : Mem) : s.keepsWork (s.putMem m) := by constructor <;> rfl
theorem keepsWork_putFab (s : State) (f : Fab) : s.keepsWork (s.putFab f) := by constructor <;> rfl
theorem keepsWork_putFree (s : State) (n : Nat) : s.keepsWork (s.putFree n) := by constructor <;> rfl
theorem keepsWork_putRetained (s : State) (l : List Retained) : s.keepsWork (s.putRetained l) := by constructor <;> rfl
theorem keepsWork_logError (s : State) (a : LogArgs) : s.keepsWork (logError s a) := by constructor <;> simp
theorem keepsWork_tally (s : State) (k n : Nat) : s.keepsWork (tally s k n) := by constructor <;> simp
theorem keepsWork_signalMsi (s : State) (fn v : Nat) : s.keepsWork (signalMsi s fn v) := by constructor <;> simp

theorem keepsWork_signalIf (s : State) (fn v : Nat) (p : Prop) [Decidable p] : s.keepsWork (if p then signalMsi s fn v else s) :=
  .ite (keepsWork_signalMsi s fn v) (.refl s)

/-! ### Fabric messages -/

theorem keepsWork_transmit (s : State) (p : Nat) (m : FabMsg) : s.keepsWork (transmit s p m) := by constructor <;> rfl

theorem keepsWork_fiStep (s : State) (p dir vc ty : Nat) : s.keepsWork (fiStep s p dir vc ty).2 := by
  unfold fiStep
  refine List.foldlRecOn (motive := fun acc : Option Nat × State => s.keepsWork acc.2) _ _ (.refl s) fun acc h i _ => ?_
  dsimp only
  generalize (if decide (acc.2.fldR (Reg.FI_RULE i) 60 58 = 1) = true ∧ acc.2.fab.seen.getD i 0 = 0 then 0
    else acc.2.fab.seen.getD i 0 + 1) = n
  split
  · exact h
  · have hseen := (keepsWork_putFab acc.2 { acc.2.fab with seen := updAt acc.2.fab.seen i fun _ => n }).trans
      (keepsWork_putFree _ (acc.2.free + 1))
    split
    · dsimp only
      refine .trans ?_ (keepsWork_logError _ _)
      exact h.trans (hseen.trans (keepsWork_addF _ (Reg.FI_COUNT i) 31 0 1))
    · exact h.trans hseen

theorem keepsWork_transmitHeld (s : State) (p : Nat) (l : List (Nat × Nat × FabMsg)) :
    s.keepsWork (l.foldl (fun s h => transmit s p h.2.2) s) :=
  .foldl l s fun t h => keepsWork_transmit t p h.2.2

theorem keepsWork_sendOn (s : State) (direct : Bool) (p : Nat) (m : FabMsg) : s.keepsWork (sendOn s direct p m) := by
  have h := keepsWork_fiStep s p 0 (bodyVc direct m.body) (bodyType m.body)
  unfold sendOn
  split
  next s1 heq =>
    rw [heq] at h
    refine (h.trans (keepsWork_transmit s1 p m)).trans ?_
    dsimp only
    generalize transmit s1 p m = s2
    exact (keepsWork_putFab s2 _).trans (keepsWork_transmitHeld _ p _)
  next i s1 heq =>
    rw [heq] at h
    exact h.trans (.ite (.refl _) (.ite (keepsWork_transmit s1 p m) (keepsWork_putFab _ _)))

theorem keepsWork_fabSend (s : State) (direct : Bool) (dst tag : Nat) (body : FabBody) : s.keepsWork (fabSend s direct dst tag body) := by
  unfold fabSend
  dsimp only
  split
  · exact .trans (keepsWork_putFab s _) (keepsWork_sendOn _ direct _ _)
  · exact (keepsWork_putFab s _).trans (keepsWork_satF _ _ _ _ _)

theorem keepsWork_sendAborts (s : State) (e : Entry) : s.keepsWork (sendAborts s e) :=
  .foldl _ s fun t _ => .ite (.refl t) (keepsWork_fabSend t _ _ _ _)

/-! ### Teardown (R373) -/

theorem State.setCtx_ctxs (s : State) (n : Nat) (c : Ctx) : (s.setCtx n c).ctxs = spSet Ctx.free s.ctxs n c := (rfl)

/-- What a context is once torn down. -/
def Ctx.torn (c : Ctx) (cause : Nat) : Ctx :=
  { c with state := 5, cause := cause, recs := [], closing := false, saving := none, unsignalled := 0 }

/-- The aborts that a teardown sends first. -/
def abortAll (s : State) (n : Nat) : State :=
  ((s.ctxFlight n).filter fun e => decide (e.pkt.op = opcCollective) && !e.done).foldl sendAborts s

theorem keepsWork_abortAll (s : State) (n : Nat) : s.keepsWork (abortAll s n) := .foldl _ s keepsWork_sendAborts

/-- The release of a context's work leaves every context's own record and every function's configuration. -/
theorem dropRings_releaseCtx_ctxs (s : State) (n : Nat) : (dropRings (releaseCtx s n) n).ctxs = s.ctxs := by simp [dropRings, releaseCtx]
theorem dropRings_releaseCtx_fns (s : State) (n : Nat) : (dropRings (releaseCtx s n) n).fns = s.fns := by simp [dropRings, releaseCtx]

/-- The end of a teardown, once the context's work is released: its save ends, its state, the signal and the log entry. -/
def endTeardown (s : State) (n cause : Nat) : State :=
  let s1 := if (s.ctx n).saving.isSome then s.setF Reg.CTX_CMD_STATUS 63 63 0 else s
  let s2 := s1.setCtx n ((s.ctx n).torn cause)
  let s3 := if s2.fldR (Reg.RING_RET_CFG n) 63 63 = 1 then signalMsi s2 (s2.ctxFn n) (s2.fldR (Reg.RING_RET_CFG n) 42 32) else s2
  logError s3 { source := srcTeardown, sev := 2, code := cause, ctx := some n }

theorem teardown_eq (s : State) (n cause : Nat) (h : s.ctxState n ≠ 0) (h' : s.ctxState n ≠ 5) :
    teardown s n cause = endTeardown (dropRings (releaseCtx (abortAll s n) n) n) n cause := by
  unfold teardown endTeardown abortAll Ctx.torn
  rw [if_neg (not_or.mpr ⟨h, h'⟩)]

theorem keepsWork_endTeardown (s : State) (n cause : Nat) :
    (s.setCtx n ((s.ctx n).torn cause)).keepsWork (endTeardown s n cause) := by
  unfold endTeardown
  dsimp only
  refine .trans ?_ (keepsWork_logError _ _)
  refine .trans ?_ (keepsWork_signalIf _ _ _ _)
  split
  · constructor <;> simp [State.setCtx_ctxs]
  · exact .refl _

/-- The contexts after a teardown: the one torn down, and the others as before. -/
theorem teardown_ctxs (s : State) (n cause : Nat) (h : s.ctxState n ≠ 0) (h' : s.ctxState n ≠ 5) :
    (teardown s n cause).ctxs = spSet Ctx.free s.ctxs n ((s.ctx n).torn cause) := by
  have hab : (dropRings (releaseCtx (abortAll s n) n) n).ctxs = s.ctxs := by
    rw [dropRings_releaseCtx_ctxs, (keepsWork_abortAll s n).ctxs]
  rw [teardown_eq s n cause h h', (keepsWork_endTeardown _ n cause).ctxs]
  simp only [State.setCtx_ctxs, State.ctx, hab]

theorem teardown_eq_self {s : State} {n : Nat} (cause : Nat) (h : s.ctxState n = 0 ∨ s.ctxState n = 5) : teardown s n cause = s := if_pos h

theorem teardown_ctx_ne (s : State) (n cause m : Nat) (hm : m ≠ n) : (teardown s n cause).ctx m = s.ctx m := by
  by_cases h : s.ctxState n = 0 ∨ s.ctxState n = 5
  · rw [teardown_eq_self cause h]
  · obtain ⟨h0, h5⟩ := not_or.mp h
    rw [State.ctx, teardown_ctxs s n cause h0 h5, spGet_spSet_ne _ _ _ _ _ _ hm, State.ctx]

/-- A context that was neither FREE nor torn down is TORN_DOWN with the cause. -/
theorem teardown_ctx_same (s : State) (n cause : Nat) (h : s.ctxState n ≠ 0) (h' : s.ctxState n ≠ 5) :
    (teardown s n cause).ctxState n = 5 ∧ ((teardown s n cause).ctx n).cause = cause := by
  rw [State.ctxState, State.ctx, teardown_ctxs s n cause h h', spGet_spSet_same]
  exact ⟨rfl, rfl⟩

theorem teardown_fns (s : State) (n cause : Nat) : (teardown s n cause).fns = s.fns := by
  by_cases h : s.ctxState n = 0 ∨ s.ctxState n = 5
  · rw [teardown_eq_self cause h]
  · obtain ⟨h0, h5⟩ := not_or.mp h
    rw [teardown_eq s n cause h0 h5, (keepsWork_endTeardown _ n cause).fns, State.setCtx_fns, dropRings_releaseCtx_fns,
      (keepsWork_abortAll s n).fns]

/-- A context once torn down stays so. -/
theorem teardownAll_torn (l : List Nat) (s : State) (cause n : Nat) (h : s.ctxState n = 5) :
    (teardownAll s l cause).ctx n = s.ctx n := by
  induction l generalizing s with
  | nil => rfl
  | cons m l ih =>
    have hm : (teardown s m cause).ctx n = s.ctx n := by
      by_cases e : n = m
      · rw [← e, teardown_eq_self cause (.inr h)]
      · exact teardown_ctx_ne s m cause n e
    exact (ih _ ((congrArg Ctx.state hm).trans h)).trans hm

/-- Every open context of the list is torn down with the cause. -/
theorem teardownAll_open (l : List Nat) (s : State) (cause n : Nat) (hn : n ∈ l) (h : s.ctxState n = 1) :
    (teardownAll s l cause).ctxState n = 5 ∧ ((teardownAll s l cause).ctx n).cause = cause := by
  induction l generalizing s with
  | nil => simp at hn
  | cons m l ih =>
    by_cases e : n = m
    · subst e
      obtain ⟨hstate, hcause⟩ := teardown_ctx_same s n cause (by simp [h]) (by simp [h])
      have hrest := teardownAll_torn l _ cause n hstate
      exact ⟨(congrArg Ctx.state hrest).trans hstate, (congrArg Ctx.cause hrest).trans hcause⟩
    · have hm := teardown_ctx_ne s m cause n e
      exact ih _ ((List.mem_cons.mp hn).resolve_left e) ((congrArg Ctx.state hm).trans h)

theorem teardownAll_fns (l : List Nat) (s : State) (cause : Nat) : (teardownAll s l cause).fns = s.fns := by
  induction l generalizing s with
  | nil => rfl
  | cons m l ih => exact (ih _).trans (teardown_fns s m cause)

/-! ### Sparse maps: what is listed, and filters by key -/

/-- What does not read as its default is listed. -/
theorem mem_of_spGet_ne {α : Type} {d : α} {m : List (Nat × α)} {k : Nat} (h : spGet d m k ≠ d) : (k, spGet d m k) ∈ m := by
  induction m with
  | nil => exact absurd rfl h
  | cons c m ih =>
    by_cases hk : k = c.1
    · subst hk; simp [spGet]
    · simp only [spGet, hk, if_false] at h ⊢
      exact List.mem_cons_of_mem _ (ih h)

/-- A filter by key leaves what it keeps and drops the rest to its default. -/
theorem spGet_filter_key {α : Type} (d : α) (keep : Nat → Bool) (m : List (Nat × α)) (k : Nat) :
    spGet d (m.filter fun c => keep c.1) k = if keep k then spGet d m k else d := by
  induction m with
  | nil => simp
  | cons c m ih =>
    by_cases hc : keep c.1 = true
    · by_cases hk : k = c.1
      · subst hk; simp [hc, spGet]
      · simpa [hc, spGet, hk] using ih
    · by_cases hk : k = c.1
      · subst hk; simpa [hc] using ih
      · simpa [hc, spGet, hk] using ih

/-- An open context is not FREE, so it is listed. -/
theorem mem_openCtxs {s : State} {n : Nat} (h : s.ctxState n = 1) : n ∈ s.openCtxs := by
  have hne : s.ctx n ≠ Ctx.free := fun e => by simp [State.ctxState, e, Ctx.free] at h
  have hst : (s.ctx n).state ≠ 0 := by simpa [State.ctxState] using (by omega : s.ctxState n ≠ 0)
  exact List.mem_map.mpr ⟨(n, s.ctx n), List.mem_filter.mpr ⟨mem_of_spGet_ne hne, by simpa using hst⟩, rfl⟩

/-! ### Power-down and function resets (R5, R357) -/

theorem powerDown_devState (s : State) (dst : Nat) (bmc : Bool) (h : dst < 8) : (powerDown s dst bmc).devState = dst := by
  have hreg : (powerDown s dst bmc).reg Reg.GLB_STATE = (enterState s dst).reg Reg.GLB_STATE :=
    (spGet_filter_key _ inPd00 (enterState s dst).regs Reg.GLB_STATE).trans (if_pos (by decide))
  rw [State.devState, State.fldR, hreg]
  exact enterState_devState s dst h

/-- Below BOOT nothing of the work and no byte of memory is left, and the link is down (R275, Table 0.5). -/
theorem powerDown_emptied (s : State) (dst : Nat) (bmc : Bool) :
    (powerDown s dst bmc).emptied ∧ (powerDown s dst bmc).dev.linkUp = false :=
  ⟨⟨fun _ => rfl, rfl, rfl, rfl, rfl, rfl, rfl, rfl⟩, rfl⟩

theorem fn_of_updAt {s t : State} {fn : Nat} {f : FnCfg → FnCfg} (ht : t.fns = updAt s.fns fn f) (k : Nat) (hfn : fn < s.fns.length) :
    t.fn k = if k = fn then f (s.fn fn) else s.fn k := by
  rw [State.fn, ht]
  by_cases h : k = fn
  · subst h
    rw [updAt_getD _ _ _ _ _ hfn]
    rfl
  · rw [updAt_getD _ _ _ _ _ hfn, if_neg h, if_neg h]
    rfl

/-- The first element after a change of it, where none is listed included. -/
theorem updAt_zero_getD {α : Type} (l : List α) (f : α → α) (d : α) :
    (updAt l 0 f).getD 0 d = f (l.getD 0 d) ∨ (updAt l 0 f).getD 0 d = d := by
  cases l with
  | nil => exact .inr rfl
  | cons a l => exact .inl rfl

/-- A virtual function's reset. -/
theorem exec_functionLevelReset_virtual (s : State) (fn : Nat) (h : 0 < fn) (h' : fn < 17) :
    exec (.functionLevelReset fn) s = .next (resetFn (teardownAll s (s.fnCtxs fn) 4) fn) := by
  change Host.Outcome.next _ = _
  simp [Nat.not_le.mpr h', Nat.pos_iff_ne_zero.mp h]

/-- The state in which the physical function's reset leaves the part, RUN becoming READY apart. -/
def pfReset (s : State) : State :=
  let s1 := resetFn (teardownAll s s.openCtxs 4) 0
  let keep (off : Nat) : Bool := !decide (0x400000 ≤ off ∧ off < 0x800000)
  (s1.putRegs (s1.regs.filter fun r => keep r.1)).putEff (s1.eff.filter fun r => keep r.1) |>.putCtxs []

theorem exec_functionLevelReset_physical (s : State) :
    exec (.functionLevelReset 0) s =
      .next (if (pfReset s).devState = stRun then enterState (pfReset s) stReady else pfReset s) := rfl

/-- In the reset state of the physical function every register of the CTX block reads its reset value. -/
theorem pfReset_reg (s : State) (off : Nat) (h : 0x400000 ≤ off) (h' : off < 0x800000) : (pfReset s).reg off = regReset off :=
  (spGet_filter_key _ (fun off => !decide (0x400000 ≤ off ∧ off < 0x800000)) _ off).trans (if_neg (by simp [h, h']))

theorem pfReset_fns (s : State) : (pfReset s).fns = updAt s.fns 0 fun _ => FnCfg.reset 0 :=
  congrArg (updAt · 0 _) (teardownAll_fns s.openCtxs s 4)

theorem exec_vfEnableClear (s : State) :
    exec .vfEnableClear s =
      let t := teardownAll s (s.openCtxs.filter fun n => decide (s.ctxFn n ≠ 0)) 4
      .next (t.putFns (updAt t.fns 0 fun f => { f with vfEnable := false })) := rfl

/-- Settles O16. -/
theorem linkAndFunctionResets : Obligations.LinkAndFunctionResets := by
  unfold Obligations.LinkAndFunctionResets
  intro s
  refine ⟨fun speed width hw hsp hwd => ?_, fun hw hl => ?_, fun fn h0 h17 hlen => ?_, ?_, ?_⟩
  · change Host.Outcome.next _ = _
    rw [if_pos ⟨.inl hw, hsp, hwd⟩]
  · have hexec : exec .surpriseDown s = .next (powerDown (teardownAll s s.openCtxs 5) stStandby false) := by
      change Host.Outcome.next _ = _
      rw [if_pos ⟨hw, hl⟩]
    exact ⟨_, hexec, powerDown_devState _ _ _ (by decide), powerDown_emptied _ _ _⟩
  · have hfns : (resetFn (teardownAll s (s.fnCtxs fn) 4) fn).fns = updAt s.fns fn fun _ => FnCfg.reset fn :=
      congrArg (updAt · fn _) (teardownAll_fns _ s 4)
    refine ⟨_, exec_functionLevelReset_virtual s fn h0 h17, (fn_of_updAt hfns fn (hlen ▸ h17)).trans (if_pos rfl),
      fun k hk => (fn_of_updAt hfns k (hlen ▸ h17)).trans (if_neg hk), fun n hn hf => ?_⟩
    exact teardownAll_open (s.fnCtxs fn) s 4 n (List.mem_filter.mpr ⟨mem_openCtxs hn, by simp [hf]⟩) hn
  · have hfn : (pfReset s).fn 0 = FnCfg.reset 0 := by
      rw [State.fn, pfReset_fns]
      exact (updAt_zero_getD _ _ _).elim id id
    refine ⟨_, exec_functionLevelReset_physical s, ?_⟩
    have hroot (n : Nat) (hn : n < 4096) : (pfReset s).reg (Reg.CTX_PT_ROOT n) = regReset (Reg.CTX_PT_ROOT n) :=
      pfReset_reg s _ (by simp only [Reg.CTX_PT_ROOT]; omega) (by simp only [Reg.CTX_PT_ROOT]; omega)
    split
    · refine ⟨?_, enterState_ctxs _ _, fun n hn => ?_⟩
      · rw [State.fn, enterState_fns]
        exact hfn
      · rw [enterState_reg _ _ _ (by simp only [Reg.CTX_PT_ROOT, Reg.GLB_STATE]; omega) (by simp only [Reg.CTX_PT_ROOT, Reg.MGT_STAT]; omega)]
        exact hroot n hn
    · exact ⟨hfn, rfl, hroot⟩
  · refine ⟨_, exec_vfEnableClear s, ?_, fun n hn hf => ?_⟩
    · exact (updAt_zero_getD _ _ _).elim (fun h => congrArg FnCfg.vfEnable h) fun h => congrArg FnCfg.vfEnable h
    · exact teardownAll_open _ s 4 n (List.mem_filter.mpr ⟨mem_openCtxs hn, by simpa using hf⟩) hn

end Sys2Proof.Machine

namespace Sys2Proof.Machine

/-! ### Entries of the in-flight table -/

theorem State.entry_id {s : State} {k : Nat} {e : Entry} (h : s.entry k = some e) : e.id = k := by
  simpa using List.find?_some h

theorem State.updEntry_flight (s : State) (id : Nat) (f : Entry → Entry) :
    (s.updEntry id f).flight = s.flight.map fun e => if e.id = id then f e else e := (rfl)

/-- An update that keeps the numbers changes the one entry. -/
theorem State.entry_updEntry (s : State) (id k : Nat) {f : Entry → Entry} (hf : ∀ e, (f e).id = e.id) :
    (s.updEntry id f).entry k = (s.entry k).map fun e => if e.id = id then f e else e := by
  have hid : ∀ e : Entry, (if e.id = id then f e else e).id = e.id := fun e => by split <;> simp [hf]
  simp only [State.entry, State.updEntry_flight, List.find?_map]
  congr 2
  funext e
  simp [hid]

theorem State.entry_updEntry_same {s : State} {id : Nat} {e : Entry} {f : Entry → Entry} (hf : ∀ e, (f e).id = e.id)
    (h : s.entry id = some e) : (s.updEntry id f).entry id = some (f e) := by
  simp [State.entry_updEntry s id id hf, h, State.entry_id h]

theorem State.entry_updEntry_ne (s : State) {id k : Nat} {f : Entry → Entry} (hf : ∀ e, (f e).id = e.id) (h : k ≠ id) :
    (s.updEntry id f).entry k = s.entry k := by
  rw [State.entry_updEntry s id k hf]
  cases he : s.entry k with
  | none => rfl
  | some e => simp [State.entry_id he, h]

/-! ### The end of a command (R44, R103, R104) -/

/-- The status of a completion's record: OK is TICK_OVERRUN when late (R44, R106). -/
def State.statusOf (s : State) (e : Entry) (status : Nat) : Nat := if status = 0 ∧ s.lateOf e then 5 else status

theorem recordOf_status (s : State) (e : Entry) (c : Completion) :
    fld ((recordOf s e c).words.getD 0 0) 55 48 = s.statusOf e c.status % 256 := by
  simp only [recordOf, List.getD_cons_zero, fld, bits, BitVec.toNat_ofNat, Nat.shiftRight_eq_div_pow, State.statusOf]
  have hb : b2n c.stage.isSome ≤ 1 := by unfold b2n; split <;> omega
  omega

theorem recordOf_tag (s : State) (e : Entry) (c : Completion) : fld ((recordOf s e c).words.getD 1 0) 63 32 = e.pkt.tag := by
  have ht : e.pkt.tag < 2 ^ 32 := fld_lt _ 63 32
  simp only [recordOf, List.getD_cons_succ, List.getD_cons_zero, fld, bits, BitVec.toNat_ofNat, Nat.shiftRight_eq_div_pow]
  omega

/-- A return ring holds at least 16 entries, so that a record without payload always fits (R18). -/
theorem retCap_ge (s : State) (n : Nat) : 16 ≤ s.retCap n :=
  Nat.le_mul_of_pos_right 16 (Nat.two_pow_pos _)

theorem packetEntries_zero : packetEntries 0 = 1 := rfl

/-- An entry that completes. -/
def Entry.finished (e : Entry) : Entry := { e with done := true, held := none, space := [] }

/-- What the end of a command does before its record waits: the entry is done, and the count, the tally and the times are booked. -/
def finishEntry (s : State) (e : Entry) (time : Option Nat) : State :=
  let s1 := if e.pkt.op = opcCollective then s.addF Reg.CLX_COLL_STAT 63 32 1 else s
  let s2 := s1.updEntry e.id Entry.finished
  noteEnd (if s.lateOf e then tally s2 (telPart e.part telLate) 1 else s2) e time

section
variable (s : State) (e : Entry) (time : Option Nat)

@[simp] theorem noteEnd_flight : (noteEnd s e time).flight = s.flight := (rfl)
@[simp] theorem noteEnd_regs : (noteEnd s e time).regs = s.regs := (rfl)
@[simp] theorem noteEnd_ctxs : (noteEnd s e time).ctxs = s.ctxs := (rfl)
@[simp] theorem noteEnd_rings : (noteEnd s e time).rings = s.rings := (rfl)
@[simp] theorem noteEnd_mem : (noteEnd s e time).mem = s.mem := (rfl)
@[simp] theorem noteEnd_nextId : (noteEnd s e time).nextId = s.nextId := (rfl)
@[simp] theorem noteEnd_slots : (noteEnd s e time).slots = s.slots := (rfl)
@[simp] theorem noteEnd_images : (noteEnd s e time).images = s.images := (rfl)
@[simp] theorem noteEnd_kv : (noteEnd s e time).kv = s.kv := (rfl)

@[simp] theorem finishEntry_ctxs : (finishEntry s e time).ctxs = s.ctxs := by unfold finishEntry; dsimp only; split <;> split <;> simp
@[simp] theorem finishEntry_rings : (finishEntry s e time).rings = s.rings := by unfold finishEntry; dsimp only; split <;> split <;> simp
@[simp] theorem finishEntry_mem : (finishEntry s e time).mem = s.mem := by unfold finishEntry; dsimp only; split <;> split <;> simp
@[simp] theorem finishEntry_nextId : (finishEntry s e time).nextId = s.nextId := by
  unfold finishEntry; dsimp only; split <;> split <;> simp
@[simp] theorem finishEntry_slots : (finishEntry s e time).slots = s.slots := by unfold finishEntry; dsimp only; split <;> split <;> simp
@[simp] theorem finishEntry_images : (finishEntry s e time).images = s.images := by
  unfold finishEntry; dsimp only; split <;> split <;> simp
@[simp] theorem finishEntry_kv : (finishEntry s e time).kv = s.kv := by unfold finishEntry; dsimp only; split <;> split <;> simp

theorem finishEntry_flight : (finishEntry s e time).flight = (s.updEntry e.id Entry.finished).flight := by
  unfold finishEntry
  dsimp only
  split <;> split <;> simp [State.updEntry_flight]

theorem finishEntry_entry (k : Nat) : (finishEntry s e time).entry k = (s.updEntry e.id Entry.finished).entry k := by
  rw [State.entry, finishEntry_flight, State.entry]

/-- Of the registers only the count of collectives changes (Table 13.8). -/
theorem finishEntry_regs (h : e.pkt.op ≠ opcCollective) : (finishEntry s e time).regs = s.regs := by
  unfold finishEntry
  rw [if_neg h]
  dsimp only
  split <;> simp

end

/-- What a completion leaves besides: its record waits last in its context. -/
def finishWith (s : State) (e : Entry) (c : Completion) : State :=
  (finishEntry s e c.time).setCtx e.ctx { s.ctx e.ctx with recs := (s.ctx e.ctx).recs ++ [recordOf s e c] }

section
variable {s : State} {id : Nat} {e : Entry} {c : Completion} (he : s.entry id = some e) (hd : e.done = false)
include he hd

/-- A completion whose record its return ring can hold (R103, R104). -/
theorem complete_eq (hfit : packetEntries c.payload.length ≤ s.retCap e.ctx) : complete s id c = finishWith s e c := by
  have hover : s.oversized e.ctx (recordOf s e c) = false := decide_eq_false (Nat.not_lt.mpr hfit)
  have hctx : (finishEntry s e c.time).ctx e.ctx = s.ctx e.ctx := by rw [State.ctx, finishEntry_ctxs, State.ctx]
  unfold complete finishWith
  rw [he, ← hctx]
  simp only [hd, hover, Bool.false_eq_true, if_false]
  rw [← State.entry_id he]
  rfl

/-- A completion without payload always has its record. -/
theorem complete_eq_of_nil (hp : c.payload = []) : complete s id c = finishWith s e c :=
  complete_eq he hd (by
    have := retCap_ge s e.ctx
    rw [hp, List.length_nil, packetEntries_zero]
    omega)

end

section
variable {s : State} {id : Nat} {e : Entry} {c : Completion}

theorem finishWith_reports (hst : c.status < 256) :
    s.reports (finishWith s e c) e (s.statusOf e c.status) := by
  refine ⟨recordOf s e c, ?_, rfl, ?_, recordOf_tag s e c⟩
  · rw [finishWith, State.ctx_setCtx_same]
  · rw [recordOf_status, Nat.mod_eq_of_lt]
    unfold State.statusOf
    split <;> omega

theorem finishWith_entry_same (he : s.entry id = some e) : (finishWith s e c).entry id = some e.finished := by
  rw [finishWith, State.setCtx_entry, finishEntry_entry, State.entry_id he]
  exact State.entry_updEntry_same (fun _ => rfl) he

theorem finishWith_entry_ne (he : s.entry id = some e) (k : Nat) (h : k ≠ id) : (finishWith s e c).entry k = s.entry k := by
  rw [finishWith, State.setCtx_entry, finishEntry_entry, State.entry_id he]
  exact State.entry_updEntry_ne s (fun _ => rfl) h

theorem finishWith_ctx_same : (finishWith s e c).ctx e.ctx = { s.ctx e.ctx with recs := (s.ctx e.ctx).recs ++ [recordOf s e c] } :=
  State.ctx_setCtx_same _ _ _

theorem finishWith_ctx_ne (n : Nat) (h : n ≠ e.ctx) : (finishWith s e c).ctx n = s.ctx n := by
  rw [finishWith, State.ctx_setCtx_ne _ _ _ _ h, State.ctx, finishEntry_ctxs, State.ctx]

/-- A completion charges no context. -/
theorem finishWith_used (n : Nat) : ((finishWith s e c).ctx n).used = (s.ctx n).used := by
  by_cases h : n = e.ctx
  · rw [h, finishWith_ctx_same]
  · rw [finishWith_ctx_ne n h]

@[simp] theorem finishWith_rings : (finishWith s e c).rings = s.rings := by simp [finishWith]
@[simp] theorem finishWith_mem : (finishWith s e c).mem = s.mem := by simp [finishWith]
@[simp] theorem finishWith_nextId : (finishWith s e c).nextId = s.nextId := by simp [finishWith]
@[simp] theorem finishWith_slots : (finishWith s e c).slots = s.slots := by simp [finishWith]
@[simp] theorem finishWith_images : (finishWith s e c).images = s.images := by simp [finishWith]
@[simp] theorem finishWith_kv : (finishWith s e c).kv = s.kv := by simp [finishWith]
@[simp] theorem finishWith_ring (r : Nat) : (finishWith s e c).ring r = s.ring r := by simp [State.ring]

theorem finishWith_sameRegs (h : e.pkt.op ≠ opcCollective) : s.sameRegs (finishWith s e c) [] := fun off _ => by
  simp [finishWith, State.reg, finishEntry_regs s e _ h]

end

/-- Memory as a whole unchanged is memory unchanged byte by byte. -/
theorem sameMemory_of_mem {s t : State} (h : t.mem = s.mem) : s.sameMemory t :=
  ⟨fun pa => congrArg (fun m : Mem => spGet 0 m.cells pa) h, congrArg Mem.errs h⟩

/-- A command that is no compute command and names no draw completes at once (R257). -/
theorem finishControl_undrawn {s0 s1 : State} {id : Nat} {e : Entry} (c : Completion) (he : s1.entry id = some e)
    (h : e.pkt.sh = 0 ∨ e.pkt.op ∈ [opcFork, opcPark, opcResume]) : finishControl s0 s1 id c = complete s1 id c := by
  have h' : e.pkt.sh = 0 ∨ [opcFork, opcPark, opcResume].contains e.pkt.op = true := by simpa using h
  unfold finishControl
  rw [he]
  exact if_pos h'

/-- One that names a state handle completes once the draw has advanced (R257). -/
theorem finishControl_drawn {s0 s1 u : State} {id : Nat} {e : Entry} (c : Completion) (he : s1.entry id = some e)
    (hsh : e.pkt.sh ≠ 0) (hop : e.pkt.op ∉ [opcFork, opcPark, opcResume]) (hu : advanceDraws s1 e.ctx [e.pkt.sh] = (u, none)) :
    finishControl s0 s1 id c = complete u id c := by
  have h' : ¬ (e.pkt.sh = 0 ∨ [opcFork, opcPark, opcResume].contains e.pkt.op = true) := by simpa [hsh] using hop
  unfold finishControl
  rw [he]
  simp only [h', hu, if_false]

end Sys2Proof.Machine

namespace Sys2Proof.Machine

/-! ### Admission (R14, R44, R45, R98) -/

section
variable (s : State) (n r : Nat) (p : Packet)

theorem takeEntry_flight : (takeEntry s n r p).flight = s.flight ++ [newEntry s n r p] := (rfl)
theorem takeEntry_ctxs : (takeEntry s n r p).ctxs = s.ctxs := by simp [takeEntry]
theorem takeEntry_mem : (takeEntry s n r p).mem = s.mem := by simp [takeEntry]
theorem takeEntry_slots : (takeEntry s n r p).slots = s.slots := by simp [takeEntry]
theorem takeEntry_images : (takeEntry s n r p).images = s.images := by simp [takeEntry]
theorem takeEntry_tickNum : (takeEntry s n r p).tickNum = s.tickNum := by simp [takeEntry, State.tickNum, State.fldR, State.reg]

theorem takeEntry_ctx (m : Nat) : (takeEntry s n r p).ctx m = s.ctx m := by rw [State.ctx, takeEntry_ctxs, State.ctx]

theorem takeEntry_ring_ne (k : Nat) (h : k ≠ r) : (takeEntry s n r p).ring k = s.ring k := by simp [takeEntry, h]

/-- The fetch buffer of the ring empties and its head stands (R98). -/
theorem takeEntry_ring_same : ((takeEntry s n r p).ring r).fetched = none ∧ ((takeEntry s n r p).ring r).head = (s.ring r).head := by
  simp [takeEntry]

/-- The state handle of the ring's stream stands where the ring had one, or the command names none (R26). -/
theorem takeEntry_stream (h : (s.ring r).stream ≠ none ∨ p.sh = 0) :
    ((takeEntry s n r p).ring r).stream.map (·.sh) = (s.ring r).stream.map (·.sh) := by
  cases hs : (s.ring r).stream with
  | none =>
    have hp : p.sh = 0 := h.resolve_left fun h => h hs
    simp [takeEntry, hs, hp]
  | some x =>
    by_cases hk : x.kh = 0 <;> simp [takeEntry, hs, hk]

/-- The command's entry stands under the next number. -/
theorem takeEntry_entry_same (h : s.entry s.nextId = none) : (takeEntry s n r p).entry s.nextId = some (newEntry s n r p) := by
  rw [State.entry] at h ⊢
  rw [takeEntry_flight, List.find?_append, h]
  simp [newEntry]

theorem takeEntry_entry_ne (k : Nat) (h : k ≠ s.nextId) : (takeEntry s n r p).entry k = s.entry k := by
  rw [State.entry, takeEntry_flight, List.find?_append]
  simp [newEntry, State.entry, h.symm]

/-- A command is not late in the interval of its admission (R44). -/
theorem lateOf_newEntry : (takeEntry s n r p).lateOf (newEntry s n r p) = false := by
  simp [State.lateOf, takeEntry_tickNum, newEntry]

end

/-- A command with count zero needs no budget (R14). -/
theorem overBudget_of_count (s : State) (n r : Nat) (p : Packet) (h : p.count = 0) : s.overBudget n r p = false := by
  simp [State.overBudget, h]

theorem mayAdmit_iff {s : State} {r n : Nat} {p : Packet} (h : s.mayAdmit r n p = true) :
    s.admissible r = true ∧ s.overBudget n r p = false := by
  simp only [State.mayAdmit, Bool.and_eq_true, Bool.not_eq_true'] at h
  exact h.1

/-- A WAIT with count zero on a ring that does not wait is admitted as any command (R91). -/
theorem holdWait_of_count {s : State} {r n : Nat} {p : Packet} (hm : s.mayAdmit r n p = true) (hcount : p.count = 0) (hst : (s.ring r).state = (s.ring r).base) :
    holdWait s n r p = admitPacket s n r p := by
  have hring : setRingState s r (s.ring r).base = s := if_pos hst
  unfold holdWait
  simp [hcount, hring, waitMet, hm]

section
variable {s : State} {r n : Nat} {p : Packet} (hf : (s.ring r).fetched = some p) (hc : s.ctxOfRing r = some n)
include hf hc

theorem exec_commandAdmit : exec (.commandAdmit r) s = .next (admitNext s n r p) := by
  change Host.Outcome.next _ = _
  rw [hf, hc]

/-- Over budget the command stays where it is, and its context is marked deferred once (R45). -/
theorem exec_commandAdmit_deferred (ha : s.admissible r = true) (ho : s.overBudget n r p = true) :
    exec (.commandAdmit r) s = .next (if (s.ctx n).deferred then s
      else tally (s.setCtx n { s.ctx n with deferred := true }) (telPart (s.ctxPart n) telDeferred) 1) := by
  simp [exec_commandAdmit hf hc, admitNext, ha, ho]

/-- A command that may be admitted is, a WAIT apart that still tests its counter. -/
theorem exec_commandAdmit_admitted (hm : s.mayAdmit r n p = true)
    (hw : p.op = opcWait → p.count = 0 ∧ (s.ring r).state = (s.ring r).base) :
    exec (.commandAdmit r) s = .next (admitPacket s n r p) := by
  obtain ⟨ha, ho⟩ := mayAdmit_iff hm
  rw [exec_commandAdmit hf hc]
  unfold admitNext
  simp only [ha, ho, hm, Bool.not_true, Bool.false_eq_true, if_false]
  split
  next h => rw [holdWait_of_count hm (hw h.1).1 (hw h.1).2]
  next => rfl

end

/-- A tally changes the tick's tallies alone. -/
theorem tally_onlyTick (s : State) (k n : Nat) : tally s k n = s.putTick (tally s k n).tick := by
  unfold tally
  split <;> rfl

section
variable {s : State} {n r : Nat} {p : Packet} (hb : packetBad (s.ring r) p = false) (hn : s.entry s.nextId = none)
  (hh : (takeEntry s n r p).handleClash (newEntry s n r p) = false)
include hb hn hh

/-- Admission of a well-formed packet whose handles clash with no other command's. -/
theorem admitPacket_atOnce (ha : atOnce (takeEntry s n r p) (newEntry s n r p) = true) :
    admitPacket s n r p = finishAtOnce (takeEntry s n r p) (newEntry s n r p) := by
  simp [admitPacket, admitted, takeEntry_entry_same s n r p hn, hb, hh, ha]

theorem admitPacket_control (ha : atOnce (takeEntry s n r p) (newEntry s n r p) = false) (hcomp : isCompute p.op = false)
    (hfork : p.op ≠ opcFork) (hmig : p.op ≠ opcMigrate) : admitPacket s n r p = takeEntry s n r p := by
  have hop : (newEntry s n r p).pkt.op = p.op := rfl
  simp [admitPacket, admitted, takeEntry_entry_same s n r p hn, hb, hh, ha, hop, hcomp, hfork, hmig]

end

theorem atOnce_of_count (s : State) {e : Entry} (h : e.pkt.count = 0) : atOnce s e = true := by simp [atOnce, h]

/-- Of the control commands only a zero count, and WAIT, complete at admission. -/
theorem atOnce_control (s : State) {e : Entry} (h : e.pkt.count ≠ 0) (hw : e.pkt.op ≠ opcWait) (hc : isCompute e.pkt.op = false) :
    atOnce s e = false := by
  simp [atOnce, foldsEmpty, h, hw, hc]

/-- A control command that completes at its admission and whose draw does not advance. -/
theorem finishAtOnce_undrawn {s : State} {e : Entry} (he : s.entry e.id = some e) (hc : isCompute e.pkt.op = false)
    (h : e.pkt.sh = 0 ∨ e.pkt.op ∈ [opcFork, opcPark, opcResume]) : finishAtOnce s e = complete s e.id { status := 0 } := by
  rw [finishAtOnce, if_neg (by simp [hc])]
  exact finishControl_undrawn _ he h

/-- A compute command that names no state handle has no draw to advance. -/
theorem finishAtOnce_compute {s : State} {e : Entry} (hc : isCompute e.pkt.op = true) (h : e.pkt.sh = 0) :
    finishAtOnce s e = complete s e.id { status := 0 } := by
  have hd : advanceDraws s e.ctx (drawHandles e) = (s, none) := by
    rw [show drawHandles e = [] from if_pos h]
    rfl
  rw [finishAtOnce, if_pos hc, hd]

/-- A command with draws to advance completes once they have advanced (R257). -/
theorem finishAtOnce_drawn {s u : State} {e : Entry} (he : s.entry e.id = some e) (hsh : e.pkt.sh ≠ 0)
    (hop : e.pkt.op ∉ [opcFork, opcPark, opcResume])
    (hu : advanceDraws s e.ctx (if isCompute e.pkt.op then drawHandles e else [e.pkt.sh]) = (u, none)) :
    finishAtOnce s e = complete u e.id { status := 0 } := by
  unfold finishAtOnce
  by_cases hc : isCompute e.pkt.op = true
  · rw [if_pos hc] at hu ⊢
    rw [hu]
  · rw [if_neg hc] at hu ⊢
    exact finishControl_drawn _ he hsh hop hu

/-- A command with count zero, admitted, none of whose draws advances, completes at once. -/
theorem admitPacket_zero {s : State} {n r : Nat} {p : Packet} (hb : packetBad (s.ring r) p = false) (hn : s.entry s.nextId = none)
    (hh : (takeEntry s n r p).handleClash (newEntry s n r p) = false) (hcount : p.count = 0)
    (h : p.sh = 0 ∨ p.op ∈ [opcFork, opcPark, opcResume]) :
    admitPacket s n r p = finishWith (takeEntry s n r p) (newEntry s n r p) { status := 0 } := by
  have he := takeEntry_entry_same s n r p hn
  rw [admitPacket_atOnce hb hn hh (atOnce_of_count _ hcount), ← complete_eq_of_nil he rfl rfl]
  by_cases hc : isCompute p.op = true
  · refine finishAtOnce_compute hc (h.resolve_right fun hop => ?_)
    simp only [List.mem_cons, List.not_mem_nil, or_false] at hop
    rcases hop with hop | hop | hop <;> exact absurd hc (by rw [hop]; decide)
  · exact finishAtOnce_undrawn he (Bool.eq_false_iff.mpr hc) h

/-- The entry that a command with count zero leaves, and its record. -/
theorem finishWith_newEntry (s : State) (n r : Nat) (p : Packet) :
    s.reports (finishWith (takeEntry s n r p) (newEntry s n r p) { status := 0 }) (newEntry s n r p) 0 := by
  have hrep := finishWith_reports (s := takeEntry s n r p) (e := newEntry s n r p) (c := { status := 0 }) (by decide)
  have hst : (takeEntry s n r p).statusOf (newEntry s n r p) 0 = 0 := by simp [State.statusOf, lateOf_newEntry]
  rw [hst] at hrep
  simpa only [State.reports, takeEntry_ctx] using hrep

/-- Settles O34. -/
theorem commandsAdmitted : Obligations.CommandsAdmitted := by
  unfold Obligations.CommandsAdmitted
  intro s r n p hf hc
  refine ⟨fun hm hop hb hn hh => ?_, fun ha ho => ?_⟩
  · have hops : p.op ≠ opcWait ∧ p.op ≠ opcFork ∧ p.op ≠ opcMigrate ∧ isCompute p.op = false := by
      simp only [List.mem_cons, List.not_mem_nil, or_false] at hop
      rcases hop with h | h | h | h | h | h | h | h | h <;> rw [h] <;> decide
    obtain ⟨hwait, hfork, hmig, hcomp⟩ := hops
    have he := takeEntry_entry_same s n r p hn
    have hexec := exec_commandAdmit_admitted hf hc hm fun h => absurd h hwait
    obtain ⟨hfetched, hhead⟩ := takeEntry_ring_same s n r p
    refine ⟨fun hcase => ?_, fun u hcount hsh hpr hu => ?_⟩
    · by_cases hcount : p.count = 0
      · have hz : p.sh = 0 ∨ p.op ∈ [opcFork, opcPark, opcResume] := by simpa [hcount, hfork] using hcase
        refine ⟨_, (newEntry s n r p).finished, hexec.trans (congrArg _ (admitPacket_zero hb hn hh hcount hz)),
          finishWith_entry_same he, rfl, rfl, rfl, rfl, rfl, decide_eq_true_iff, finishWith_nextId, ?_, ?_, fun k hk => ?_,
          fun k hk => ?_, sameMemory_of_mem ?_, fun m hm => ?_, ⟨fun _ => hcount, fun _ => rfl⟩, fun _ => finishWith_newEntry s n r p,
          fun h => absurd hcount h⟩
        · rw [finishWith_ring, hfetched]
        · rw [finishWith_ring, hhead]
        · rw [finishWith_entry_ne he k hk, takeEntry_entry_ne s n r p k hk]
        · rw [finishWith_ring, takeEntry_ring_ne s n r p k hk]
        · rw [finishWith_mem, takeEntry_mem]
        · rw [finishWith_ctx_ne m hm, takeEntry_ctx]
      · have hpacket := admitPacket_control hb hn hh (atOnce_control _ hcount hwait hcomp) hcomp hfork hmig
        exact ⟨_, newEntry s n r p, hexec.trans (congrArg _ hpacket), he, rfl, rfl, rfl, rfl, rfl, decide_eq_true_iff, rfl, hfetched, hhead,
          takeEntry_entry_ne s n r p, takeEntry_ring_ne s n r p, sameMemory_of_mem (takeEntry_mem s n r p),
          fun m _ => takeEntry_ctx s n r p m, ⟨fun h => absurd h Bool.false_ne_true, fun h => absurd h hcount⟩,
          fun h => absurd h hcount, fun _ => takeEntry_ctxs s n r p⟩
    · have hno : p.op ∉ [opcFork, opcPark, opcResume] := by simpa [hfork] using hpr
      rw [hexec, admitPacket_atOnce hb hn hh (atOnce_of_count _ hcount)]
      have hctl : isCompute (newEntry s n r p).pkt.op = false := hcomp
      exact congrArg _ (finishAtOnce_drawn he hsh hno (by rw [hctl]; exact hu))
  · rw [exec_commandAdmit_deferred hf hc ha ho]
    refine ⟨_, rfl, ?_, ?_, fun m hm => ?_⟩
    · split
      next h => rw [← h]
      next => rw [tally_ctx, State.ctx_setCtx_same]
    · split
      · rfl
      · rw [tally_ctxs]; exact tally_onlyTick (s.setCtx n _) _ _
    · split
      · rfl
      · rw [tally_ctx, State.ctx_setCtx_ne _ _ _ _ hm]

/-- Settles O35. -/
theorem zeroCount : Obligations.ZeroCount := by
  unfold Obligations.ZeroCount
  intro s r n p hf hc hcount
  refine ⟨overBudget_of_count s n r p hcount, fun hm hb hn hh hw => ?_⟩
  have he := takeEntry_entry_same s n r p hn
  have hexec := exec_commandAdmit_admitted hf hc hm fun h => ⟨hcount, hw h⟩
  refine ⟨fun hz => ?_, fun u hsh hop hu => ?_⟩
  · refine ⟨_, (newEntry s n r p).finished, hexec.trans (congrArg _ (admitPacket_zero hb hn hh hcount hz)), finishWith_entry_same he,
      rfl, rfl, finishWith_newEntry s n r p, ?_, sameMemory_of_mem ?_, ?_, ?_, fun k hk => ?_, fun hst => ?_⟩
    · exact (finishWith_used n).trans (congrArg Ctx.used (takeEntry_ctx s n r p n))
    · rw [finishWith_mem, takeEntry_mem]
    · rw [finishWith_slots, takeEntry_slots]
    · rw [finishWith_images, takeEntry_images]
    · rw [finishWith_ring, takeEntry_ring_ne s n r p k hk]
    · rw [finishWith_ring, takeEntry_stream s n r p hst]
  · rw [hexec, admitPacket_atOnce hb hn hh (atOnce_of_count _ hcount)]
    exact congrArg _ (finishAtOnce_drawn he hsh hop hu)

end Sys2Proof.Machine

namespace Sys2Proof.Machine

/-! ### What an access of device memory changes (R286 to R293, R297) -/

theorem keepsWork_adviseRow (s : State) (pa : Nat) : s.keepsWork (adviseRow s pa) :=
  (keepsWork_satF s _ _ _ _).trans (keepsWork_logError _ _)

theorem keepsWork_correctUnit (s : State) (u : Nat) (ctx : Option Nat) : s.keepsWork (correctUnit s u ctx) := by
  unfold correctUnit
  dsimp only
  have h (m : Mem) (off k : Nat) (a : LogArgs) : s.keepsWork (logError (tally ((s.putMem m).satF off 63 48 1) k 1) a) :=
    (keepsWork_putMem s m).trans ((keepsWork_satF _ _ _ _ _).trans ((keepsWork_tally _ _ _).trans (keepsWork_logError _ _)))
  exact .ite ((h _ _ _ _).trans (keepsWork_adviseRow _ u)) (h _ _ _ _)

theorem keepsWork_noteBadUnit (s : State) (u status : Nat) (ctx : Option Nat) : s.keepsWork (noteBadUnit s u status ctx) := by
  unfold noteBadUnit
  dsimp only
  refine .trans ?_ (keepsWork_logError _ _)
  refine .trans ?_ (keepsWork_satF _ _ _ _ _)
  exact .ite ((keepsWork_satF s _ _ _ _).trans (keepsWork_tally _ _ _)) ((keepsWork_satF s _ _ _ _).trans (keepsWork_tally _ _ _))

theorem keepsWork_loseLine (s : State) (ctx : Option Nat) (line : Nat) : s.keepsWork (loseLine s ctx line) := by
  unfold loseLine
  dsimp only
  refine .trans ?_ (keepsWork_logError _ _)
  exact (keepsWork_putMem s _).trans (keepsWork_putFree _ _)

theorem keepsWork_noteUnits (s : State) (pa n : Nat) (ctx : Option Nat) : s.keepsWork (noteUnits s pa n ctx) :=
  .ite (.refl s) (.foldl _ s fun t u =>
    .ite (.refl t) (.ite (keepsWork_noteBadUnit t u _ ctx) (.ite (keepsWork_correctUnit t u ctx) (.refl t))))

theorem keepsWork_noteRead (s : State) (pa n : Nat) (ctx : Option Nat) : s.keepsWork (noteRead s pa n ctx) :=
  (keepsWork_noteUnits s pa n ctx).trans (.foldl _ _ fun t l => keepsWork_loseLine t ctx l)

theorem keepsWork_noteMerge (s : State) (pa n : Nat) (ctx : Option Nat) : s.keepsWork (noteMerge s pa n ctx) :=
  .ite (.refl s) (.foldl _ s fun t u => keepsWork_noteRead t u 1 ctx)

theorem keepsWork_evict (s : State) (c : CacheLine) : s.keepsWork (evict s c) :=
  .ite (keepsWork_loseLine s none c.line) (.ite (keepsWork_putMem s _) (keepsWork_putMem s _))

theorem keepsWork_fillLine (s : State) (line : Nat) (ctx : Option Nat) : s.keepsWork (fillLine s line ctx) :=
  .ite (.refl s) (.foldl _ s fun t u => .ite (keepsWork_correctUnit t u ctx) (.refl t))

theorem keepsWork_cacheLine (s : State) (p line : Nat) (write whole : Bool) (ctx : Option Nat) :
    s.keepsWork (cacheLine s p line write whole ctx) := by
  unfold cacheLine
  refine .ite (.refl s) ?_
  split
  · exact (keepsWork_putMem s _).trans (keepsWork_addF _ _ _ _ _)
  · dsimp only
    refine .trans ?_ (keepsWork_addF _ _ _ _ _)
    refine .trans ?_ (keepsWork_putMem _ _)
    have hroom (o : Option CacheLine) : s.keepsWork (match o with
        | some c => evict s c
        | none => s) := by
      cases o with
      | some c => exact keepsWork_evict s c
      | none => exact .refl s
    exact .ite (hroom _) ((hroom _).trans (keepsWork_fillLine _ line ctx))

theorem keepsWork_touchPhys (s : State) (p pa n : Nat) (write : Bool) (ctx : Option Nat) : s.keepsWork (touchPhys s p pa n write ctx) :=
  .foldl _ s fun t _ => .ite ((keepsWork_putMem t _).trans (keepsWork_cacheLine _ _ _ _ _ _)) (keepsWork_putMem t _)

theorem keepsWork_readPhys (s : State) (p pa n : Nat) (ctx : Option Nat) : s.keepsWork (readPhys s p pa n ctx) :=
  (keepsWork_touchPhys s p pa n false ctx).trans (keepsWork_noteRead _ pa n ctx)

theorem keepsWork_walked (s : State) (n va : Nat) : s.keepsWork (walked s n va) := by
  have h := State.keepsWork.foldl (f := fun t ea => readPhys t (s.ctxPart n) ea 8 (some n)) (s.walk n va) s
    fun t ea => keepsWork_readPhys t _ ea 8 _
  unfold walked
  dsimp only
  split
  · exact .ite (h.trans (keepsWork_putMem _ _)) h
  · exact h

theorem keepsWork_dropWhere (s : State) (hit : Retained → Bool) : s.keepsWork (dropWhere s hit) :=
  (keepsWork_putRetained s _).trans (.foldl _ _ fun t _ => keepsWork_addF t _ _ _ _)

theorem keepsWork_storePhys (s : State) (p pa : Nat) (bs : List Byte) (ctx : Option Nat) : s.keepsWork (storePhys s p pa bs ctx) := by
  unfold storePhys
  dsimp only
  refine .trans ?_ (keepsWork_putMem _ _)
  refine .trans ?_ (keepsWork_noteMerge _ _ _ _)
  exact .trans (keepsWork_dropWhere s _) (keepsWork_touchPhys _ _ _ _ _ _)

theorem keepsWork_writePieces (s0 s : State) (c : Nat) (pcs : List (Nat × Nat)) (bs : List Byte) :
    s.keepsWork (writePieces s0 s c pcs bs) := by
  induction pcs generalizing s bs with
  | nil => exact .refl s
  | cons pc pcs ih =>
    unfold writePieces
    split
    · exact keepsWork_walked s c pc.1
    · exact .ite (.refl s) (((keepsWork_walked s c pc.1).trans (keepsWork_storePhys _ _ _ _ _)).trans (ih _ _))

theorem keepsWork_vwrite (s : State) (c va : Nat) (bs : List Byte) : s.keepsWork (vwrite s c va bs).1 :=
  keepsWork_writePieces s s c _ bs

/-! ### Pool pages given back (R211, R219) -/

/-- A page given back changes the pool besides. -/
theorem freePage_keeps (s : State) (c i : Nat) : (freePage s c i).1.ctxs = s.ctxs ∧ (freePage s c i).1.flight = s.flight := by
  have h := keepsWork_vwrite s c (s.poolVa c i + 8) (leBytes 8 ((s.pool c).2.headD (2 ^ 32 - 1)))
  unfold freePage wr64
  dsimp only
  generalize vwrite s c (s.poolVa c i + 8) (leBytes 8 ((s.pool c).2.headD (2 ^ 32 - 1))) = m at h
  unfold M.next
  split
  · exact ⟨h.ctxs, h.flight⟩
  · exact ⟨h.ctxs, h.flight⟩

theorem foldl_freePage_keeps (c : Nat) (l : List Nat) (s : State) :
    (l.foldl (fun s g => (freePage s c g).1) s).ctxs = s.ctxs ∧ (l.foldl (fun s g => (freePage s c g).1) s).flight = s.flight := by
  induction l generalizing s with
  | nil => exact ⟨rfl, rfl⟩
  | cons g l ih =>
    obtain ⟨hctxs, hflight⟩ := freePage_keeps s c g
    obtain ⟨hctxs', hflight'⟩ := ih (freePage s c g).1
    exact ⟨hctxs'.trans hctxs, hflight'.trans hflight⟩

theorem releaseReserved_keeps (s : State) (id : Nat) : (releaseReserved s id).ctxs = s.ctxs ∧ (releaseReserved s id).flight = s.flight := by
  unfold releaseReserved keepReserved
  split
  · exact ⟨rfl, rfl⟩
  next r _ => exact foldl_freePage_keeps r.2.1 _ _

/-- A command that has reserved no page has none to return. -/
theorem releaseReserved_of_none {s : State} {id : Nat} (h : ∀ r ∈ s.kv.reserved, r.1 ≠ id) : releaseReserved s id = s := by
  have hn : (s.kv.reserved.find? fun r => decide (r.1 = id)) = none := by simpa using h
  unfold releaseReserved keepReserved
  rw [hn]

/-! ### Fences, parks and transfers (R37, R40, R92) -/

/-- Every opcode that a step's mark of a begun command is for. -/
theorem exec_marksBegun {s : State} {id : Nat} {e : Entry} (he : s.entry id = some e) (hd : e.done = false) {c : Instr} {op : Nat}
    (hc : (c, op) ∈ [(Instr.tickFence id, opcTickFence), (.park id, opcPark), (.resume id, opcResume)]) (hop : e.pkt.op = op) :
    exec c s = .next (s.updEntry id fun x => { x with begun := true }) := by
  have hgo (k : Nat) (hk : e.pkt.op = k) : ¬ (e.pkt.op ≠ k ∨ e.done = true) := by simp [hk, hd]
  simp only [List.mem_cons, List.not_mem_nil, or_false] at hc
  rcases hc with ⟨rfl, rfl⟩ | ⟨rfl, rfl⟩ | ⟨rfl, rfl⟩ <;>
  · change Host.Outcome.next _ = _
    rw [he]
    exact congrArg _ (if_neg (hgo _ hop))

/-- What waits for edges is never late (R37, R92). -/
theorem statusOf_edgeBound (s : State) {e : Entry} (h : edgeBound e.pkt.op = true) (k : Nat) : s.statusOf e k = k := by
  simp [State.statusOf, State.lateOf, h]

/-- What a completion reports turns on the context's records alone. -/
theorem State.reports.of_ctx {s s' t t' : State} {e : Entry} {k : Nat} (h : s.reports t e k) (hs : s'.ctx e.ctx = s.ctx e.ctx)
    (ht : t'.ctx e.ctx = t.ctx e.ctx) : s'.reports t' e k := by
  unfold State.reports
  rw [hs, ht]
  exact h

/-- A TICK_FENCE whose edges have passed completes once its ring's earlier commands have (R92). -/
theorem exec_tickFenceExpiry {s : State} {id : Nat} {e : Entry} (he : s.entry id = some e) (hd : e.done = false)
    (hop : e.pkt.op = opcTickFence) (hedges : e.edges = 0) (hall : ∀ x ∈ s.ringFlight e.ring, x.id < id → x.done = true) :
    exec (.tickFenceExpiry id) s = .next (finishControl s s id { status := 0 }) := by
  have hany : (s.ringFlight e.ring).any (fun x => decide (x.id < id) && !x.done) = false := by
    simpa [List.any_eq_false] using hall
  change Host.Outcome.next _ = _
  rw [he]
  simp [hd, hop, hedges, hany]

/-- Before its last edge it waits. -/
theorem exec_tickFenceExpiry_waits {s : State} {id : Nat} {e : Entry} (he : s.entry id = some e) (hedges : e.edges ≠ 0) :
    exec (.tickFenceExpiry id) s = .next s := by
  change Host.Outcome.next _ = _
  rw [he]
  simp [hedges]

theorem setTransfer_ringFlight (s : State) (r : Nat) (b : Bool) (k : Nat) : (setTransfer s r b).ringFlight k = s.ringFlight k := (rfl)

/-- The end of a transfer completes the ring's one PARK or RESUME that has not completed (R40). -/
theorem exec_stateTransferComplete {s : State} {e : Entry} (hd : e.done = false) (hop : e.pkt.op = opcPark ∨ e.pkt.op = opcResume)
    (htransfer : (s.ring e.ring).transfer = true) (hall : ∀ x ∈ s.ringFlight e.ring, x.done = true ∨ x = e) (hmem : e ∈ s.flight) :
    exec (.stateTransferComplete e.ring) s = .next (complete (setTransfer s e.ring false) e.id { status := 0 }) := by
  have hring : e ∈ s.ringFlight e.ring := by simpa [State.ringFlight] using hmem
  have hpred : ((decide (e.pkt.op = opcPark) || decide (e.pkt.op = opcResume)) && !e.done) = true := by simpa [hd] using hop
  have hfind : ((setTransfer s e.ring false).ringFlight e.ring).find?
      (fun e => (decide (e.pkt.op = opcPark) || decide (e.pkt.op = opcResume)) && !e.done) = some e := by
    rw [setTransfer_ringFlight]
    cases hx : (s.ringFlight e.ring).find? fun e => (decide (e.pkt.op = opcPark) || decide (e.pkt.op = opcResume)) && !e.done with
    | none => exact absurd hpred (List.find?_eq_none.mp hx e hring)
    | some x =>
      have hnot : x.done = false := by
        have := List.find?_some hx
        simp only [Bool.and_eq_true, Bool.not_eq_true'] at this
        exact this.2
      rcases hall x (List.mem_of_find?_eq_some hx) with h | h
      · simp [hnot] at h
      · rw [h]
  change Host.Outcome.next _ = _
  rw [htransfer]
  dsimp only [Bool.not_true]
  rw [hfind]
  rfl

/-! ### The hold limit (R24, R233, R348, R376) -/

/-- What a command that completes UNIT_UNAVAILABLE gives up before it does. -/
def givenUp (s : State) (e : Entry) : State := dropMoves (killCollective (killExchange (dropAcquired s e) e) e) e.id

theorem dropAcquired_eq (s : State) (e : Entry) : dropAcquired s e = s.putSlots (dropAcquired s e).slots :=
  List.foldlRecOn (motive := fun t : State => t = s.putSlots t.slots) e.run.acq (fun s h => dropReserved s e.ctx h) rfl
    fun t ht h _ => by rw [ht]; rfl

section
variable (s : State) (e : Entry)

theorem dropAcquired_keeps : (dropAcquired s e).ctxs = s.ctxs ∧ (dropAcquired s e).flight = s.flight ∧ (dropAcquired s e).mem = s.mem ∧
    (dropAcquired s e).kv = s.kv := by
  rw [dropAcquired_eq]
  exact ⟨rfl, rfl, rfl, rfl⟩

theorem killExchange_keeps : (killExchange s e).ctxs = s.ctxs ∧ (killExchange s e).flight = s.flight ∧ (killExchange s e).mem = s.mem ∧
    (killExchange s e).kv.reserved = s.kv.reserved := by
  unfold killExchange
  split <;> exact ⟨rfl, rfl, rfl, rfl⟩

theorem killCollective_keeps : (killCollective s e).ctxs = s.ctxs ∧ (killCollective s e).flight = s.flight ∧
    (killCollective s e).mem = s.mem ∧ (killCollective s e).kv = s.kv := by
  unfold killCollective
  split
  · exact ⟨rfl, rfl, rfl, rfl⟩
  · simp

theorem dropMoves_keeps (id : Nat) : (dropMoves s id).ctxs = s.ctxs ∧ (dropMoves s id).flight = s.flight ∧ (dropMoves s id).mem = s.mem ∧
    (dropMoves s id).kv = s.kv := ⟨rfl, rfl, rfl, rfl⟩

/-- Contexts, commands, memory and the reserved pages stand. -/
theorem givenUp_keeps : (givenUp s e).ctxs = s.ctxs ∧ (givenUp s e).flight = s.flight ∧ (givenUp s e).mem = s.mem ∧
    (givenUp s e).kv.reserved = s.kv.reserved := by
  obtain ⟨hctxs, hflight, hmem, hkv⟩ := dropAcquired_keeps s e
  unfold givenUp
  rw [← hctxs, ← hflight, ← hmem, ← hkv]
  generalize dropAcquired s e = s1
  obtain ⟨hctxs, hflight, hmem, hreserved⟩ := killExchange_keeps s1 e
  rw [← hctxs, ← hflight, ← hmem, ← hreserved]
  generalize killExchange s1 e = s2
  obtain ⟨hctxs, hflight, hmem, hkv⟩ := killCollective_keeps s2 e
  rw [← hctxs, ← hflight, ← hmem, ← hkv]
  obtain ⟨hctxs, hflight, hmem, hkv⟩ := dropMoves_keeps (killCollective s2 e) e.id
  exact ⟨hctxs, hflight, hmem, congrArg Kv.reserved hkv⟩

end

/-- HOLD_LIMIT_EXPIRY at the hold limit: the completion, then the return of the command's reserved pages (R24). -/
theorem exec_holdLimitExpiry {s : State} {id : Nat} {e : Entry} (hruns : s.runs id e) {t0 : Nat} (hw : waitSince s e = some t0)
    (ht : t0 + s.holdLimit ≤ s.tickNum) :
    exec (.holdLimitExpiry id) s =
      .next (releaseReserved (finishWith (givenUp s e) e { status := 1, stage := holdStage e }) id) := by
  obtain ⟨hlive, he, hd, -⟩ := hruns
  obtain ⟨-, hflight, -, -⟩ := givenUp_keeps s e
  have he' : (givenUp s e).entry id = some e := by rw [State.entry, hflight, ← State.entry, he]
  rw [← complete_eq_of_nil he' hd rfl]
  change Host.Outcome.next _ = _
  rw [he]
  dsimp only
  rw [hw]
  simp only [hlive, hd, Nat.not_lt.mpr ht, Bool.not_true, Bool.false_eq_true, or_self, if_false]
  rw [givenUp, State.entry_id he]

/-! ### Yields (R45, R152, R366, R367) -/

theorem arrayCores_nodup (gang a : Nat) : (arrayCores gang a).Nodup := by
  unfold arrayCores
  split
  · simp
  · split <;> simp

theorem SEQ_CLAIM_inj {a b : Nat} : Reg.SEQ_CLAIM a = Reg.SEQ_CLAIM b ↔ a = b := by
  simp only [Reg.SEQ_CLAIM]
  omega

theorem CTX_PREEMPT_ne_SEQ_CLAIM (a : Nat) : Reg.CTX_PREEMPT ≠ Reg.SEQ_CLAIM a := by
  simp only [Reg.SEQ_CLAIM, Reg.CTX_PREEMPT]
  omega

/-- A write after register writes is one. -/
theorem State.setReg_of_putRegs {s t : State} (h : t = s.putRegs t.regs) (off : Nat) (w : Word) :
    t.setReg off w = s.putRegs (t.setReg off w).regs := by
  rw [h]
  rfl

/-- A fold of register counts changes registers alone. -/
theorem foldl_addF_eq (hi lo : Nat) (l : List Nat) (s : State) :
    l.foldl (fun s c => s.addF (Reg.SEQ_CLAIM c) hi lo 1) s = s.putRegs (l.foldl (fun s c => s.addF (Reg.SEQ_CLAIM c) hi lo 1) s).regs :=
  List.foldlRecOn (motive := fun t : State => t = s.putRegs t.regs) l _ rfl fun _ ht c _ => State.setReg_of_putRegs ht (Reg.SEQ_CLAIM c) _

theorem foldl_addF_reg_ne (hi lo off : Nat) (l : List Nat) (s : State) (h : off ∉ l.map Reg.SEQ_CLAIM) :
    (l.foldl (fun s c => s.addF (Reg.SEQ_CLAIM c) hi lo 1) s).reg off = s.reg off := by
  induction l generalizing s with
  | nil => rfl
  | cons c l ih =>
    simp only [List.map_cons, List.mem_cons, not_or] at h
    rw [List.foldl_cons, ih _ h.2, State.reg_addF_ne _ _ _ _ _ _ h.1]

/-- Each core of the list, named once, counts one. -/
theorem foldl_addF_fldR {hi lo : Nat} (h : lo ≤ hi) (h64 : hi < 64) (l : List Nat) (hl : l.Nodup) (s : State) {a : Nat} (ha : a ∈ l) :
    (l.foldl (fun s c => s.addF (Reg.SEQ_CLAIM c) hi lo 1) s).fldR (Reg.SEQ_CLAIM a) hi lo =
      (s.fldR (Reg.SEQ_CLAIM a) hi lo + 1) % 2 ^ (hi + 1 - lo) := by
  induction l generalizing s with
  | nil => cases ha
  | cons c l ih =>
    obtain ⟨hc, hl⟩ := List.nodup_cons.mp hl
    rw [List.foldl_cons]
    by_cases hac : a = c
    · have hnot : Reg.SEQ_CLAIM a ∉ l.map Reg.SEQ_CLAIM := by
        rw [hac]
        simpa [SEQ_CLAIM_inj] using hc
      rw [State.fldR, foldl_addF_reg_ne _ _ _ _ _ hnot, ← State.fldR, hac, State.fldR_addF_same _ _ _ _ _ h h64]
    · rw [ih hl _ ((List.mem_cons.mp ha).resolve_left hac), State.addF, State.fldR_setF_ne _ _ _ _ _ _ _ _ fun h => hac (SEQ_CLAIM_inj.mp h)]

/-- The items an array holds of a command. -/
def Entry.itemsOf (e : Entry) (a : Nat) : List Nat := (e.run.claims.filter fun c => decide (c.array = a)).map (·.item)

/-- A command charged t more (R45). -/
def Entry.charged (e : Entry) (t : Nat) : Entry := { e with core := e.core + t }

/-- A command whose items l of an array go back to the reissue list (R152). -/
def Entry.returned (e : Entry) (a : Nat) (l : List Nat) : Entry :=
  { e with run := { e.run with
      claims := e.run.claims.filter fun c => decide (c.array ≠ a) || !l.contains c.item
      reissue := e.run.reissue ++ l } }

/-- The array's every claim goes. -/
theorem Entry.returned_claims (e : Entry) (a : Nat) : (e.returned a (e.itemsOf a)).run.claims = e.run.claims.filter fun c => decide (c.array ≠ a) := by
  refine List.filter_congr fun c hc => ?_
  by_cases h : c.array = a
  · have hmem : c.item ∈ e.itemsOf a := List.mem_map_of_mem (List.mem_filter.mpr ⟨hc, decide_eq_true h⟩)
    simp [h, hmem]
  · simp [h]

/-- A yield of an array of a core set that finishes no item: what it charges, books, gives back and counts. -/
def yieldedState (s : State) (e : Entry) (a time core : Nat) : State :=
  countArray (giveBack (bookYield (charge s e core) e a time) e.id a (e.itemsOf a)) e a 31 0

theorem exec_coreYieldDone {s : State} {a time left core : Nat} {e : Entry} (ha : a < 64)
    (hfind : (s.flight.find? fun e => !e.done && e.run.claims.any (fun c => decide (c.array = a)) && s.mustYield e a) = some e)
    (hlimit : s.effF (Reg.SEQ_CFG a) 15 0 < left ∨ s.effF (Reg.SEQ_CFG a) 15 0 = 0) :
    exec (.coreYieldDone a time ⟨left, core, 0⟩) s = .next (yieldedState s e a time core) := by
  have hfinish : (decide (left ≤ s.effF (Reg.SEQ_CFG a) 15 0 ∧ s.effF (Reg.SEQ_CFG a) 15 0 ≠ 0) || decide (64 ≤ a)) = false := by
    simp only [Bool.or_eq_false_iff, decide_eq_false_iff_not]
    omega
  change Host.Outcome.next _ = _
  rw [hfind]
  dsimp only
  rw [hfinish]
  rfl

/-- An update of an entry turns on the commands in flight alone. -/
theorem State.updEntry_entry_of_flight {s t : State} {id k : Nat} {f : Entry → Entry} (h : t.flight = s.flight) :
    (t.updEntry id f).entry k = (s.updEntry id f).entry k := by
  rw [State.entry, State.updEntry_flight, h]
  rfl

section
variable (s : State) (e : Entry) (a time core : Nat)

theorem charge_used : ((charge s e core).ctx e.ctx).used = (s.ctx e.ctx).used + core := by
  rw [charge, State.updEntry_ctx, tally_ctx, State.ctx_setCtx_same]

theorem charge_regs : (charge s e core).regs = s.regs := by simp [charge]
theorem charge_mem : (charge s e core).mem = s.mem := by simp [charge]
theorem charge_hol : (charge s e core).hol = s.hol := by simp [charge]
theorem charge_entry (k : Nat) : (charge s e core).entry k = (s.updEntry e.id (·.charged core)).entry k :=
  State.updEntry_entry_of_flight (f := (·.charged core)) (by simp)

/-- The booking of a yield changes CTX_PREEMPT alone. -/
theorem bookYield_eq : bookYield s e a time = s.putRegs (bookYield s e a time).regs := by
  unfold bookYield
  split
  · rfl
  · exact State.setReg_of_putRegs (State.setReg_of_putRegs (s := s) rfl _ _) _ _

theorem bookYield_reg_ne (off : Nat) (h : off ≠ Reg.CTX_PREEMPT) : (bookYield s e a time).reg off = s.reg off := by
  unfold bookYield
  split
  · rfl
  · rw [State.reg_maxF_ne _ _ _ _ _ _ h, State.reg_addF_ne _ _ _ _ _ _ h]

/-- YIELDS counts the array's cores (Table 14.10). -/
theorem bookYield_yields (h : a < 64) : (bookYield s e a time).fldR Reg.CTX_PREEMPT 63 32 =
    (s.fldR Reg.CTX_PREEMPT 63 32 + (arrayCores (gangOf s e) a).length) % 2 ^ 32 := by
  rw [bookYield, if_neg (Nat.not_le.mpr h), State.maxF,
    State.fldR_setF_disjoint _ _ _ _ _ _ _ (by decide) (by decide) (.inr (by decide)), State.fldR_addF_same _ _ _ _ _ (by decide) (by decide)]

/-- The state in which the array's cores count. -/
def givenBack : State := giveBack (bookYield (charge s e core) e a time) e.id a (e.itemsOf a)

theorem givenBack_regs : (givenBack s e a time core).regs = (bookYield (charge s e core) e a time).regs := (rfl)

theorem givenBack_keeps : (givenBack s e a time core).ctxs = (charge s e core).ctxs ∧ (givenBack s e a time core).mem = s.mem ∧
    (givenBack s e a time core).hol = s.hol := by
  rw [givenBack, bookYield_eq, ← charge_mem s e core, ← charge_hol s e core]
  exact ⟨rfl, rfl, rfl⟩

theorem givenBack_entry (k : Nat) : (givenBack s e a time core).entry k =
    ((charge s e core).updEntry e.id (·.returned a (e.itemsOf a))).entry k := by
  rw [givenBack, bookYield_eq]
  rfl

theorem givenBack_reg (off : Nat) : (givenBack s e a time core).reg off = (bookYield (charge s e core) e a time).reg off := by
  rw [State.reg, givenBack_regs, State.reg]

theorem charge_reg (off : Nat) : (charge s e core).reg off = s.reg off := by rw [State.reg, charge_regs, State.reg]

end

section
variable {s : State} {e : Entry} {a time core : Nat}

/-- The command's entry after the yield. -/
theorem givenBack_entry_same (he : s.entry e.id = some e) :
    (givenBack s e a time core).entry e.id = some ((e.charged core).returned a (e.itemsOf a)) := by
  have hcharged : (charge s e core).entry e.id = some (e.charged core) := by
    rw [charge_entry]
    exact State.entry_updEntry_same (f := (·.charged core)) (fun _ => rfl) he
  rw [givenBack_entry]
  exact State.entry_updEntry_same (f := (·.returned a (e.itemsOf a))) (fun _ => rfl) hcharged

theorem givenBack_entry_ne (k : Nat) (h : k ≠ e.id) : (givenBack s e a time core).entry k = s.entry k := by
  rw [givenBack_entry, State.entry_updEntry_ne (f := (·.returned a (e.itemsOf a))) _ (fun _ => rfl) h, charge_entry,
    State.entry_updEntry_ne (f := (·.charged core)) _ (fun _ => rfl) h]

/-- The count of the cores changes registers alone. -/
theorem yieldedState_eq : yieldedState s e a time core = (givenBack s e a time core).putRegs (yieldedState s e a time core).regs :=
  foldl_addF_eq 31 0 _ (givenBack s e a time core)

theorem gangOf_givenBack : gangOf (givenBack s e a time core) e = gangOf s e := by
  obtain ⟨-, -, hhol⟩ := givenBack_keeps s e a time core
  rw [gangOf, State.part, hhol, ← State.part, ← gangOf]

/-- Outside the counts of the array's cores the registers are as the booking left them. -/
theorem yieldedState_reg (off : Nat) (h : off ∉ (arrayCores (gangOf s e) a).map Reg.SEQ_CLAIM) :
    (yieldedState s e a time core).reg off = (bookYield (charge s e core) e a time).reg off := by
  rw [← gangOf_givenBack (time := time) (core := core)] at h
  rw [← givenBack_reg]
  exact foldl_addF_reg_ne 31 0 off _ _ h

/-- Each of the array's cores counts one abandoned item. -/
theorem yieldedState_abandoned (c : Nat) (h : c ∈ arrayCores (gangOf s e) a) :
    (yieldedState s e a time core).fldR (Reg.SEQ_CLAIM c) 31 0 = (s.fldR (Reg.SEQ_CLAIM c) 31 0 + 1) % 2 ^ 32 := by
  rw [← gangOf_givenBack (time := time) (core := core)] at h
  have hcount := foldl_addF_fldR (hi := 31) (lo := 0) (by decide) (by decide) _ (arrayCores_nodup _ a) (givenBack s e a time core) h
  have hbefore : (givenBack s e a time core).fldR (Reg.SEQ_CLAIM c) 31 0 = s.fldR (Reg.SEQ_CLAIM c) 31 0 := by
    rw [State.fldR, givenBack_reg, bookYield_reg_ne _ _ _ _ _ (CTX_PREEMPT_ne_SEQ_CLAIM c).symm, charge_reg, State.fldR]
  rw [hbefore] at hcount
  exact hcount

end

/-! ### The clauses of the statement -/

section
variable {s : State} {id : Nat} {e : Entry}

theorem tickFenceExpiry_completes (he : s.entry id = some e) (hd : e.done = false) (hop : e.pkt.op = opcTickFence) (hedges : e.edges = 0)
    (hall : ∀ x ∈ s.ringFlight e.ring, x.id < id → x.done = true) (hsh : e.pkt.sh = 0) :
    ∃ t, exec (.tickFenceExpiry id) s = .next t ∧ s.reports t e 0 ∧ t.entry id = some e.finished ∧
      (∀ k, k ≠ id → t.entry k = s.entry k) ∧ (∀ n, n ≠ e.ctx → t.ctx n = s.ctx n) ∧ s.sameRegs t [] ∧ s.sameMemory t := by
  have hexec := exec_tickFenceExpiry he hd hop hedges hall
  rw [finishControl_undrawn _ he (.inl hsh), complete_eq_of_nil he hd rfl] at hexec
  have hreport := finishWith_reports (s := s) (e := e) (c := { status := 0 }) (by decide)
  rw [statusOf_edgeBound s (by rw [hop]; decide)] at hreport
  exact ⟨_, hexec, hreport, finishWith_entry_same he, fun k hk => finishWith_entry_ne he k hk, fun n hn => finishWith_ctx_ne n hn,
    finishWith_sameRegs (by rw [hop]; decide), sameMemory_of_mem finishWith_mem⟩

theorem stateTransferComplete_completes (he : s.entry id = some e) (hd : e.done = false)
    (hop : e.pkt.op = opcPark ∨ e.pkt.op = opcResume) (htransfer : (s.ring e.ring).transfer = true)
    (hall : ∀ x ∈ s.ringFlight e.ring, x.done = true ∨ x = e) (hmem : e ∈ s.flight) :
    ∃ t, exec (.stateTransferComplete e.ring) s = .next t ∧ (t.ring e.ring).transfer = false ∧ s.reports t e 0 ∧
      (∀ r, r ≠ e.ring → t.ring r = s.ring r) ∧ s.sameRegs t [] ∧ s.sameMemory t := by
  have he1 : (setTransfer s e.ring false).entry e.id = some e := by rw [State.entry_id he]; exact he
  have hexec := exec_stateTransferComplete hd hop htransfer hall hmem
  rw [complete_eq_of_nil he1 hd rfl] at hexec
  have hbound : edgeBound e.pkt.op = true := decide_eq_true (.inr hop)
  have hcoll : e.pkt.op ≠ opcCollective := by rcases hop with h | h <;> rw [h] <;> decide
  have hreport := finishWith_reports (s := setTransfer s e.ring false) (e := e) (c := { status := 0 }) (by decide)
  rw [statusOf_edgeBound _ hbound] at hreport
  refine ⟨_, hexec, ?_, hreport.of_ctx rfl rfl, fun r hr => ?_, finishWith_sameRegs (s := setTransfer s e.ring false) hcoll,
    sameMemory_of_mem finishWith_mem⟩
  · rw [finishWith_ring, setTransfer, State.ring_setRing_same]
  · rw [finishWith_ring, setTransfer, State.ring_setRing_ne _ _ _ _ hr]

theorem holdLimitExpiry_completes (hruns : s.runs id e) {t0 : Nat} (hw : waitSince s e = some t0) (ht : t0 + s.holdLimit ≤ s.tickNum) :
    ∃ t, exec (.holdLimitExpiry id) s = .next t ∧ s.reports t e 1 ∧ (∀ k, k ≠ id → t.entry k = s.entry k) ∧
      (∀ n, n ≠ e.ctx → t.ctx n = s.ctx n) ∧ ((∀ r ∈ s.kv.reserved, r.1 ≠ id) → s.sameMemory t) := by
  have hexec := exec_holdLimitExpiry hruns hw ht
  obtain ⟨-, he, -, -⟩ := hruns
  obtain ⟨hctxs, hflight, hmem, hreserved⟩ := givenUp_keeps s e
  have he1 : (givenUp s e).entry id = some e := by rw [State.entry, hflight, ← State.entry, he]
  have hctx (n : Nat) : (givenUp s e).ctx n = s.ctx n := by rw [State.ctx, hctxs, State.ctx]
  have hreport : (givenUp s e).reports (finishWith (givenUp s e) e { status := 1, stage := holdStage e }) e 1 :=
    finishWith_reports (by simp)
  obtain ⟨hctxs', hflight'⟩ := releaseReserved_keeps (finishWith (givenUp s e) e { status := 1, stage := holdStage e }) id
  refine ⟨_, hexec, hreport.of_ctx (hctx e.ctx).symm ?_, fun k hk => ?_, fun n hn => ?_, fun hnone => ?_⟩
  · rw [State.ctx, hctxs', State.ctx]
  · rw [State.entry, hflight', ← State.entry, finishWith_entry_ne he1 k hk, State.entry, hflight, State.entry]
  · rw [State.ctx, hctxs', ← State.ctx, finishWith_ctx_ne n hn, hctx]
  · rw [releaseReserved_of_none (by rwa [finishWith_kv, hreserved])]
    exact sameMemory_of_mem (finishWith_mem.trans hmem)

end

section
variable {s : State} {e : Entry} {a time core : Nat}

/-- YIELDS of CTX_PREEMPT stands as it was booked. -/
theorem yieldedState_yields (h : a < 64) : (yieldedState s e a time core).fldR Reg.CTX_PREEMPT 63 32 =
    (s.fldR Reg.CTX_PREEMPT 63 32 + (arrayCores (gangOf s e) a).length) % 2 ^ 32 := by
  have hother : Reg.CTX_PREEMPT ∉ (arrayCores (gangOf s e) a).map Reg.SEQ_CLAIM := by
    simpa using fun c _ => (CTX_PREEMPT_ne_SEQ_CLAIM c).symm
  have hgang : gangOf (charge s e core) e = gangOf s e := by rw [gangOf, State.part, charge_hol, ← State.part, ← gangOf]
  rw [State.fldR, yieldedState_reg _ hother, ← State.fldR, bookYield_yields _ _ _ _ h, hgang, State.fldR, charge_reg, ← State.fldR]

theorem yieldedState_sameRegs :
    s.sameRegs (yieldedState s e a time core) (Reg.CTX_PREEMPT :: (arrayCores (gangOf s e) a).map Reg.SEQ_CLAIM) := fun off hoff => by
  obtain ⟨hpreempt, hclaims⟩ := not_or.mp (mt List.mem_cons.mpr hoff)
  rw [yieldedState_reg off hclaims, bookYield_reg_ne _ _ _ _ off hpreempt, charge_reg]

theorem yieldedState_used : ((yieldedState s e a time core).ctx e.ctx).used = (s.ctx e.ctx).used + core := by
  obtain ⟨hctxs, -, -⟩ := givenBack_keeps s e a time core
  rw [yieldedState_eq, ← charge_used, State.putRegs_ctx, State.ctx, hctxs, State.ctx]

theorem yieldedState_entry (k : Nat) : (yieldedState s e a time core).entry k = (givenBack s e a time core).entry k := by
  rw [yieldedState_eq, State.putRegs_entry]

theorem yieldedState_mem : (yieldedState s e a time core).mem = s.mem := by
  obtain ⟨-, hmem, -⟩ := givenBack_keeps s e a time core
  rw [yieldedState_eq]
  exact hmem

end

/-- Settles O30: each wait by its completion, the yield by what its parts write. -/
theorem waitsAndYields : Obligations.WaitsAndYields := by
  unfold Obligations.WaitsAndYields
  refine ⟨fun s id e hruns => ?_, fun s a time left core e ha hfind he hlimit => ?_⟩
  · have hhold := fun t0 => holdLimitExpiry_completes (t0 := t0) hruns
    obtain ⟨-, he, hd, -⟩ := hruns
    refine ⟨fun c op hc hop => ?_,
      fun hop hedges hall => ⟨tickFenceExpiry_completes he hd hop hedges hall, fun u hsh hu => ?_⟩,
      fun _ hedges => exec_tickFenceExpiry_waits he hedges, stateTransferComplete_completes he hd, hhold⟩
    · exact ⟨_, exec_marksBegun he hd hc hop, State.entry_updEntry_same (f := fun x => { x with begun := true }) (fun _ => rfl) he,
        fun k hk => State.entry_updEntry_ne (f := fun x => { x with begun := true }) s (fun _ => rfl) hk, rfl⟩
    · rw [exec_tickFenceExpiry he hd hop hedges hall, finishControl_drawn _ he hsh (by rw [hop]; decide) hu]
  · exact ⟨_, (e.charged core).returned a (e.itemsOf a), exec_coreYieldDone ha hfind hlimit,
      (yieldedState_entry e.id).trans (givenBack_entry_same he), Entry.returned_claims e a, rfl, rfl, rfl, yieldedState_used,
      yieldedState_yields ha, yieldedState_abandoned, fun k hk => (yieldedState_entry k).trans (givenBack_entry_ne k hk),
      yieldedState_sameRegs, sameMemory_of_mem yieldedState_mem⟩

end Sys2Proof.Machine

namespace Sys2Proof.Machine

/-! ### A STORE whose own reads change the capacity of its return ring -/

/-- A STORE whose payload its return ring can hold once the source has been read leaves its entry in the table, done. -/
theorem execStore_keepsEntry {s : State} {id : Nat} {e : Entry} {bs : List Byte} (hruns : s.runs id e) (hop : e.pkt.op = opcStore)
    (hn : e.pkt.count ≤ 262144) (hr : vread s e.ctx e.pkt.va e.pkt.count = .ok bs) (hsh : e.pkt.sh = 0)
    (he : (vtouch s e.ctx e.pkt.va e.pkt.count).entry id = some e)
    (hfit : packetEntries bs.length ≤ (vtouch s e.ctx e.pkt.va e.pkt.count).retCap e.ctx) :
    ∃ t, exec (.store id) s = .next t ∧ t.entry id = some e.finished := by
  obtain ⟨-, hentry, hdone, hpart⟩ := hruns
  have hready : s.ready? id opcStore = some e := by simp [State.ready?, hentry, hop, hdone, hpart]
  refine ⟨_, rfl, ?_⟩
  rw [hready]
  simp only [Nat.not_lt.mpr hn, if_false, hr]
  rw [finishControl_undrawn _ he (.inl hsh), complete_eq he hdone hfit]
  exact finishWith_entry_same he

/-- A context number, far above the 4,096 contexts, whose RING_RET_CFG would stand at 0xd00100, the offset of BLK_CACHE of partition 0. -/
def farCtx : Nat := 0x15B020

/-- A STORE of 1,024 bytes at address 0 of that context: a record of 17 entries. -/
def farStore : Entry :=
  { id := 7, ctx := farCtx, ring := 0, part := 0, pkt := ⟨[BitVec.ofNat 64 (opcStore * 2 ^ 56), 0, 0, 1024, 0], [], 0⟩, lc := true,
    admitTick := 0, held := none, begun := false, stage := 0, run := StageRun.idle, handover := [], srcPtrs := [], space := [],
    ret := [], under := false, sat := false, spills := 0, core := 0, seeded := true, paged := true, seed := 0, step0 := 0, edges := 0,
    detail := 0, recvd := [], stagedVals := [], stagedRaw := [], done := false }

/-- The part in RUN with that STORE in flight, its context's page table at 0x1_0000 and the count of cache hits at 2^27 - 1. -/
def farStoreRegs : State :=
  ((({ State.reset with
      flight := [farStore]
      hol := { State.reset.hol with cur := builtIn, verified := true }
      pwr := { State.reset.pwr with on := 2 ^ 30 - 1, ready := 2 ^ 30 - 1, volts := 4800 } }).setReg Reg.GLB_STATE
    (BitVec.ofNat 64 stRun)).setReg (Reg.CTX_PT_ROOT farCtx) 0x10000#64).setReg (Reg.BLK_CACHE 0)
    (BitVec.ofNat 64 ((2 ^ 27 - 1) * 2 ^ 32))

/-- The same with the page table, which maps the context's first GiB into the bulk tier, whose first line is cached. -/
def farStoreState : State :=
  let s := physWrite (physWrite farStoreRegs 0x10000 (leBytes 8 (2 ^ 63 + 0x20000)))
    0x20000 (leBytes 8 (2 ^ 63 + 2 ^ 62 + 2 ^ 61 + 0x4000000000))
  s.putMem { s.mem with cache := [⟨0x4000000000 / 512, 0, false, false, [], []⟩] }

/-- Before the STORE reads its source its return ring holds 16 entries. -/
theorem farStoreState_retCap : farStoreState.retCap farCtx = 16 := by decide +kernel

/-- The hit of its read counts in the field that gives the capacity. -/
theorem farStoreState_retCap_touched : (vtouch farStoreState farCtx 0 1024).retCap farCtx = 32 := by decide +kernel

theorem farStoreState_entry_touched : (vtouch farStoreState farCtx 0 1024).entry 7 = some farStore := by decide +kernel

theorem farStoreState_runs : farStoreState.runs 7 farStore := by
  unfold State.runs
  decide +kernel

/-- What a read gives, once its value is known. -/
theorem eq_ok_of_toOption {α : Type} {x : Except MErr α} {a : α} (h : x.toOption = some a) : x = .ok a := by
  cases x with
  | error _ => cases h
  | ok b => exact congrArg _ (Option.some.inj h)

theorem farStoreState_reads : vread farStoreState farCtx 0 1024 = .ok (List.replicate 1024 0) :=
  eq_ok_of_toOption (by decide +kernel)

/-- Refutes O38: no bound of the statement keeps the context's number below 4096. The STORE of context `farCtx` reads through the
cache; the count of its hit, BLK_CACHE of partition 0, is at the place of the context's RING_RET_CFG, and its carry doubles the
capacity of the return ring. The record, too long for the ring of the state before, then fits, and the entry is not freed. -/
theorem not_loadsAndStores : ¬ Obligations.LoadsAndStores := by
  unfold Obligations.LoadsAndStores
  intro h
  obtain ⟨-, hstore⟩ := h farStoreState 7 farStore farStoreState_runs
  obtain ⟨hread, -, -⟩ := hstore (by decide) (by decide)
  obtain ⟨-, hdropped⟩ := hread _ farStoreState_reads (by decide)
  obtain ⟨t, hexec, hfreed⟩ := hdropped (by
    change farStoreState.retCap farCtx < packetEntries 1024
    rw [farStoreState_retCap]
    decide)
  obtain ⟨u, hexec', hkept⟩ := execStore_keepsEntry farStoreState_runs (by decide) (by decide) farStoreState_reads (by decide)
    farStoreState_entry_touched (by
      change _ ≤ (vtouch farStoreState farCtx 0 1024).retCap farCtx
      rw [farStoreState_retCap_touched, List.length_replicate]
      decide)
  obtain rfl : t = u := by simpa using hexec.symm.trans hexec'
  simp [hfreed] at hkept

end Sys2Proof.Machine

namespace Sys2Proof.Machine

/-! ### Fetching a packet (O33) -/

/-- A byte stored is read back at its place. -/
theorem spGet_storeBytes_of_lt {cells : List (Nat × Byte)} {a j : Nat} (bs : List Byte) (h : j < a) :
    spGet 0 (storeBytes cells a bs) j = spGet 0 cells j := by
  induction bs generalizing cells a with
  | nil => rfl
  | cons b bs ih => rw [storeBytes, ih (by omega), spGet_spSet_ne _ _ _ _ _ _ (by omega)]

theorem spGet_storeBytes (cells : List (Nat × Byte)) (a : Nat) (bs : List Byte) {k : Nat} (hk : k < bs.length) :
    spGet 0 (storeBytes cells a bs) (a + k) = bs[k] := by
  induction bs generalizing cells a k with
  | nil => simp at hk
  | cons b bs ih =>
    rw [storeBytes]
    cases k with
    | zero => rw [spGet_storeBytes_of_lt bs (by omega), Nat.add_zero, spGet_spSet_same, List.getElem_cons_zero]
    | succ k =>
      rw [show a + (k + 1) = a + 1 + k by omega, ih _ _ (by simpa using hk), List.getElem_cons_succ]

theorem leBytes_length (n v : Nat) : (leBytes n v).length = n := by
  induction n generalizing v with
  | zero => rfl
  | succ n ih => rw [leBytes, List.length_cons, ih]

theorem leBytes_getElem (n v : Nat) {k : Nat} (hk : k < (leBytes n v).length) :
    (leBytes n v)[k] = BitVec.ofNat 8 (v / 256 ^ k) := by
  induction n generalizing v k with
  | zero => simp [leBytes] at hk
  | succ n ih =>
    cases k with
    | zero => simp [leBytes]
    | succ k => simp only [leBytes, List.getElem_cons_succ, ih, Nat.div_div_eq_div_mul, Nat.pow_succ']

/-- The header words lie in a packet's first 64 bytes. -/
theorem wordAt_take {bs : List Byte} {m i : Nat} (h : 8 * i + 8 ≤ m) : wordAt (bs.take m) i = wordAt bs i := by
  rw [wordAt, wordAt, List.drop_take, List.take_take, Nat.min_eq_left (by omega)]

theorem headerOf_take (bs : List Byte) : headerOf (bs.take 64) = (List.range 8).map (wordAt bs) :=
  List.map_congr_left fun i hi => wordAt_take (by have := List.mem_range.mp hi; omega)

theorem len_le_packetEntries (len : Nat) : 64 + len ≤ 64 * packetEntries len := by
  rw [packetEntries, ceilDiv, if_neg (by decide)]
  omega

section
variable {s : State} {n r : Nat} {host : List Byte}

/-- Entries of a ring in host memory that came are the bytes that came. -/
theorem ringBytes_host {g : Ring} {k : Nat} (hw : fld g.w0 0 0 = 0) (hlen : 64 * k ≤ host.length) :
    ringBytes s n g host k = .ok (host.take (64 * k)) := by
  rw [ringBytes, if_pos hw, Nat.sub_eq_zero_of_le hlen]
  simp [zeros]

/-- The packet at the head of ring r, by the entries that came. -/
def State.packetAt (s : State) (r : Nat) (host : List Byte) : Packet :=
  ⟨(List.range 8).map (wordAt host), (host.drop 64).take (fld (wordAt host 0) 18 0), (s.ring r).head⟩

/-- What is found at the head of a ring in host memory, when the packet's entries came whole. -/
theorem headPacket_host (hw : fld (s.ring r).w0 0 0 = 0)
    (hlen : 64 * packetEntries (fld (wordAt host 0) 18 0) ≤ host.length) :
    s.headPacket n r host =
      if s.barsCompute r ∧ isCompute (fld (wordAt host 0) 63 56) then .stays 1
      else if (s.ring r).avail < packetEntries (fld (wordAt host 0) 18 0) ∧
          packetEntries (fld (wordAt host 0) 18 0) ≤ (s.ring r).cap then .stays 2
      else .packet (s.packetAt r host) (packetEntries (fld (wordAt host 0) 18 0)) := by
  have hcover := len_le_packetEntries (fld (wordAt host 0) 18 0)
  have hpay : ((host.take (64 * packetEntries (fld (wordAt host 0) 18 0))).drop 64).take (fld (wordAt host 0) 18 0) =
      (host.drop 64).take (fld (wordAt host 0) 18 0) := by
    rw [List.drop_take, List.take_take, Nat.min_eq_left (by omega)]
  have hfirst : ringBytes s n (s.ring r) host 1 = .ok (host.take 64) := ringBytes_host hw (by omega)
  have hw0 : (⟨(List.range 8).map (wordAt host), [], (s.ring r).head⟩ : Packet).w 0 = wordAt host 0 := rfl
  unfold State.headPacket
  simp only [hfirst, headerOf_take, hw0, Packet.op, ringBytes_host hw hlen, hpay]
  rfl

/-- PACKET_FETCH of the ring whose turn it is fetches from it. -/
theorem exec_packetFetch (hlive : s.live = true) (hdown : s.fldR Reg.PWR_STAT 58 58 = 0) (hctx : s.ctxOfRing r = some n)
    (hturn : s.turnOf (s.ctxPart n) = some r) : exec (.packetFetch r host) s = .next (fetchPacket s n r host) := by
  change execPacketFetch r host s = _
  simp [execPacketFetch, hctx, hlive, hdown, hturn]

/-- What leaves the part when the head index of ring r is written back to host memory. -/
def State.headSent (s : State) (r : Nat) : Output :=
  if fld (s.ring r).w2 63 6 = 0 then s.out
  else { s.out with hostMem := Machine.storeBytes s.out.hostMem (fld (s.ring r).w2 63 6 * 64) (leBytes 8 (s.ring r).head) }

theorem headWriteBack_host (h : fld (s.ring r).w2 0 0 = 0) : headWriteBack s n r = s.putOut (s.headSent r) := by
  unfold headWriteBack State.headSent
  by_cases ha : fld (s.ring r).w2 63 6 = 0
  · simp [ha, State.putOut]
  · simp [ha, h, hostWrite]

/-- A head index written back to a host address stands there. -/
theorem headSent_hostMem (h : fld (s.ring r).w2 63 6 ≠ 0) {k : Nat} (hk : k < 8) :
    spGet 0 (s.headSent r).hostMem (fld (s.ring r).w2 63 6 * 64 + k) = BitVec.ofNat 8 ((s.ring r).head / 256 ^ k) := by
  have hk' : k < (leBytes 8 (s.ring r).head).length := by rwa [leBytes_length]
  rw [State.headSent, if_neg h, spGet_storeBytes _ _ _ hk', leBytes_getElem]

end

/-- Settles O33: what the fetcher finds at the head decides whether the packet stays or is taken, and the write-back of a ring with a
host address touches only the memory of the host. -/
theorem packetsFetched : Obligations.PacketsFetched := by
  unfold Obligations.PacketsFetched
  intro s r n host hlive hdown hctx hturn hw len bars hlen hback
  have hfound := headPacket_host (n := n) hw hlen
  rw [exec_packetFetch hlive hdown hctx hturn, fetchPacket]
  refine ⟨fun hbars => ?_, fun hbars hav hcap => ?_, fun hbars hfit => ?_⟩
  · rw [hfound, if_pos (by simpa [bars] using hbars)]
  · rw [hfound, if_neg (by simpa [bars] using hbars), if_pos ⟨hav, hcap⟩]
  · rw [hfound, if_neg (by simpa [bars] using hbars), if_neg (by dsimp only [len] at hfit; omega)]
    simp only [touchEntries, if_pos hw]
    rw [headWriteBack_host (by simpa using hback)]
    refine ⟨_, rfl, ?_, fun k hk => ?_, rfl, fun ha => ?_, fun ha k hk => ?_⟩
    · exact State.ring_setRing_same ..
    · exact State.ring_setRing_ne _ _ _ _ hk
    · simp [State.headSent, ha, serveTurn]
    · have hsent := headSent_hostMem (s := (serveTurn s n r).setRing r { s.ring r with
        fetched := some (s.packetAt r host), stall := 0
        head := ((s.ring r).head + packetEntries (fld (wordAt host 0) 18 0)) % 2 ^ 32 }) (r := r) (by simpa using ha) hk
      simpa using hsent

end Sys2Proof.Machine

namespace Sys2Proof.Machine

/-! ### An EVENT whose own read moves its page table (O39) -/

/-- A context number, far above the 4,096 contexts, whose CTX_PT_ROOT would stand at 0xd00110, the offset of BLK_CACHE of partition 2. -/
def farRoot : Nat := 0x20004

/-- An EVENT of that context: it adds 1 to the counter at address 0. -/
def farEvent : Entry :=
  { farStore with ctx := farRoot, part := 2, pkt := ⟨[BitVec.ofNat 64 (opcEvent * 2 ^ 56), 0, 0, 1, 0], [], 0⟩ }

/-- The part in RUN with that EVENT in flight: partition 2, the context's, owns all memory, and BLK_CACHE of partition 2 has counted no
hit. -/
def farEventRegs : State :=
  (({ State.reset with
      flight := [farEvent]
      ctxs := [(farRoot, { Ctx.free with part := 2 })]
      hol := { State.reset.hol with cur := { builtIn with parts := [noPart, noPart, builtIn.part 0] }, verified := true }
      pwr := { State.reset.pwr with on := 2 ^ 30 - 1, ready := 2 ^ 30 - 1, volts := 4800 } }).setReg Reg.GLB_STATE
    (BitVec.ofNat 64 stRun)).setReg (Reg.BLK_CACHE 2) 0x10000#64

/-- The same with a page table at 0x1_0000, where the context's root stands, that maps its first GiB into the bulk tier, whose first
line is cached. -/
def farEventState : State :=
  let s := physWrite (physWrite farEventRegs 0x10000 (leBytes 8 (2 ^ 63 + 0x20000)))
    0x20000 (leBytes 8 (2 ^ 63 + 2 ^ 62 + 2 ^ 61 + 0x4000000000))
  s.putMem { s.mem with cache := [⟨0x4000000000 / 512, 0, false, false, [], []⟩] }

theorem farEventState_runs : farEventState.runs 7 farEvent := by
  unfold State.runs
  decide +kernel

theorem farEventState_still : farEventState.mem.still := by
  unfold Mem.still
  decide +kernel

theorem farEventState_reads : vread64 farEventState farRoot 0 = .ok 0 := eq_ok_of_toOption (by decide +kernel)

theorem farEventState_canStore : farEventState.canStore farRoot 0 8 := by
  unfold State.canStore
  decide +kernel

theorem farEventState_waitersOn : farEventState.waitersOn farRoot 0 = [] := by decide +kernel

/-- The statuses of the records that wait in context n after a step. -/
def statusesAfter (c : Instr) (s : State) (n : Nat) : List Nat := match exec c s with
  | .next t => (t.ctx n).recs.map fun r => fld (r.words.getD 0 0) 55 48
  | _ => []

theorem statusesAfter_of_reports {c : Instr} {s t : State} {e : Entry} {status : Nat} (hexec : exec c s = .next t)
    (hr : s.reports t e status) : status ∈ statusesAfter c s e.ctx := by
  obtain ⟨r, hrecs, -, hst, -⟩ := hr
  subst hst
  simp [statusesAfter, hexec, hrecs]

/-- The hit of the EVENT's read counts in the root of its context's page table: its write no longer finds the counter. -/
theorem farEventState_statuses : statusesAfter (.event 7) farEventState farRoot = [2] := by decide +kernel

/-- Refutes O39: no bound of the statement keeps the context's number below 4096. The EVENT of context `farRoot` reads its counter
through the cache; the count of its hit, BLK_CACHE of partition 2, is at the place of the context's CTX_PT_ROOT, so that the write
that follows meets another page table, and the command reports TRANSLATION_FAULT. -/
theorem not_controlCommands : ¬ Obligations.ControlCommands := by
  unfold Obligations.ControlCommands
  intro h
  obtain ⟨hevent, -, -⟩ := h farEventState 7 farEvent farEventState_runs farEventState_still
  obtain ⟨t, hexec, hreports, -⟩ := hevent 0 (by decide) (by decide) farEventState_reads farEventState_canStore farEventState_waitersOn
  have hstatus : farEventState.okStatus farEvent ∈ statusesAfter (.event 7) farEventState farRoot :=
    statusesAfter_of_reports hexec hreports
  rw [farEventState_statuses] at hstatus
  exact absurd hstatus (by decide +kernel)

end Sys2Proof.Machine

namespace Sys2Proof.Machine

/-! ### A record larger than its return ring, of a context that may not write (O52) -/

section
variable {s : State} {sc : Scope}

/-- An unpredictable outcome with no context in its scope only draws its free values. -/
theorem unpredictable_of_outOfScope (h : ∀ n, s.inScope sc n = false) : unpredictable s sc = s.putFree (s.free + 1) := by
  have hscope : ∀ n, (s.putFree (s.free + 1)).inScope sc n = false := h
  have hwrites : ∀ l : List (Nat × Nat × Byte),
      l.foldl (fun s w => unpredWrite s sc w) (s.putFree (s.free + 1)) = s.putFree (s.free + 1) := by
    intro l
    induction l with
    | nil => rfl
    | cons w l ih => rw [List.foldl_cons, unpredWrite, if_neg (by simp [hscope]), ih]
  have htorn : (Config.unpredTear s.free).filter ((s.putFree (s.free + 1)).inScope sc) = [] := by simp [hscope]
  unfold unpredictable
  simp only [hwrites, htorn, List.foldl_nil, if_true]

/-- A context that is not OPEN is in no scope of its own. -/
theorem inScope_ctx_of_not_open {n : Nat} (h : s.ctxState n ≠ 1) (m : Nat) : s.inScope (.ctx n) m = false := by
  by_cases hm : m = n
  · simp [State.inScope, hm, h]
  · simp [State.inScope, hm]

theorem entry_dropEntry (s : State) (id : Nat) : (s.dropEntry id).entry id = none := by
  simp [State.dropEntry, State.entry]

/-- Where no ring is open and the context is not closing, a record written or dropped only frees its entry. -/
theorem afterRecord_of_noRings {n : Nat} {r : Record} (hrings : s.rings = []) (hclosing : (s.ctx n).closing = false)
    (htear : r.tear = none) : afterRecord s n r = s.dropEntry r.entry := by
  have hring : (s.dropEntry r.entry).ring r.ring = Ring.closed := by
    rw [State.ring]; simp [State.dropEntry, hrings]
  have hsettle : settleRing (s.dropEntry r.entry) r.ring = s.dropEntry r.entry := by
    rw [settleRing, hring, if_neg (by simp [Ring.closed])]
  unfold afterRecord
  rw [htear]
  simp only [hsettle]
  rw [settleCtx, if_neg (by intro h; simp [State.dropEntry, hclosing] at h)]

/-- A completion whose record its return ring can never hold (R104). -/
theorem complete_eq_dropRecord {id : Nat} {e : Entry} {c : Completion} (he : s.entry id = some e) (hd : e.done = false)
    (hover : s.retCap e.ctx < packetEntries c.payload.length) :
    complete s id c = dropRecord (finishEntry s e c.time) e.ctx (recordOf s e c) := by
  have hover' : s.oversized e.ctx (recordOf s e c) = true := decide_eq_true hover
  unfold complete
  rw [he]
  simp only [hd, hover', Bool.false_eq_true, if_false, if_true]
  rw [← State.entry_id he]
  rfl

/-- Its entry is gone at once, also where the context may not write. -/
theorem complete_entry_of_oversized {id : Nat} {e : Entry} {c : Completion} (he : s.entry id = some e) (hd : e.done = false)
    (hover : s.retCap e.ctx < packetEntries c.payload.length) (hctx : s.ctxState e.ctx ≠ 1) (hrings : s.rings = [])
    (hclosing : (s.ctx e.ctx).closing = false) (htear : c.tear = none) : (complete s id c).entry id = none := by
  have hfctx : (finishEntry s e c.time).ctx e.ctx = s.ctx e.ctx := by rw [State.ctx, finishEntry_ctxs, State.ctx]
  have hopen : (finishEntry s e c.time).ctxState e.ctx ≠ 1 := by rwa [State.ctxState, hfctx, ← State.ctxState]
  have hid : (recordOf s e c).entry = id := State.entry_id he
  rw [complete_eq_dropRecord he hd hover, dropRecord, unpredictable_of_outOfScope (inScope_ctx_of_not_open hopen),
    afterRecord_of_noRings (by simpa using hrings) (by simpa [hfctx] using hclosing) htear, hid, entry_dropEntry]

end

section
variable {s v : State} {e : Entry}

/-- The end of an RNG_FILL stage, CATEGORICAL apart, does nothing beside its items. -/
theorem stageFinish_rngFill {k : Key} (hop : e.desc.op = opcRngFill) (hdist : e.desc.rfDist ≠ 5) (hkey : keyOf s e = .ok k)
    (he : s.entry e.id = some e) (hfeeds : e.run.feeds = []) : stageFinish s e = (s, none) := by
  have hwork : stageWork s e e.desc = .ok (.rng (rfItems e e.desc)) := by
    rw [stageWork, if_neg (by rw [hop]; decide), if_neg (by rw [hop]; decide), if_pos hop]
  have hretain : retainStage s e = s := by unfold retainStage; split <;> simp [hfeeds, dedup]
  have hstats : statsAddr e e.desc = 0 := by
    simp [statsAddr, hop]
  simp [stageFinish, hkey, hwork, both, got, rfFinish, hdist, M.next, he, hretain, hstats]

/-- The state with the entry's stage ended and the next one due. -/
def stageEnded (s : State) (e : Entry) : State := s.updEntry e.id fun x => { x with
  stage := x.stage + 1
  held := none
  run := { StageRun.idle with welt := x.run.welt }
  handover := if e.desc.outDst = 1 then e.run.outBuf else []
  srcPtrs := x.run.ptrs
  space := x.space.filter fun y => decide ((y.kind = .handover ∨ y.kind = .halo) ∧ y.key = e.stage)
  ret := if e.desc.outDst = 2 then x.ret ++ e.run.outBuf else x.ret }

/-- The completion of a command after its last stage: its return payload ends with what the stage hands to it. -/
def Entry.lastCompletion (e : Entry) (time : Option Nat) : Completion :=
  { status := 0, payload := if e.desc.outDst = 2 then e.ret ++ e.run.outBuf else e.ret, time := time }

/-- After the last stage the command completes in the state in which its draws have advanced. -/
theorem stageNext_last {time : Option Nat} (hop : e.desc.op ≠ opcAttn) (hlast : e.pkt.stages ≤ e.stage + 1)
    (hdraws : advanceDraws (stageEnded s e) e.ctx (drawHandles e) = (v, none)) :
    stageNext s e time = (releaseReserved (complete v e.id (e.lastCompletion time)) e.id, none) := by
  have htrim : trimReserve s e e.desc = s := if_pos (.inl hop)
  unfold stageEnded at hdraws
  unfold stageNext
  simp only [htrim, Nat.not_lt.mpr hlast, if_false, hdraws, M.next, Option.isSome_none, Bool.false_eq_true]
  rfl

end

/-- An RNG_FILL of that context whose one stage has no element: it hands 1,024 bytes to the return payload and advances the draw of
state handle 1. -/
def farFill : Entry :=
  { farStore with
    pkt := ⟨[BitVec.ofNat 64 (opcRngFill * 2 ^ 56 + 2 ^ 52), 0, 1, 0, 0],
      natBytes [opcRngFill * 2 ^ 56 + 2 * 2 ^ 44, 0, 0, 0, 0, 0, 0, 0], 0⟩
    run := { StageRun.idle with started := true, outBuf := List.replicate 1024 0 } }

/-- The part with that stage in progress and the count of cache hits at 2^31 - 1. -/
def farFillState : State :=
  (farStoreState.putFlight [farFill]).setReg (Reg.BLK_CACHE 0) (BitVec.ofNat 64 ((2 ^ 31 - 1) * 2 ^ 32))

/-- The state in which that command completes: its draw has advanced, through the cache. -/
def farFillDrawn : State := (advanceDraws (stageEnded farFillState farFill) farCtx [1]).1

/-- The command as it then is. -/
def farFillEnded : Entry := { farFill with stage := 1, run := StageRun.idle, ret := List.replicate 1024 0 }

theorem farFillState_runs : farFillState.runs 7 farFill := by
  unfold State.runs
  decide +kernel

theorem farFillState_finish : stageFinish farFillState farFill = (farFillState, none) :=
  stageFinish_rngFill (by decide +kernel) (by decide +kernel) (eq_ok_of_toOption (a := ⟨0, 1, 0, 0⟩) (by decide +kernel))
    (by decide +kernel) rfl

theorem farFillDrawn_spec : farFillDrawn.entry 7 = some farFillEnded ∧ farFillDrawn.retCap farCtx = 16 ∧
    farFillDrawn.ctxState farCtx ≠ 1 ∧ farFillDrawn.rings = [] ∧ (farFillDrawn.ctx farCtx).closing = false := by decide +kernel

theorem farFillState_drawn : advanceDraws (stageEnded farFillState farFill) farCtx (drawHandles farFill) = (farFillDrawn, none) :=
  Prod.ext rfl (by decide +kernel)

/-- The record does not fit the return ring as it has become, so that no entry is left. -/
theorem farFillDrawn_completed :
    (releaseReserved (complete farFillDrawn 7 (farFill.lastCompletion (some 0))) 7).entry 7 = none := by
  obtain ⟨he, hcap, hctx, hrings, hclosing⟩ := farFillDrawn_spec
  obtain ⟨-, hflight⟩ := releaseReserved_keeps (complete farFillDrawn 7 (farFill.lastCompletion (some 0))) 7
  have hover : farFillDrawn.retCap farCtx < packetEntries (farFill.lastCompletion (some 0)).payload.length := by
    rw [hcap]
    decide +kernel
  rw [State.entry, hflight, ← State.entry]
  exact complete_entry_of_oversized he rfl hover hctx hrings hclosing rfl

/-- Refutes O52: no bound of the statement keeps the context's number below 4096. When the draw of context `farCtx` advances, the reads
and writes of its key table go through the cache; the count of their hits, BLK_CACHE of partition 0, is at the place of the context's
RING_RET_CFG and overflows its capacity field from 15 to 0. The record, which fits the ring of the state before, no longer does, and
the command's entry is freed at once. -/
theorem not_stageCompletes : ¬ Obligations.StageCompletes := by
  unfold Obligations.StageCompletes
  intro h
  obtain ⟨-, hdone⟩ := h farFillState 7 0 farFill farFillState_runs rfl
  obtain ⟨-, -, hlast⟩ := hdone farFillState farFill _ (by decide +kernel) farFillState_finish (by decide +kernel)
    (stageNext_last (by decide +kernel) (by decide +kernel) farFillState_drawn)
  obtain ⟨-, ⟨x, hx, -⟩, -⟩ := hlast (by decide +kernel) (by decide +kernel)
  exact absurd (farFillDrawn_completed.symm.trans hx) nofun

end Sys2Proof.Machine

namespace Sys2Proof.Machine

/-! ### What an act of a started stage changes

An act on a command's stage changes that command alone, but for the packets of others that wait for a credit of the welt exchange
(R163). `State.worked id loose` says so, and what of the command it leaves: with `loose` false, its partials, sums, sweeps and seams
stand too. -/

/-- What no act within a stage changes of a command, but the claims, items and adds that its own end books. -/
def Entry.gist (e : Entry) : (Nat × Nat × Packet × Nat × Bool) × List Claim × List Claim × List Nat :=
  ((e.id, e.ctx, e.pkt, e.core, e.done), e.run.claims, e.run.done, e.run.adds)

/-- A command's partials, sums, sweeps and seams. -/
def Entry.sums (e : Entry) : List Partial × List Partial × List (Nat × Nat × Nat) × List Seam :=
  (e.run.parts, e.run.red, e.run.sweeps, e.run.seams)

/-- A command whose stage has gone on. -/
structure Entry.worked (loose : Bool) (x y : Entry) : Prop where
  gist : y.gist = x.gist
  commits : x.run.commits ⊆ y.run.commits
  sums : loose = false → y.sums = x.sums

/-- Another command: it may have sent a packet that waited. -/
structure Entry.pumped (x y : Entry) : Prop where
  id : y.id = x.id
  sent : (∀ q ∈ x.run.welt, q.sent = true) → y = x

/-- A command while the stage of command `id` goes on. -/
def Entry.moved (id : Nat) (loose : Bool) (x y : Entry) : Prop :=
  (x.id = id → Entry.worked loose x y) ∧ (x.id ≠ id → Entry.pumped x y)

/-- One command's stage has gone on. -/
structure State.worked (id : Nat) (loose : Bool) (s t : State) : Prop where
  ctxs : t.ctxs = s.ctxs
  rings : t.rings = s.rings
  hol : t.hol = s.hol
  flight : List.Forall₂ (Entry.moved id loose) s.flight t.flight

section
variable {loose : Bool} {x y z : Entry}

theorem Entry.worked.refl (loose : Bool) (x : Entry) : Entry.worked loose x x := ⟨rfl, fun _ h => h, fun _ => rfl⟩

theorem Entry.worked.trans (h : Entry.worked loose x y) (h' : Entry.worked loose y z) : Entry.worked loose x z :=
  ⟨h'.gist.trans h.gist, fun _ hc => h'.commits (h.commits hc), fun hl => (h'.sums hl).trans (h.sums hl)⟩

theorem Entry.worked.id (h : Entry.worked loose x y) : y.id = x.id := congrArg (·.1.1) h.gist
theorem Entry.worked.ctx (h : Entry.worked loose x y) : y.ctx = x.ctx := congrArg (·.1.2.1) h.gist
theorem Entry.worked.pkt (h : Entry.worked loose x y) : y.pkt = x.pkt := congrArg (·.1.2.2.1) h.gist
theorem Entry.worked.core (h : Entry.worked loose x y) : y.core = x.core := congrArg (·.1.2.2.2.1) h.gist
theorem Entry.worked.done (h : Entry.worked loose x y) : y.done = x.done := congrArg (·.1.2.2.2.2) h.gist
theorem Entry.worked.claims (h : Entry.worked loose x y) : y.run.claims = x.run.claims := congrArg (·.2.1) h.gist
theorem Entry.worked.items (h : Entry.worked loose x y) : y.run.done = x.run.done := congrArg (·.2.2.1) h.gist
theorem Entry.worked.adds (h : Entry.worked loose x y) : y.run.adds = x.run.adds := congrArg (·.2.2.2) h.gist
theorem Entry.worked.parts (h : Entry.worked false x y) : y.run.parts = x.run.parts := congrArg (·.1) (h.sums rfl)
theorem Entry.worked.red (h : Entry.worked false x y) : y.run.red = x.run.red := congrArg (·.2.1) (h.sums rfl)
theorem Entry.worked.sweeps (h : Entry.worked false x y) : y.run.sweeps = x.run.sweeps := congrArg (·.2.2.1) (h.sums rfl)
theorem Entry.worked.seams (h : Entry.worked false x y) : y.run.seams = x.run.seams := congrArg (·.2.2.2) (h.sums rfl)

theorem Entry.pumped.refl (x : Entry) : Entry.pumped x x := ⟨rfl, fun _ => rfl⟩

theorem Entry.pumped.trans (h : Entry.pumped x y) (h' : Entry.pumped y z) : Entry.pumped x z := by
  refine ⟨h'.id.trans h.id, fun hs => ?_⟩
  obtain rfl := h.sent hs
  exact h'.sent hs

end

section
variable {id : Nat} {loose : Bool} {x y z : Entry}

theorem Entry.moved.refl (id : Nat) (loose : Bool) (x : Entry) : Entry.moved id loose x x := ⟨fun _ => .refl loose x, fun _ => .refl x⟩

theorem Entry.moved.id_eq (h : Entry.moved id loose x y) : y.id = x.id := by
  by_cases hid : x.id = id
  · exact (h.1 hid).id
  · exact (h.2 hid).id

theorem Entry.moved.trans (h : Entry.moved id loose x y) (h' : Entry.moved id loose y z) : Entry.moved id loose x z :=
  ⟨fun hid => (h.1 hid).trans (h'.1 (h.id_eq.trans hid)), fun hid => (h.2 hid).trans (h'.2 (by rwa [h.id_eq]))⟩

theorem forall₂_moved_trans {l m n : List Entry} (h : List.Forall₂ (Entry.moved id loose) l m)
    (h' : List.Forall₂ (Entry.moved id loose) m n) : List.Forall₂ (Entry.moved id loose) l n := by
  induction h generalizing n with
  | nil => exact h'
  | cons hxy _ ih => cases h' with
    | cons hyz htl => exact .cons (hxy.trans hyz) (ih htl)

end

/-! ### The relation on states -/

namespace State.worked
variable {id : Nat} {loose : Bool} {s t u : State} {m : M} {α : Type}

theorem of_flight (hc : t.ctxs = s.ctxs) (hr : t.rings = s.rings) (hh : t.hol = s.hol) (hf : t.flight = s.flight) :
    s.worked id loose t :=
  ⟨hc, hr, hh, by rw [hf]; exact List.forall₂_same.mpr fun x _ => .refl id loose x⟩

/-- What changes none of contexts, rings, structure and commands. -/
theorem same (hc : t.ctxs = s.ctxs := by rfl) (hr : t.rings = s.rings := by rfl) (hh : t.hol = s.hol := by rfl)
    (hf : t.flight = s.flight := by rfl) : s.worked id loose t := of_flight hc hr hh hf

theorem refl (s : State) : s.worked id loose s := same

theorem of_keepsWork (h : s.keepsWork t) : s.worked id loose t := of_flight h.ctxs h.rings h.hol h.flight

theorem trans (h : s.worked id loose t) (h' : t.worked id loose u) : s.worked id loose u :=
  ⟨h'.ctxs.trans h.ctxs, h'.rings.trans h.rings, h'.hol.trans h.hol, forall₂_moved_trans h.flight h'.flight⟩

theorem ite {p : Prop} [Decidable p] (h : s.worked id loose t) (h' : s.worked id loose u) :
    s.worked id loose (if p then t else u) := by
  split
  · exact h
  · exact h'

theorem thenIf {p : Prop} [Decidable p] (h : s.worked id loose t) (h' : t.worked id loose u) :
    s.worked id loose (if p then u else t) := ite (h.trans h') h

theorem foldl {f : State → α → State} (hf : ∀ u a, State.worked id loose u (f u a)) (s : State) (l : List α) :
    s.worked id loose (l.foldl f s) := by
  induction l generalizing s with
  | nil => exact refl s
  | cons a l ih => exact (hf s a).trans (ih _)

/-- A change of one command, this one or another. -/
theorem updAny {k : Nat} {f : Entry → Entry} (hf : ∀ x, Entry.moved id loose x (f x)) (s : State) :
    s.worked id loose (s.updEntry k f) := by
  refine ⟨rfl, rfl, rfl, ?_⟩
  rw [State.updEntry_flight, List.forall₂_map_right_iff]
  refine List.forall₂_same.mpr fun x _ => ?_
  split
  · exact hf x
  · exact .refl id loose x

/-- A change of the one command. -/
theorem upd {f : Entry → Entry} (hf : ∀ x, Entry.worked loose x (f x)) (s : State) : s.worked id loose (s.updEntry id f) := by
  refine ⟨rfl, rfl, rfl, ?_⟩
  rw [State.updEntry_flight, List.forall₂_map_right_iff]
  refine List.forall₂_same.mpr fun x _ => ?_
  split
  next h => exact ⟨fun _ => hf x, fun h' => absurd h h'⟩
  next => exact .refl id loose x

/-- A change of the one command in nothing that the relation speaks of. -/
theorem updSame {f : Entry → Entry} (s : State) (hg : ∀ x, (f x).gist = x.gist := by exact fun _ => rfl)
    (hc : ∀ x, (f x).run.commits = x.run.commits := by exact fun _ => rfl)
    (hs : ∀ x, (f x).sums = x.sums := by exact fun _ => rfl) : s.worked id loose (s.updEntry id f) :=
  upd (fun x => ⟨hg x, fun _ h => by rwa [hc x], fun _ => hs x⟩) s

/-- A block is committed (R154). -/
theorem addCommit (s : State) (b : Nat) : s.worked id loose (updRun s id fun r => { r with commits := r.commits ++ [b] }) := by
  unfold updRun
  refine upd (fun x => ?_) s
  exact ⟨rfl, List.subset_append_left _ _, fun _ => rfl⟩

/-- A partial joins those that wait (R156). -/
theorem addPart (s : State) (pt : Partial) : s.worked id true (updRun s id fun r => { r with parts := r.parts ++ [pt] }) := by
  unfold updRun
  refine upd (fun x => ?_) s
  exact ⟨rfl, fun _ h => h, fun h => absurd h (by decide)⟩

/-! ### Acts that may fail -/

theorem next {f : State → M} (hm : s.worked id loose m.1) (hf : ∀ u, State.worked id loose u (f u).1) :
    s.worked id loose (m.next f).1 := by
  unfold M.next
  split
  · exact hm
  · exact hm.trans (hf _)

theorem foldM {f : State → α → M} (hf : ∀ u a, State.worked id loose u (f u a).1) (s : State) (l : List α) :
    s.worked id loose (foldM f s l).1 := by
  unfold Machine.foldM
  refine List.foldlRecOn (motive := fun m : M => s.worked id loose m.1) l _ (refl s) fun m hm a _ => hm.next fun u => hf u a

theorem vtouch (s : State) (c va n : Nat) : s.worked id loose (vtouch s c va n) := by
  refine foldl (fun u pc => ?_) s _
  split
  · exact of_keepsWork (.ite (keepsWork_walked u c pc.1) ((keepsWork_walked u c pc.1).trans (keepsWork_readPhys _ _ _ _ _)))
  · exact of_keepsWork (keepsWork_walked u c pc.1)

theorem noteErr (s : State) (c : Nat) (x : MErr) : s.worked id loose (noteErr s c x) := by
  unfold Machine.noteErr
  split
  · exact of_keepsWork (keepsWork_walked s c _)
  · exact vtouch s c _ 1
  · exact refl s

theorem got {c : Nat} {r : Except MErr α} {f : α → M} (hf : ∀ a, s.worked id loose (f a).1) : s.worked id loose (got s c r f).1 := by
  unfold Machine.got
  cases r with
  | error x => exact noteErr s c x
  | ok a => exact hf a

theorem reading {c va n : Nat} {r : Except MErr α} {f : State → α → M} (hf : ∀ u a, State.worked id loose u (f u a).1) :
    s.worked id loose (reading s c va n r f).1 := by
  unfold Machine.reading
  cases r with
  | error x => exact noteErr s c x
  | ok a => exact (vtouch s c va n).trans (hf _ a)

theorem vwrite (s : State) (c va : Nat) (bs : List Byte) : s.worked id loose (vwrite s c va bs).1 := of_keepsWork (keepsWork_vwrite s c va bs)

theorem touchAll (s : State) (c : Nat) (rs : List (Nat × Nat)) : s.worked id loose (touchAll s c rs) :=
  foldl (fun u r => vtouch u c r.1 r.2) s rs

/-! ### Flags, counts and statistics (R134, R135) -/

theorem addF (s : State) (off hi lo n : Nat) : s.worked id loose (s.addF off hi lo n) := same

theorem orReg (s : State) (off n : Nat) : s.worked id loose (s.orReg off n) := same

theorem tally (s : State) (k n : Nat) : s.worked id loose (tally s k n) := of_keepsWork (keepsWork_tally s k n)

theorem tallyMax (s : State) (k n : Nat) : s.worked id loose (tallyMax s k n) := ite (refl s) same

theorem raiseRecord (s : State) (sat under : Bool) : s.worked id loose (raiseRecord s id sat under) := updSame s

theorem raiseArr (s : State) (core fl : Nat) : s.worked id loose (raiseArr s id core fl) :=
  ite (refl s) (.trans (orReg s _ fl) (raiseRecord _ _ _))

theorem raiseCores (s : State) (a : Nat) (fl : List (Nat × Nat)) : s.worked id loose (raiseCores s id a fl) :=
  foldl (fun u x => raiseArr u (a + x.1) x.2) s fl

theorem raiseAwl (s : State) (fl : Nat) : s.worked id loose (raiseAwl s id fl) :=
  ite (refl s) (.trans (orReg s _ _) (raiseRecord _ _ _))

theorem drewBlocks (s : State) (core n : Nat) : s.worked id loose (drewBlocks s core n) := ite (refl s) same

theorem drewRow (s : State) (p : Prod) (a r c0 : Nat) (cols : List Nat) : s.worked id loose (drewRow s p a r c0 cols) :=
  foldl (fun u _ => drewBlocks u _ _) s _

theorem drewPass (s : State) (p : Prod) (a : Nat) (q : Pass) (n : Nat) : s.worked id loose (drewPass s p a q n) :=
  ite (refl s) (foldl (fun u _ => drewBlocks u _ _) s _)

theorem addStats (s : State) (i y satP underP satO underO : Nat) : s.worked id loose (addStats s id i y satP underP satO underO) := updSame s

theorem raiseMax (s : State) (i x w : Nat) : s.worked id loose (raiseMax s id i x w) := updSame s

/-! ### Outputs and space (R95, R159) -/

theorem addSpace (s : State) (x : Space) : s.worked id loose (addSpace s id x) := updSame s

theorem dropSpace (s : State) (kind : Held) (key : Nat) : s.worked id loose (dropSpace s id kind key) := updSame s

theorem takeSpace (s : State) (c core : Nat) (kind : Held) (key n : Nat) : s.worked id loose (takeSpace s id c core kind key n).1 := by
  unfold Machine.takeSpace
  split
  · exact refl s
  split
  · exact addSpace s _
  split
  · exact addSpace s _
  · exact refl s

theorem takeShares (s : State) (c : Nat) (cores : List Nat) (kind : Held) (key n : Nat) :
    s.worked id loose (takeShares s id c cores kind key n).1 := foldM (fun u core => takeSpace u c core kind key _) s cores

theorem takePlace (s : State) (c core : Nat) (pl : Place) (size : Nat) (kind : Held) (key n : Nat) :
    s.worked id loose (takePlace s id c core pl size kind key n).1 := by
  unfold Machine.takePlace
  split
  · exact addSpace s _
  · exact takeSpace s c core kind key n

end State.worked

section
variable {loose : Bool} (s : State) (e : Entry) (d : Desc)

theorem worked_writeOut (base off : Nat) (bs : List Byte) : s.worked e.id loose (writeOut s e d base off bs).1 := by
  unfold writeOut
  split
  · exact .vwrite s e.ctx (base + off) bs
  · exact .updSame s

theorem worked_takeSlice (home n : Nat) (kind : Held) (key : Nat) : s.worked e.id loose (takeSlice s e home n kind key).1 :=
  .takeShares s e.ctx _ kind key n

theorem worked_holdOver (core n : Nat) : s.worked e.id loose (holdOver s e d core n).1 := by
  unfold holdOver
  split
  · exact .refl s
  · exact .takePlace s e.ctx core _ _ _ _ n

end

/-! ### The welt exchange (R163) -/

section
variable {id : Nat} {loose : Bool}

/-- A command with every packet sent has none to mark as sent. -/
theorem markSent_eq {l : List WeltPacket} (n : Nat) (h : ∀ q ∈ l, q.sent = true) :
    (l.map fun q => if q.seq = n then { q with sent := true } else q) = l := by
  refine (List.map_congr_left fun q hq => ?_).trans (List.map_id l)
  split
  · rw [← h q hq]; rfl
  · rfl

/-- A command with the packets of a number marked as sent. -/
def Entry.markSent (n : Nat) (e : Entry) : Entry :=
  { e with run := { e.run with welt := e.run.welt.map fun q => if q.seq = n then { q with sent := true } else q } }

theorem Entry.markSent_moved (n : Nat) (x : Entry) : Entry.moved id loose x (x.markSent n) :=
  ⟨fun _ => ⟨rfl, fun _ h => h, fun _ => rfl⟩, fun _ => ⟨rfl, fun hs => by rw [Entry.markSent, markSent_eq n hs]⟩⟩

theorem State.worked.sendOne (s : State) (x : Nat × WeltPacket) : s.worked id loose (sendOne s x) :=
  .ite (.refl s) (.trans (.addF s (Reg.SEQ_WELT x.2.src) 63 32 1) (.updAny (f := Entry.markSent x.2.seq) (Entry.markSent_moved _) _))

theorem State.worked.pumpWelt (s : State) : s.worked id loose (pumpWelt s) := .foldl .sendOne s _

theorem State.worked.sendWelt (s : State) (ps : List WeltPacket) : s.worked id loose (sendWelt s id ps) :=
  .ite (.refl s) (.trans (.foldl (fun u _ => .updSame u) s ps) (.pumpWelt _))

end

end Sys2Proof.Machine

namespace Sys2Proof.Machine

/-! ### Feeding and spilling an item (R158, R159, R168) -/

section
variable {loose : Bool} (s : State) (e : Entry) (d : Desc)

theorem worked_touchFresh (id a : Nat) (rs : List (Nat × Nat)) : s.worked id loose (touchFresh s e a rs) := .touchAll s e.ctx _

theorem worked_feedRange (p : Prod) (packed : Bool) (a core : Nat) (r : Nat × Nat) :
    s.worked e.id loose (feedRange e p packed a core s r) :=
  .trans (.ite (.refl s) (worked_touchFresh s e e.id a [r])) (.updSame _)

theorem worked_feedCols (p : Prod) (en : PEnt) (a core : Nat) (cols : List Nat) (k0 n : Nat) :
    s.worked e.id loose (feedCols s e d p en a core cols k0 n) := by
  unfold feedCols
  refine .trans (.trans (worked_touchFresh s e e.id a (p.wAux s en cols k0 n)) ?_) (.foldl (fun u r => worked_feedRange u e p _ a core r) _ _)
  exact .ite (.refl _) (.trans (.addF _ _ _ _ _) (.addF _ _ _ _ _))

theorem worked_feedPass (p : Prod) (en : PEnt) (a : Nat) (rows : List Nat) (c0 : Nat) (cols : List Nat) (k0 n : Nat) :
    s.worked e.id loose (feedPass s e d p en a rows c0 cols k0 n) :=
  have hx := worked_touchFresh s e e.id a (p.xAt s en rows k0 n)
  .ite hx (hx.trans (.foldl (fun u _ => .ite (.refl u) (worked_feedCols u e d p en a _ _ k0 n)) _ _))

theorem worked_feedItem (p : Prod) (t : Tile) (sl a : Nat) (todo : List Pass) : s.worked e.id loose (feedItem s e d p t sl a todo) :=
  .ite (worked_feedPass s e d p _ a _ _ _ _ _) (.foldl (fun u q => worked_feedPass u e d p _ a q.rows q.c0 q.cols _ _) s todo)

theorem worked_bookSpills (p : Prod) (t : Tile) (sl a : Nat) : s.worked e.id loose (bookSpills s e p t sl a).1 := by
  have hbump (u : State) (hi lo n : Nat) (l : List Nat) :
      u.worked e.id loose (l.foldl (fun s k => s.addF (Reg.SEQ_SPILL (a + k)) hi lo n) u) := .foldl (fun u k => .addF u _ hi lo n) u l
  unfold bookSpills
  dsimp only
  split
  · exact .refl s
  split
  · exact .refl s
  · refine .trans ?_ (.updSame _)
    exact .trans (.trans (.trans (hbump _ _ _ _ _) (hbump _ _ _ _ _)) (.tally _ _ _)) (.tally _ _ _)

/-! ### Conversion and commit of a block (R131, R155, R191, R243) -/

theorem worked_mmCommit (key : Key) (p : Prod) (t : Tile) (pt : Partial) (a : Nat) (q : Pass) :
    s.worked e.id loose (mmCommit s e d key p t pt a q).1 := by
  refine .got fun _ => .trans (.touchAll s e.ctx (mmReads e d (p.ent t.ent).e q)) (.foldM (fun u rn => .got fun cs => ?_) _ _)
  refine .trans ?_ (worked_writeOut _ e d _ _ _)
  exact .thenIf ((State.worked.raiseCores u a _).trans (.addStats _ _ _ _ _ _ _)) (.drewRow _ p a _ _ _)

theorem worked_cRaise (core : Nat) (awl : Bool) (fl : Nat) : s.worked e.id loose (cRaise s e.id core awl fl) :=
  .ite (.raiseAwl s fl) (.raiseArr s core fl)

theorem worked_cEmit (key : Key) (core : Nat) (awl : Bool) (t i j fl : Nat) (x : Ex) :
    s.worked e.id loose (cEmit s e d key core awl t i j fl x).1 := by
  have hwrite (u : State) (base off : Nat) (bs : List Byte) : u.worked e.id loose (writeOut u e d base off bs).1 := worked_writeOut u e d base off bs
  unfold cEmit
  dsimp only
  split
  · exact .trans (.trans (worked_cRaise s e core awl fl) (.updSame _)) (.addStats _ _ _ _ _ _ _)
  have hraised (fl y satO underO : Nat) : s.worked e.id loose (addStats (cRaise s e.id core awl fl) e.id t y 0 0 satO underO) :=
    (worked_cRaise s e core awl fl).trans (.addStats _ _ _ _ _ _ _)
  split
  · exact .next ((hraised _ _ _ _).trans (hwrite _ _ _ _)) fun u => .foldM (fun u ch => hwrite u _ _ _) u _
  · exact (hraised _ _ _ _).trans (hwrite _ _ _ _)

theorem worked_poolEmit (key : Key) (p : Prod) (core : Nat) (awl : Bool) (t i j : Nat) :
    s.worked e.id loose (poolEmit s e d key p core awl t i j).1 :=
  .got fun _ => .next (worked_cEmit s e d key core awl t i j _ _) fun u => .trans (.addStats u _ _ _ _ _ _) (.raiseMax _ _ _ _)

theorem worked_convEmit (key : Key) (core : Nat) (awl : Bool) (t i j fl : Nat) (v : Int) :
    s.worked e.id loose (convEmit s e d key core awl t i j fl v).1 :=
  .got fun _ => worked_cEmit s e d key core awl t i j _ _

theorem worked_cCommit (key : Key) (p : Prod) (t : Tile) (pt : Partial) (a : Nat) (q : Pass) :
    s.worked e.id loose (cCommit s e d key p t pt a q).1 := by
  refine .trans (.touchAll s e.ctx _) (.got fun _ => .trans ?_ (.foldM (fun u x => ?_) _ _))
  · exact .ite (.refl _) (.foldl (fun u r => .drewRow u p a _ _ _) _ _)
  · dsimp only
    split
    · exact .trans (.trans (.drewBlocks u _ _) (.addF _ _ _ _ _)) (worked_poolEmit _ e d key p _ _ _ _ _)
    · exact worked_convEmit u e d key _ _ _ _ _ _ _

theorem worked_awlEmit (key : Key) (p : Prod) (t i j : Nat) : s.worked e.id loose (awlEmit s e d key p t i j).1 :=
  .got fun _ => .next (worked_convEmit s e d key 0 true t i j _ _) fun u => .trans (.addStats u _ _ _ _ _ _) (.raiseMax _ _ _ _)

theorem worked_awlCommit (key : Key) (p : Prod) (it : Nat × Nat × Nat × Nat × Nat) :
    s.worked e.id loose (awlCommit s e d key p it).1 := by
  refine .trans (.touchAll s e.ctx _) (.got fun _ => .next (.foldM (fun u x => ?_) _ _) fun u => .addF u _ _ _ _)
  split
  · exact worked_poolEmit u e d key p 0 true _ x.1 x.2
  · exact worked_awlEmit u e d key p _ x.1 x.2

theorem worked_scCommitBlock (p : Prod) (t : Tile) (pt : Partial) (a : Nat) (q : Pass) :
    s.worked e.id loose (scCommitBlock s e d p t pt a q).1 := by
  refine .trans (.touchAll s e.ctx _) (.foldM (fun u r => .got fun gs => ?_) _ _)
  refine .trans (.trans (.foldl (fun u g => ?_) u _) (.updSame _)) (.takeSpace _ _ _ _ _ _)
  exact .thenIf ((State.worked.raiseArr u _ _).trans (.addF _ _ _ _ _)) ((State.worked.orReg _ _ _).trans (.raiseRecord _ _ _))

theorem worked_commitBlock (key : Key) (p : Prod) (ti : Nat) (pt : Partial) (home : Nat) (q : Pass) :
    s.worked e.id loose (commitBlock s e d key p ti pt home q).1 := by
  unfold commitBlock
  dsimp only
  split
  · exact .refl s
  refine .next ?_ fun u => ?_
  · split
    · exact worked_mmCommit s e d key p _ pt home q
    split
    · exact worked_cCommit s e d key p _ pt home q
    · exact worked_scCommitBlock s e d p _ pt home q
  · split
    · exact .addCommit u _
    · refine .next (.trans (.addCommit u _) (worked_holdOver _ e d home _)) fun v => ?_
      exact .ite (.sendWelt v _) (.refl v)

theorem worked_commitTile (key : Key) (p : Prod) (ti : Nat) (pt : Partial) : s.worked e.id loose (commitTile s e d key p ti pt).1 :=
  .trans (.addStats s _ _ _ _ _ _) (.foldM (fun u q => worked_commitBlock u e d key p ti pt _ q) _ _)

end

end Sys2Proof.Machine

namespace Sys2Proof.Machine

/-! ### The items of a stage (R155, R230, R261, R268) -/

section
variable {loose : Bool} (s : State) (e : Entry) (d : Desc)

theorem worked_formItem (key : Key) (p : Prod) (i a : Nat) {f : State → Partial → M}
    (hf : ∀ u pt, State.worked e.id loose u (f u pt).1) : s.worked e.id loose (formItem s e d key p i a f).1 := by
  exact .got fun o => .trans (.trans (worked_feedItem s e d p _ _ a _) (.foldl (fun u q => .drewPass u p a q _) _ _))
    (.next (worked_bookSpills _ e p _ _ a) fun u => .trans (.trans (.raiseCores u a _) (.raiseMax _ _ _ _)) (hf _ _))

/-- An item of a product leaves a slice partial at most. -/
theorem worked_finishProd (key : Key) (p : Prod) (i a : Nat) : s.worked e.id true (finishProd s e d key p i a).1 := by
  refine worked_formItem s e d key p i a fun u pt => ?_
  split
  · exact worked_commitTile u e d key p _ pt
  · exact .next (worked_takeSlice u e _ _ .part i) fun v => .addPart v pt

theorem worked_atScore (gi : Nat) (g : AtGroup) (page core : Nat) : s.worked e.id loose (atScore s e d gi g page core).1 := by
  refine .got fun p => .trans (.trans (.touchAll s e.ctx _) (.touchAll _ e.ctx _)) (.got fun keys => .foldM (fun u r => .got fun q => ?_) _ _)
  exact .trans (.trans (.raiseArr u core _) (.addF _ _ _ _ _)) (.updSame _)

theorem worked_atProbs (gi : Nat) (g : AtGroup) (page num core : Nat) : s.worked e.id true (atProbs s e d gi g page num core).1 := by
  exact .got fun p => .trans (.thenIf (.touchAll s e.ctx _) (.trans (.touchAll _ e.ctx _) (.touchAll _ e.ctx _)))
    (.got fun l => .trans (.trans (.raiseArr _ core _) (.addF _ _ _ _ _)) (.addPart _ _))

theorem worked_finishAttn (gs : List AtGroup) (i a : Nat) : s.worked e.id true (finishAttn s e d gs i a).1 := by
  unfold finishAttn
  dsimp only
  split
  · exact .refl s
  split
  · exact worked_atScore s e d _ _ _ a
  · refine .next (worked_atProbs s e d _ _ _ i a) fun u => ?_
    split
    · exact worked_takeSlice u e _ _ .part i
    · exact .refl u

theorem worked_sendLap (lap : Nat) : s.worked e.id loose (sendLap s e d lap).1 := by
  refine .foldM (fun u i => .got fun p => .got fun rows => .foldl (fun v k => ?_) u _) s _
  exact .of_keepsWork (keepsWork_fabSend v _ _ _ _)

theorem worked_ringProgress : s.worked e.id loose (ringProgress s e d).1 := by
  unfold ringProgress
  split
  · exact .refl s
  refine .got fun gs => ?_
  dsimp only
  split
  · exact .next (worked_sendLap s e d 2) fun u => .updSame u
  · exact .refl s

theorem worked_rfCommit (key : Key) (it core : Nat) : s.worked e.id loose (rfCommit s e d key it core).1 := by
  unfold rfCommit
  dsimp only
  split
  · refine .trans (.touchAll s e.ctx _) (.got fun l => ?_)
    exact .trans (.trans (.raiseArr _ core _) (.drewBlocks _ core _)) (.updSame _)
  have hread (i0 n : Nat) : s.worked e.id loose (drewBlocks (touchAll s e.ctx (rfRange d i0 n)) core n) :=
    .trans (.touchAll s e.ctx _) (.drewBlocks _ core n)
  split
  · exact (hread _ _).trans (worked_writeOut _ e d _ _ _)
  · exact (hread _ _).trans (.got fun l => .trans (.raiseArr _ core _) (worked_writeOut _ e d _ _ _))

theorem worked_upWriteMoments (id c : Nat) (g : GroupRun) (es : List UpElem) : s.worked id loose (upWriteMoments s c g es).1 := by
  refine .foldM (fun u x => .next ?_ fun v => ?_) s es
  · split
    · exact .vwrite u c _ _
    · exact .refl u
  · split
    · exact .vwrite v c _ _
    · exact .refl v

theorem worked_upWriteBlock (id c : Nat) (l : Loupe) (fmt b : Nat) (subs : List (List Nat)) :
    s.worked id loose (upWriteBlock s c l fmt b subs).1 := by
  refine .next (.trans (.of_keepsWork (keepsWork_dropWhere s _)) (.vwrite _ c _ _)) fun u => ?_
  dsimp only
  split
  · exact .refl u
  · exact .vwrite u c _ _

theorem worked_upWriteWeights (id : Nat) (g : GroupRun) (b : Nat) (es : List UpElem) :
    s.worked id loose (upWriteWeights s e g b es).1 := by
  unfold upWriteWeights
  dsimp only
  split
  · split
    · exact .refl s
    split
    · exact .refl s
    · exact worked_upWriteBlock s id e.ctx _ _ b _
  · exact .foldM (fun u x => .vwrite u e.ctx _ _) s es

theorem worked_upFinishGroup (id gi : Nat) (g : GroupRun) (core : Nat) : s.worked id loose (upFinishGroup s e d gi g core).1 :=
  .next (.vwrite s e.ctx _ _) fun u => .next (.vwrite u e.ctx _ _) fun v => .addF v _ _ _ _

theorem worked_upWriteFactors (id : Nat) (g : GroupRun) : s.worked id loose (upWriteFactors s e g).1 :=
  .next (.foldM (fun _ _ => .reading fun v _ => .vwrite v e.ctx _ _) s _) fun u =>
    .foldM (fun _ _ => .reading fun v _ => .vwrite v e.ctx _ _) u _

theorem worked_upPass (g : GroupRun) (it : UpItem) (xs : List Nat) (last : Bool) (core : Nat) :
    s.worked e.id loose (upPass s e g it xs last core).1 := by
  have hbook (bad : Bool) : s.worked e.id loose (upBookGrads s e.id core bad) := .trans (.orReg s _ _) (.raiseRecord _ _ _)
  refine .got fun gs => ?_
  dsimp only
  split
  · exact (hbook _).trans (.updSame _)
  split
  · exact ((hbook _).trans (.updSame _)).trans (worked_upWriteFactors _ e e.id _)
  · exact (hbook _).trans (.updSame _)

theorem worked_upBlock (key : Key) (g : GroupRun) (it : UpItem) (xs : List Nat) (last : Bool) (core : Nat) :
    s.worked e.id loose (upBlock s e d key g it xs last core).1 := by
  refine .got fun ws => .got fun es => .trans ?_ (.next (worked_upWriteWeights _ e e.id g it.blk es) fun u =>
    .next (worked_upWriteMoments u e.id e.ctx g es) fun v => ?_)
  · exact .trans (.trans (.trans (.orReg s _ _) (.raiseRecord _ _ _)) (.addF _ _ _ _ _)) (.drewBlocks _ core _)
  · split
    · exact worked_upFinishGroup v e d e.id _ g core
    · exact .refl v

theorem worked_upCommit (key : Key) (i core : Nat) : s.worked e.id loose (upCommit s e d key i core).1 := by
  unfold upCommit
  dsimp only
  split
  · exact .refl s
  split
  · exact .refl s
  refine .next ?_ fun u => .addF u _ _ _ _
  split
  · exact .trans (.touchAll s e.ctx _) (worked_upPass _ e _ _ _ _ core)
  · exact .trans (.touchAll s e.ctx _) (worked_upBlock _ e d key _ _ _ _ core)

/-- The work of an item, whatever its command does. -/
def itemWork (s : State) (e : Entry) (d : Desc) (key : Key) (w : Work) (i a : Nat) : M := match w with
  | .prod p => finishProd s e d key p i a
  | .awl p l => match l[i]? with
    | some it => awlCommit s e d key p it
    | none => (s, none)
  | .attn gs => finishAttn s e d gs i a
  | .upd _ => upCommit s e d key i a
  | .rng _ => (rfCommit s e d key i a).next fun s => holdOver s e d a (fillBytes e d i)

theorem worked_itemWork (key : Key) (w : Work) (i a : Nat) : s.worked e.id true (itemWork s e d key w i a).1 := by
  cases w with
  | prod p => exact worked_finishProd s e d key p i a
  | awl p l =>
    unfold itemWork
    dsimp only
    split
    · exact worked_awlCommit s e d key p _
    · exact .refl s
  | attn gs => exact worked_finishAttn s e d gs i a
  | upd l => exact worked_upCommit s e d key i a
  | rng n => exact .next (worked_rfCommit s e d key i a) fun u => worked_holdOver u e d a _

end

end Sys2Proof.Machine

namespace Sys2Proof.Machine

/-! ### The item an array claims (R151) -/

theorem insertBy_perm {α : Type} (le : α → α → Bool) (a : α) (l : List α) : (insertBy le a l).Perm (a :: l) := by
  induction l with
  | nil => exact .refl _
  | cons b l ih =>
    unfold insertBy
    split
    · exact (ih.cons b).trans (.swap a b l)
    · exact .refl _

theorem insertBy_sorted (a : Nat) {l : List Nat} (h : l.Pairwise (· ≤ ·)) :
    (insertBy (fun x y => decide (x ≤ y)) a l).Pairwise (· ≤ ·) := by
  induction l with
  | nil => exact List.pairwise_singleton _ a
  | cons b l ih =>
    obtain ⟨hb, hl⟩ := List.pairwise_cons.mp h
    unfold insertBy
    split
    next hba =>
      refine List.pairwise_cons.mpr ⟨fun x hx => ?_, ih hl⟩
      rcases List.mem_cons.mp ((insertBy_perm _ a l).mem_iff.mp hx) with rfl | hx
      · exact of_decide_eq_true hba
      · exact hb x hx
    next hba =>
      have hab : a ≤ b := Nat.le_of_lt (Nat.lt_of_not_le (by simpa using hba))
      refine List.pairwise_cons.mpr ⟨fun x hx => ?_, h⟩
      rcases List.mem_cons.mp hx with rfl | hx
      · exact hab
      · exact hab.trans (hb x hx)

/-- Sorting keeps the members and puts them in ascending order. -/
theorem sortBy_le_spec (l : List Nat) :
    (∀ i, i ∈ sortBy (fun x y => decide (x ≤ y)) l ↔ i ∈ l) ∧ (sortBy (fun x y => decide (x ≤ y)) l).Pairwise (· ≤ ·) := by
  have hfold (acc : List Nat) (hacc : acc.Pairwise (· ≤ ·)) :
      (∀ i, i ∈ l.foldl (fun acc a => insertBy (fun x y => decide (x ≤ y)) a acc) acc ↔ i ∈ l ∨ i ∈ acc) ∧
        (l.foldl (fun acc a => insertBy (fun x y => decide (x ≤ y)) a acc) acc).Pairwise (· ≤ ·) := by
    induction l generalizing acc with
    | nil => exact ⟨by simp, hacc⟩
    | cons a l ih =>
      obtain ⟨hmem, hsorted⟩ := ih _ (insertBy_sorted a hacc)
      refine ⟨fun i => ?_, hsorted⟩
      rw [List.foldl_cons, hmem, (insertBy_perm _ a acc).mem_iff]
      simp only [List.mem_cons]
      tauto
  obtain ⟨hmem, hsorted⟩ := hfold [] .nil
  exact ⟨fun i => by rw [sortBy, hmem]; simp, hsorted⟩

/-- In an ascending list the first that satisfies a test is the lowest. -/
theorem find_sorted_le {p : Nat → Bool} {l : List Nat} {i : Nat} (h : l.Pairwise (· ≤ ·)) (hi : l.find? p = some i) {j : Nat}
    (hj : j ∈ l) (hp : p j = true) : i ≤ j := by
  induction l with
  | nil => cases hj
  | cons a l ih =>
    obtain ⟨ha, hl⟩ := List.pairwise_cons.mp h
    by_cases hpa : p a = true
    · obtain rfl : a = i := by simpa [List.find?_cons, hpa] using hi
      rcases List.mem_cons.mp hj with rfl | hj
      · exact le_refl _
      · exact ha j hj
    · have hne : j ≠ a := by rintro rfl; exact hpa hp
      exact ih hl (by simpa [List.find?_cons, hpa] using hi) ((List.mem_cons.mp hj).resolve_left hne)

section
variable {s : State} {e : Entry} {w : Work} {a i : Nat}

/-- A reissued item is the lowest of the reissue list open to the array. -/
theorem nextItem_reissued (h : nextItem s e w a = some (i, true)) :
    i ∈ e.run.reissue ∧ ∀ j ∈ e.run.reissue, itemOpen s e w a j = true → i ≤ j := by
  obtain ⟨hmem, hsorted⟩ := sortBy_le_spec e.run.reissue
  unfold nextItem at h
  split at h
  next k hk =>
    obtain rfl : k = i := by simpa using h
    exact ⟨(hmem k).mp (List.mem_of_find?_eq_some hk), fun j hj hopen => find_sorted_le hsorted hk ((hmem j).mpr hj) hopen⟩
  next => simp at h

/-- Any other is the lowest not yet given out. -/
theorem nextItem_fresh (h : nextItem s e w a = some (i, false)) : i < e.run.items ∧ e.run.taken i = false ∧
    ∀ j, j < i → e.run.taken j = true ∨ j ∈ e.run.reissue ∨ itemOpen s e w a j = false := by
  unfold nextItem at h
  split at h
  next => simp at h
  next =>
    obtain ⟨k, hk, hki⟩ := Option.map_eq_some_iff.mp h
    obtain rfl : k = i := by simpa using hki
    obtain ⟨hp, hlt, hmin⟩ := List.find?_range_eq_some.mp hk
    simp only [Bool.and_eq_true, Bool.not_eq_true'] at hp
    refine ⟨by simpa using hlt, hp.1.1, fun j hj => ?_⟩
    have hj := hmin j hj
    simp only [Bool.not_eq_true', Bool.and_eq_false_iff, Bool.not_eq_false'] at hj
    rcases hj with (ht | hr) | ho
    · exact .inl ht
    · exact .inr (.inl (by simpa using hr))
    · exact .inr (.inr ho)

end

/-! ### What a claim changes -/

theorem LPE_FILL_ne_SEQ_CLAIM (a b : Nat) : Reg.SEQ_CLAIM a ≠ Reg.LPE_FILL b := by
  simp only [Reg.SEQ_CLAIM, Reg.LPE_FILL]
  omega

/-- A fold of miss counts changes their registers alone. -/
theorem foldl_missed (l : List Nat) (u : State) :
    l.foldl (fun s c => s.addF (Reg.LPE_FILL c) 31 0 1) u = u.putRegs (l.foldl (fun s c => s.addF (Reg.LPE_FILL c) 31 0 1) u).regs ∧
      u.sameRegs (l.foldl (fun s c => s.addF (Reg.LPE_FILL c) 31 0 1) u) (l.map Reg.LPE_FILL) := by
  induction l generalizing u with
  | nil => exact ⟨rfl, fun _ _ => rfl⟩
  | cons c l ih =>
    obtain ⟨heq, hregs⟩ := ih (u.addF (Reg.LPE_FILL c) 31 0 1)
    refine ⟨heq, fun off hoff => ?_⟩
    obtain ⟨hc, hl⟩ := not_or.mp (mt List.mem_cons.mpr hoff)
    exact (hregs off hl).trans (State.reg_addF_ne _ _ _ _ _ _ hc)

section
variable (s : State) (e : Entry) (a i : Nat)

/-- Bytes fetched ahead are used or dropped, and misses counted: nothing else changes. -/
theorem usePrefetch_eq : usePrefetch s e a i = (s.putPrefetched (usePrefetch s e a i).prefetched).putRegs (usePrefetch s e a i).regs := by
  unfold usePrefetch
  split
  · rfl
  split
  · rfl
  · have heq := (foldl_missed ((arrayCores (gangOf s e) a).take 2) (s.putPrefetched (s.prefetched.filter fun y => decide (y.array ≠ a)))).1
    dsimp only
    rw [heq]
    rfl

theorem usePrefetch_sameRegs : s.sameRegs (usePrefetch s e a i) ((arrayCores (gangOf s e) a).map Reg.LPE_FILL) := by
  unfold usePrefetch
  split
  · exact fun _ _ => rfl
  split
  · exact fun _ _ => rfl
  · intro off hoff
    refine (foldl_missed _ _).2 off fun hmem => hoff ?_
    exact List.map_subset _ (List.take_subset _ _) hmem

theorem usePrefetch_hol : (usePrefetch s e a i).hol = s.hol := by rw [usePrefetch_eq]; rfl

/-- A command that has claimed item i for array a. -/
def Entry.claimed (e : Entry) (w : Work) (a i : Nat) (re : Bool) (x : Entry) : Entry :=
  { x with run := { x.run with
      claims := x.run.claims ++ [⟨a, i⟩]
      reissue := x.run.reissue.filter fun x => decide (x ≠ i)
      counters := if re then x.run.counters else bumpCounter x.run.counters (counterOf e w a i) } }

/-- The state with the item claimed and the bytes fetched ahead for it taken. -/
def claimedState (s : State) (e : Entry) (w : Work) (a i : Nat) (re : Bool) : State :=
  usePrefetch (s.updEntry e.id (e.claimed w a i re)) e a i

variable (w : Work) (re : Bool)

theorem takeItem_awl (h : 64 ≤ a) : takeItem s e w a i re = (s.updEntry e.id (e.claimed w a i re)).putTick
    { s.tick with turns := spSet 0 s.tick.turns (40 + e.cls) (e.part + 1) } := if_pos h

theorem takeItem_array (h : a < 64) : takeItem s e w a i re = countArray (claimedState s e w a i re) e a 63 32 := if_neg (Nat.not_le.mpr h)

theorem claimedState_eq : claimedState s e w a i re = ((s.updEntry e.id (e.claimed w a i re)).putPrefetched
    (claimedState s e w a i re).prefetched).putRegs (claimedState s e w a i re).regs := usePrefetch_eq _ e a i

theorem claimedState_sameRegs : s.sameRegs (claimedState s e w a i re) ((arrayCores (gangOf s e) a).map Reg.LPE_FILL) :=
  usePrefetch_sameRegs (s.updEntry e.id (e.claimed w a i re)) e a i

theorem claimedState_gang : gangOf (claimedState s e w a i re) e = gangOf s e := by
  rw [gangOf, State.part, claimedState, usePrefetch_hol]
  rfl

theorem takeItem_array_eq (h : a < 64) : takeItem s e w a i re = (claimedState s e w a i re).putRegs (takeItem s e w a i re).regs := by
  rw [takeItem_array s e a i w re h, countArray]
  exact foldl_addF_eq 63 32 _ _

end

section
variable {s : State} {e : Entry} (a i : Nat) (w : Work) (re : Bool)

/-- But for registers, the tick's turns and what was fetched ahead, a claim changes its command alone. -/
theorem takeItem_keeps : (takeItem s e w a i re).flight = (s.updEntry e.id (e.claimed w a i re)).flight ∧
    (takeItem s e w a i re).ctxs = s.ctxs ∧ (takeItem s e w a i re).mem = s.mem := by
  by_cases h : a < 64
  · rw [takeItem_array_eq s e a i w re h, claimedState_eq]
    exact ⟨rfl, rfl, rfl⟩
  · rw [takeItem_awl s e a i w re (Nat.not_lt.mp h)]
    exact ⟨rfl, rfl, rfl⟩

theorem takeItem_entry (k : Nat) : (takeItem s e w a i re).entry k = (s.updEntry e.id (e.claimed w a i re)).entry k := by
  obtain ⟨hflight, -, -⟩ := takeItem_keeps (s := s) (e := e) a i w re
  rw [State.entry, hflight, ← State.entry]

theorem takeItem_sameRegs : s.sameRegs (takeItem s e w a i re)
    ((arrayCores (gangOf s e) a).map Reg.LPE_FILL ++ (arrayCores (gangOf s e) a).map Reg.SEQ_CLAIM) := by
  intro off hoff
  obtain ⟨hfill, hclaim⟩ := not_or.mp (mt List.mem_append.mpr hoff)
  by_cases h : a < 64
  · rw [takeItem_array s e a i w re h, countArray, claimedState_gang, foldl_addF_reg_ne _ _ _ _ _ hclaim]
    exact claimedState_sameRegs s e a i w re off hfill
  · rw [takeItem_awl s e a i w re (Nat.not_lt.mp h)]
    rfl

/-- SEQ_CLAIM of each core of the array counts the claim (R166). -/
theorem takeItem_counts (h : a < 64) {c : Nat} (hc : c ∈ arrayCores (gangOf s e) a) :
    (takeItem s e w a i re).fldR (Reg.SEQ_CLAIM c) 63 32 = (s.fldR (Reg.SEQ_CLAIM c) 63 32 + 1) % 2 ^ 32 := by
  have hsame : (claimedState s e w a i re).fldR (Reg.SEQ_CLAIM c) 63 32 = s.fldR (Reg.SEQ_CLAIM c) 63 32 := by
    have hnot : Reg.SEQ_CLAIM c ∉ (arrayCores (gangOf s e) a).map Reg.LPE_FILL := by
      simpa using fun b _ => (LPE_FILL_ne_SEQ_CLAIM c b).symm
    rw [State.fldR, claimedState_sameRegs s e a i w re _ hnot, State.fldR]
  rw [takeItem_array s e a i w re h, countArray, claimedState_gang,
    foldl_addF_fldR (by decide) (by decide) _ (arrayCores_nodup _ _) _ hc, hsame]

/-- ITEM_CLAIM in an array that may claim, with no packet of an earlier stage outstanding (R151, R165). -/
theorem exec_itemClaim {id : Nat} (hruns : s.runs id e) (hstart : e.run.started = true) (hwelt : e.run.welt = [])
    (hwork : stageWork s e e.desc = .ok w) (a : Nat) : exec (.itemClaim id a) s = .next (if s.mayClaim e a then
      match nextItem s e w a with
        | none => s
        | some (i, re) => takeItem s e w a i re
      else s) := by
  obtain ⟨hlive, he, hd, -⟩ := hruns
  change Host.Outcome.next _ = _
  rw [he]
  simp only [hlive, hd, hstart, hwelt, hwork, List.any_nil]
  cases s.mayClaim e a <;> rfl

end

end Sys2Proof.Machine

namespace Sys2Proof.Machine

/-! ### What the relation says of the command and of the others -/

/-- No packet of other commands waits, and none of them has changed. -/
def State.leavesOthers (s t : State) (id : Nat) : Prop := s.weltSent id → t.weltSent id ∧ s.othersKept t id

section
variable {id : Nat} {loose : Bool} {s t u : State}

theorem State.leavesOthers.trans (h : s.leavesOthers t id) (h' : t.leavesOthers u id) : s.leavesOthers u id := fun hs => by
  obtain ⟨ht, hst⟩ := h hs
  obtain ⟨hu, htu⟩ := h' ht
  exact ⟨hu, fun k hk => (htu k hk).trans (hst k hk)⟩

theorem State.leavesOthers.of_flight (h : t.flight = s.flight) : s.leavesOthers t id := fun hs =>
  ⟨by rwa [State.weltSent, h], fun k _ => by rw [State.entry, h, State.entry]⟩

/-- A change of one command leaves the others. -/
theorem State.leavesOthers.updEntry (s : State) {f : Entry → Entry} (hf : ∀ x, (f x).id = x.id) :
    s.leavesOthers (s.updEntry id f) id := fun hs => by
  refine ⟨fun y hy hid => ?_, fun k hk => State.entry_updEntry_ne s hf hk⟩
  rw [State.updEntry_flight] at hy
  obtain ⟨x, hx, rfl⟩ := List.mem_map.mp hy
  by_cases hxid : x.id = id
  · rw [if_pos hxid, hf x] at hid
    exact absurd hxid hid
  · rw [if_neg hxid]
    exact hs x hx hxid

theorem find?_moved {l m : List Entry} (h : List.Forall₂ (Entry.moved id loose) l m) (k : Nat) :
    (∀ x, l.find? (fun e => decide (e.id = k)) = some x → ∃ y, m.find? (fun e => decide (e.id = k)) = some y ∧ Entry.moved id loose x y) ∧
      (l.find? (fun e => decide (e.id = k)) = none → m.find? (fun e => decide (e.id = k)) = none) := by
  induction h with
  | nil => exact ⟨nofun, fun h => h⟩
  | @cons x y l m hxy _ ih =>
    have hid := hxy.id_eq
    by_cases hk : x.id = k
    · simp only [List.find?_cons, hk, hid, decide_true]
      exact ⟨fun z hz => ⟨y, rfl, by rwa [← Option.some.inj hz]⟩, nofun⟩
    · simpa only [List.find?_cons, hid, hk, decide_false] using ih

/-- The command is still in the table. -/
theorem State.worked.entry (h : s.worked id loose t) {e : Entry} (he : s.entry id = some e) :
    ∃ y, t.entry id = some y ∧ Entry.worked loose e y := by
  obtain ⟨y, hy, hmoved⟩ := (find?_moved h.flight id).1 e he
  exact ⟨y, hy, hmoved.1 (State.entry_id he)⟩

theorem State.worked.leavesOthers (h : s.worked id loose t) : s.leavesOthers t id := by
  intro hs
  have hmem : ∀ y ∈ t.flight, ∃ x ∈ s.flight, Entry.moved id loose x y := by
    have hflight := h.flight
    revert hflight
    generalize s.flight = l, t.flight = m
    intro hflight y hy
    obtain ⟨n, hn, rfl⟩ := List.getElem_of_mem hy
    have hl : n < l.length := by rw [hflight.length_eq]; exact hn
    exact ⟨l[n], List.getElem_mem hl, hflight.get hl hn⟩
  refine ⟨fun y hy hid => ?_, fun k hk => ?_⟩
  · obtain ⟨x, hx, hmoved⟩ := hmem y hy
    have hxid : x.id ≠ id := by rwa [← hmoved.id_eq]
    obtain rfl := (hmoved.2 hxid).sent (hs x hx hxid)
    exact hs y hx hid
  · obtain ⟨hsome, hnone⟩ := find?_moved h.flight k
    cases hx : s.entry k with
    | none => exact hnone hx
    | some x =>
      obtain ⟨y, hy, hmoved⟩ := hsome x hx
      have hxid : x.id ≠ id := by rw [State.entry_id hx]; exact hk
      obtain rfl := (hmoved.2 hxid).sent (hs x (List.mem_of_find?_eq_some hx) hxid)
      exact hy

end

/-! ### The end of an item (R155) -/

section
variable (s : State) (e : Entry) (core : Nat)

theorem charge_flight : (charge s e core).flight = (s.updEntry e.id (·.charged core)).flight := by
  unfold charge
  rw [State.updEntry_flight, State.updEntry_flight]
  simp [Entry.charged]

theorem charge_leavesOthers : s.leavesOthers (charge s e core) e.id :=
  (State.leavesOthers.updEntry s (f := (·.charged core)) fun _ => rfl).trans (.of_flight (charge_flight s e core))

theorem charge_ctx_ne {n : Nat} (h : n ≠ e.ctx) : (charge s e core).ctx n = s.ctx n := by
  rw [charge, State.updEntry_ctx, tally_ctx, State.ctx_setCtx_ne _ _ _ _ h]

theorem charge_recs : ((charge s e core).ctx e.ctx).recs = (s.ctx e.ctx).recs := by
  rw [charge, State.updEntry_ctx, tally_ctx, State.ctx_setCtx_same]

variable {s e}

theorem charge_entry_same {id : Nat} (he : s.entry id = some e) : (charge s e core).entry id = some (e.charged core) := by
  rw [charge_entry, State.entry_id he]
  exact State.entry_updEntry_same (f := (·.charged core)) (fun _ => rfl) he

/-- A command whose item i is done, by array a. -/
def Entry.itemDone (x : Entry) (a i : Nat) : Entry :=
  { x with run := { x.run with
      done := x.run.done ++ [⟨a, i⟩]
      claims := x.run.claims.filter fun c => decide (c.item ≠ i)
      reissue := x.run.reissue.filter fun x => decide (x ≠ i) } }

/-- The state with an item's bit set. -/
def itemBooked (s : State) (id i a : Nat) : State :=
  ((s.updEntry id (·.itemDone a i)).updEntry id fun x => { x with held := none }).putPrefetched
    (s.prefetched.filter fun x => !(x.used && decide (x.id = id ∧ x.array = a ∧ x.item = i)))

/-- What follows the work of an item. -/
def itemEnd (s : State) (e : Entry) (i a : Nat) : M :=
  match (itemBooked s e.id i a).entry e.id with
  | some e1 => if e.desc.op = opcAttn then ringProgress (itemBooked s e.id i a) e1 e.desc else (itemBooked s e.id i a, none)
  | none => (itemBooked s e.id i a, none)

/-- An item is finished by its work and by what follows it. -/
theorem finishItem_eq (s : State) (e : Entry) (i a : Nat) : finishItem s e i a =
    got s e.ctx (both (keyOf s e) (stageWork s e e.desc)) fun o =>
      (itemWork s e e.desc o.1 o.2 i a).next fun s => itemEnd s e i a := by
  refine congrArg (got s e.ctx _) (funext fun o => ?_)
  cases o.2 <;> rfl

end

section
variable {s : State} {e x : Entry} {id i a : Nat}

theorem itemBooked_leavesOthers (s : State) (id i a : Nat) : s.leavesOthers (itemBooked s id i a) id :=
  ((State.leavesOthers.updEntry s (f := (·.itemDone a i)) fun _ => rfl).trans
    (.updEntry _ (f := fun x => { x with held := none }) fun _ => rfl)).trans (.of_flight rfl)

theorem itemBooked_entry (hx : s.entry id = some x) :
    (itemBooked s id i a).entry id = some { x.itemDone a i with held := none } := by
  rw [itemBooked, State.putPrefetched_entry]
  exact State.entry_updEntry_same (f := fun x => { x with held := none }) (fun _ => rfl)
    (State.entry_updEntry_same (f := (·.itemDone a i)) (fun _ => rfl) hx)

/-- A ring of ATTN may go on besides. -/
theorem itemEnd_worked (hx : s.entry e.id = some x) (hid : x.id = e.id) :
    (itemBooked s e.id i a).worked e.id true (itemEnd s e i a).1 := by
  unfold itemEnd
  rw [itemBooked_entry hx]
  dsimp only
  split
  · have h := worked_ringProgress (loose := true) (itemBooked s e.id i a) { x.itemDone a i with held := none } e.desc
    rwa [show ({ x.itemDone a i with held := none } : Entry).id = e.id from hid] at h
  · exact .refl _

end

/-- What an act on a command's stage leaves: the contexts, the other commands, and of its own what its record and its charge say. -/
structure State.goesOn (s t : State) (id : Nat) : Prop where
  ctxs : t.ctxs = s.ctxs
  others : s.leavesOthers t id
  entry : ∀ x, s.entry id = some x → ∃ y, t.entry id = some y ∧ y.pkt = x.pkt ∧ y.ctx = x.ctx ∧ y.core = x.core ∧ y.done = x.done

section
variable {s t u : State} {id : Nat} {loose : Bool}

theorem State.goesOn.trans (h : s.goesOn t id) (h' : t.goesOn u id) : s.goesOn u id where
  ctxs := h'.ctxs.trans h.ctxs
  others := h.others.trans h'.others
  entry x hx := by
    obtain ⟨y, hy, hpkt, hctx, hcore, hdone⟩ := h.entry x hx
    obtain ⟨z, hz, hpkt', hctx', hcore', hdone'⟩ := h'.entry y hy
    exact ⟨z, hz, hpkt'.trans hpkt, hctx'.trans hctx, hcore'.trans hcore, hdone'.trans hdone⟩

theorem State.worked.goesOn (h : s.worked id loose t) : s.goesOn t id where
  ctxs := h.ctxs
  others := h.leavesOthers
  entry x hx := by
    obtain ⟨y, hy, hxy⟩ := h.entry hx
    exact ⟨y, hy, hxy.pkt, hxy.ctx, hxy.core, hxy.done⟩

theorem itemBooked_goesOn (s : State) (id i a : Nat) : s.goesOn (itemBooked s id i a) id where
  ctxs := rfl
  others := itemBooked_leavesOthers s id i a
  entry _ hx := ⟨_, itemBooked_entry hx, rfl, rfl, rfl, rfl⟩

theorem itemEnd_goesOn {e : Entry} (i a : Nat) {x : Entry} (hx : s.entry e.id = some x) : s.goesOn (itemEnd s e i a).1 e.id :=
  (itemBooked_goesOn s e.id i a).trans (itemEnd_worked hx (State.entry_id hx)).goesOn

/-- Finishing an item, whatever its outcome. -/
theorem finishItem_goesOn {e : Entry} (i a : Nat) {x : Entry} (hx : s.entry e.id = some x) :
    s.goesOn (finishItem s e i a).1 e.id := by
  rw [finishItem_eq]
  cases both (keyOf s e) (stageWork s e e.desc) with
  | error m => exact (State.worked.noteErr (loose := true) s e.ctx m).goesOn
  | ok o =>
    have hwork := worked_itemWork s e e.desc o.1 o.2 i a
    obtain ⟨y, hy, -⟩ := hwork.entry hx
    change s.goesOn (M.next _ _).1 e.id
    unfold M.next
    split
    · exact hwork.goesOn
    · exact hwork.goesOn.trans (itemEnd_goesOn i a hy)

/-- A finished item: its bit is set and its claim gone. -/
theorem finishItem_books {e : Entry} {i a : Nat} {x : Entry} (hx : s.entry e.id = some x) (h : finishItem s e i a = (t, none)) :
    ∃ y, t.entry e.id = some y ∧ y.run.done = x.run.done ++ [⟨a, i⟩] ∧ y.run.claims = x.run.claims.filter fun c => decide (c.item ≠ i) := by
  rw [finishItem_eq] at h
  cases hboth : both (keyOf s e) (stageWork s e e.desc) with
  | error m => rw [hboth] at h; exact absurd (congrArg Prod.snd h) (by simp [got, failing])
  | ok o =>
    rw [hboth] at h
    have hwork := worked_itemWork s e e.desc o.1 o.2 i a
    obtain ⟨y, hy, hxy⟩ := hwork.entry hx
    simp only [got, M.next] at h
    split at h
    next herr => rw [h] at herr; cases herr
    next =>
      obtain ⟨z, hz, hyz⟩ := (itemEnd_worked (i := i) (a := a) hy (State.entry_id hy)).entry (itemBooked_entry hy)
      rw [h] at hz
      refine ⟨z, hz, ?_, ?_⟩
      · rw [hyz.items, ← hxy.items]; rfl
      · rw [hyz.claims, ← hxy.claims]; rfl

/-! ### A stage that fails (R22, R96) -/

/-- The completion of a stage that meets a translation fault. -/
def faultCompletion (e : Entry) (va : Nat) : Completion := { status := 2, stage := some e.stage, addr := va, tear := some 1 }

theorem finishWith_leavesOthers {y : Entry} {c : Completion} (hy : s.entry id = some y) : s.leavesOthers (finishWith s y c) id := by
  have hflight : (finishWith s y c).flight = (s.updEntry id Entry.finished).flight := by
    rw [finishWith, State.setCtx_flight, finishEntry_flight, State.entry_id hy]
  exact (State.leavesOthers.updEntry s (f := Entry.finished) fun _ => rfl).trans (.of_flight hflight)

/-- Records that a completion of a command reports, it reports of any other with its number, context and packet. -/
theorem State.reports.of_entry {y e : Entry} {k : Nat} (h : s.reports t y k) (hid : y.id = e.id) (hctx : y.ctx = e.ctx) (hpkt : y.pkt = e.pkt) :
    s.reports t e k := by
  unfold State.reports
  rw [← hctx, ← hid, ← hpkt]
  exact h

/-- A stage that meets a translation fault gives back what it took, and its command completes. -/
theorem stageFail_eq {e y : Entry} {va : Nat} (hy : u.entry e.id = some y) (hd : y.done = false) :
    stageFail u e (.trans va) = releaseReserved (finishWith (dropAcquired u y) y (faultCompletion e va)) e.id := by
  have hv : (dropAcquired u y).entry e.id = some y := by
    obtain ⟨-, hflight, -, -⟩ := dropAcquired_keeps u y
    rw [State.entry, hflight, ← State.entry, hy]
  rw [← complete_eq_of_nil hv hd rfl, stageFail, hy]
  rfl

/-- It ends with TRANSLATION_FAULT. -/
theorem stageFail_trans {e x : Entry} {va : Nat} (hgo : s.goesOn u e.id) (hx : s.entry e.id = some x) (hctx : x.ctx = e.ctx)
    (hpkt : x.pkt = e.pkt) (hd : x.done = false) :
    s.reports (stageFail u e (.trans va)) e 2 ∧ s.leavesOthers (stageFail u e (.trans va)) e.id := by
  obtain ⟨y, hy, hypkt, hyctx, -, hydone⟩ := hgo.entry x hx
  have hyctx : y.ctx = e.ctx := hyctx.trans hctx
  obtain ⟨hvctxs, hvflight, -, -⟩ := dropAcquired_keeps u y
  have hv : (dropAcquired u y).entry e.id = some y := by rw [State.entry, hvflight, ← State.entry, hy]
  rw [stageFail_eq hy (hydone.trans hd)]
  obtain ⟨hrctxs, hrflight⟩ := releaseReserved_keeps (finishWith (dropAcquired u y) y (faultCompletion e va)) e.id
  have hreports := finishWith_reports (s := dropAcquired u y) (e := y) (c := faultCompletion e va) (show 2 < 256 by decide)
  refine ⟨?_, ((hgo.others.trans (.of_flight hvflight)).trans (finishWith_leavesOthers hv)).trans (.of_flight hrflight)⟩
  refine (hreports.of_entry (State.entry_id hy) hyctx (hypkt.trans hpkt)).of_ctx ?_ ?_
  · rw [State.ctx, State.ctx, hvctxs, hgo.ctxs]
  · rw [State.ctx, State.ctx, hrctxs]

end

/-- ITEM_COMPLETE, by what the array holds first of a started stage (R45, R155). -/
theorem exec_itemComplete {s : State} {id array core : Nat} {e : Entry} (hruns : s.runs id e) (hstart : e.run.started = true) :
    exec (.itemComplete id array core) s = .next (match e.run.claims.find? fun c => decide (c.array = array) with
      | none => s
      | some c => if s.unitOn e array then stageAct (charge s e core) e (finishItem (charge s e core) e c.item array) else s) := by
  obtain ⟨hlive, he, hd, -⟩ := hruns
  change Host.Outcome.next _ = _
  rw [he]
  dsimp only
  cases e.run.claims.find? fun c => decide (c.array = array) with
  | none => rfl
  | some c =>
    simp only [hlive, hd, hstart]
    cases s.unitOn e array <;> rfl

/-- Settles O50: claims by the order of the lists they search, completions by what the work of an item leaves. -/
theorem itemsClaimedAndCompleted : Obligations.ItemsClaimedAndCompleted := by
  unfold Obligations.ItemsClaimedAndCompleted
  intro s id array e hruns hstart
  obtain ⟨hlive, he, hd, hpart⟩ := hruns
  obtain rfl : e.id = id := State.entry_id he
  refine ⟨fun w hwelt hwork => ?_, fun core => ?_⟩
  · rw [exec_itemClaim w ⟨hlive, he, hd, hpart⟩ hstart hwelt hwork array]
    refine ⟨fun hno => ?_, fun i re hmay hnext => ⟨?_, ?_, ?_⟩⟩
    · rcases hno with hno | hno
      · rw [if_neg (by simp [hno])]
      · rw [hno]; exact congrArg _ (ite_self s)
    · rintro rfl; exact nextItem_reissued hnext
    · rintro rfl; exact nextItem_fresh hnext
    · rw [if_pos hmay, hnext]
      obtain ⟨hflight, hctxs, hmem⟩ := takeItem_keeps (s := s) (e := e) array i w re
      refine ⟨_, _, rfl, (takeItem_entry array i w re e.id).trans
        (State.entry_updEntry_same (f := e.claimed w array i re) (fun _ => rfl) he), rfl, fun j => ?_, rfl, fun k hk => ?_, hctxs, hmem,
        fun h c hc => takeItem_counts array i w re h hc, takeItem_sameRegs array i w re⟩
      · simp [Entry.claimed]
      · rw [takeItem_entry]
        exact State.entry_updEntry_ne (f := e.claimed w array i re) s (fun _ => rfl) hk
  · have hcharged : (charge s e core).entry e.id = some (e.charged core) := charge_entry_same core he
    have hothers := charge_leavesOthers s e core
    refine ⟨fun hno => ?_, fun c hfind hon => ⟨fun t ht => ?_, fun u va hu => ?_⟩⟩
    · rw [exec_itemComplete ⟨hlive, he, hd, hpart⟩ hstart]
      rcases hno with hno | hno
      · rw [hno]
      · cases e.run.claims.find? fun c => decide (c.array = array) with
        | none => rfl
        | some c => exact congrArg _ (if_neg (by simp [hno]))
    · have hgo := finishItem_goesOn c.item array hcharged
      rw [ht] at hgo
      obtain ⟨y, hy, -, -, hcore, hdone⟩ := hgo.entry _ hcharged
      obtain ⟨z, hz, hitems, hclaims⟩ := finishItem_books hcharged ht
      obtain rfl : y = z := Option.some.inj (hy.symm.trans hz)
      have hctx (n : Nat) : t.ctx n = (charge s e core).ctx n := by rw [State.ctx, hgo.ctxs, State.ctx]
      refine ⟨y, ?_, hy, ?_, ?_, hcore, hdone.trans hd, ?_, fun hw => ((hothers.trans hgo.others) hw).2, fun n hn => ?_⟩
      · rw [exec_itemComplete ⟨hlive, he, hd, hpart⟩ hstart, hfind]
        simp only [hon, if_true, ht]
        rfl
      · simp [hitems]
      · simp [hclaims]
      · rw [hctx, charge_used]
      · rw [hctx, charge_ctx_ne s e core hn]
    · have hgo := finishItem_goesOn c.item array hcharged
      rw [hu] at hgo
      obtain ⟨hreports, hleaves⟩ := stageFail_trans (va := va) hgo hcharged rfl rfl hd
      refine ⟨_, ?_, ?_, fun hw => ((hothers.trans hleaves) hw).2⟩
      · rw [exec_itemComplete ⟨hlive, he, hd, hpart⟩ hstart, hfind]
        simp only [hon, if_true, hu]
        rfl
      · obtain ⟨r, hrecs, hrest⟩ := hreports
        exact ⟨r, by rw [hrecs, charge_recs], hrest⟩

end Sys2Proof.Machine

namespace Sys2Proof.Machine

/-! ### Space is held in the command alone (R159) -/

/-- Commands in flight changed, and nothing else. -/
def State.flightOnly (s t : State) : Prop := t = s.putFlight t.flight

section
variable {s t u : State}

theorem State.flightOnly.refl (s : State) : s.flightOnly s := (rfl)

theorem State.flightOnly.trans (h : s.flightOnly t) (h' : t.flightOnly u) : s.flightOnly u := by
  rw [State.flightOnly, h', h]
  rfl

theorem flightOnly_updEntry (s : State) (id : Nat) (f : Entry → Entry) : s.flightOnly (s.updEntry id f) := rfl

theorem flightOnly_takeSpace (s : State) (id c core : Nat) (kind : Held) (key n : Nat) :
    s.flightOnly (takeSpace s id c core kind key n).1 := by
  unfold takeSpace
  split
  · rfl
  split
  · rfl
  split <;> rfl

theorem flightOnly_takeShares (s : State) (id c : Nat) (cores : List Nat) (kind : Held) (key n : Nat) :
    s.flightOnly (takeShares s id c cores kind key n).1 := by
  refine List.foldlRecOn (motive := fun m : M => s.flightOnly m.1) cores _ (.refl s) fun m hm core _ => ?_
  unfold M.next
  split
  · exact hm
  · exact hm.trans (flightOnly_takeSpace _ _ _ _ _ _ _)

end

/-! ### Seams (R205) -/

section
variable {s : State} {e : Entry} {id : Nat}

/-- Data placed where there is room for it. -/
theorem takeSpace_ok {c core n : Nat} {kind : Held} {key : Nat} (h : n ≤ s.regionFree core ∨ s.areaHeld c + n ≤ s.spillSize c) :
    (takeSpace s id c core kind key n).2 = none := by
  unfold takeSpace
  split
  · rfl
  split
  · rfl
  next hregion => rw [if_pos (h.resolve_left hregion)]

/-- A command with the seam after a chunk arrived. -/
def Entry.seamLanded (i c : Nat) (x : Entry) : Entry :=
  { x with run := { x.run with seams := x.run.seams.map fun y => if y.entry = i ∧ y.chunk = c then { y with arrived := true } else y } }

/-- The state in which the seam holds its space. -/
def seamPlaced (s : State) (e : Entry) (d : Desc) (i c : Nat) : M :=
  takeSpace s e.id e.ctx (seamTarget s e d i c) .seam (chunkKey i (c + 1)) (8 * d.scD)

theorem landSeam_eq (d : Desc) (i c : Nat) :
    landSeam s e d i c = (seamPlaced s e d i c).next fun u => (u.updEntry e.id (Entry.seamLanded i c), none) := rfl

theorem landSeam_ok {d : Desc} {i c : Nat} (h : (seamPlaced s e d i c).2 = none) :
    landSeam s e d i c = ((seamPlaced s e d i c).1.updEntry e.id (Entry.seamLanded i c), none) := by
  rw [landSeam_eq, M.next, h]
  rfl

end

/-! ### Acts in sequence -/

/-- A sequence of acts succeeds where each does. -/
theorem M.next_ok {m : M} {f : State → M} {t : State} (h : m.next f = (t, none)) : m.2 = none ∧ f m.1 = (t, none) := by
  unfold M.next at h
  split at h
  next hm => rw [h] at hm; cases hm
  next hm => exact ⟨by simpa using hm, h⟩

/-- An act that has failed stops the fold. -/
theorem foldl_next_of_failed {α : Type} {f : State → α → M} {m : M} (hm : m.2.isSome = true) (l : List α) :
    l.foldl (fun m a => m.next fun s => f s a) m = m := by
  induction l with
  | nil => rfl
  | cons a l ih => rw [List.foldl_cons, M.next, if_pos hm, ih]

theorem foldM_cons {α : Type} (f : State → α → M) (s : State) (a : α) (l : List α) :
    foldM f s (a :: l) = (f s a).next fun u => foldM f u l := by
  change l.foldl (fun m a => m.next fun s => f s a) (f s a) = _
  unfold M.next
  split
  next h => exact foldl_next_of_failed h l
  next h =>
    have hnone : (f s a).2 = none := by simpa using h
    change _ = l.foldl _ ((f s a).1, none)
    rw [← hnone]
    rfl

/-! ### The blocks of a tile (R155) -/

section
variable (s : State) (e : Entry) (d : Desc) (key : Key) (p : Prod) (ti : Nat) (pt : Partial) (home : Nat) (q : Pass)

/-- The conversion of a block at its home. -/
def blockConverted : M :=
  if d.op = opcMatmul then mmCommit s e d key p (p.tiles.getD ti ⟨0, 0, 0⟩) pt home q
  else if d.op = opcConv then cCommit s e d key p (p.tiles.getD ti ⟨0, 0, 0⟩) pt home q
  else scCommitBlock s e d p (p.tiles.getD ti ⟨0, 0, 0⟩) pt home q

/-- What follows a block's bit: its outputs are held for the next stage, and its halos sent. -/
def blockHandedOn : M :=
  if d.op = opcScan then (s, none)
  else (holdOver s e d home (q.rows.length * q.cols.length * outWidth d)).next fun s =>
    (if d.outDst = 1 then sendWelt s e.id (blockPackets e e.stage (((s.entry e.id).map (·.run.outBuf)).getD []) p ti q) else s, none)

theorem commitBlock_eq (h : p.blockNo ti q ∉ e.run.commits) : commitBlock s e d key p ti pt home q =
    (blockConverted s e d key p ti pt home q).next fun u =>
      blockHandedOn (updRun u e.id fun r => { r with commits := r.commits ++ [p.blockNo ti q] }) e d p ti home q := by
  unfold commitBlock
  rw [if_neg (by simpa using h)]
  rfl

theorem worked_blockConverted : s.worked e.id false (blockConverted s e d key p ti pt home q).1 := by
  unfold blockConverted
  split
  · exact worked_mmCommit s e d key p _ pt home q
  split
  · exact worked_cCommit s e d key p _ pt home q
  · exact worked_scCommitBlock s e d p _ pt home q

theorem worked_blockHandedOn : s.worked e.id false (blockHandedOn s e d p ti home q).1 := by
  unfold blockHandedOn
  split
  · exact .refl s
  · exact .next (worked_holdOver s e d home _) fun u => .ite (.sendWelt u _) (.refl u)

end

section
variable {s t : State} {e x : Entry} {d : Desc} {key : Key} {p : Prod} {ti : Nat} {pt : Partial}

/-- A block committed has its bit set. -/
theorem commitBlock_commits {home : Nat} {q : Pass} (hx : s.entry e.id = some x) (hsub : e.run.commits ⊆ x.run.commits)
    (h : commitBlock s e d key p ti pt home q = (t, none)) : ∃ y, t.entry e.id = some y ∧ p.blockNo ti q ∈ y.run.commits := by
  by_cases hbit : p.blockNo ti q ∈ e.run.commits
  · obtain ⟨y, hy, hxy⟩ := (worked_commitBlock (loose := false) s e d key p ti pt home q).entry hx
    rw [h] at hy
    exact ⟨y, hy, hxy.commits (hsub hbit)⟩
  · rw [commitBlock_eq s e d key p ti pt home q hbit] at h
    obtain ⟨-, h⟩ := M.next_ok h
    obtain ⟨y, hy, -⟩ := (worked_blockConverted s e d key p ti pt home q).entry hx
    have hset := State.entry_updEntry_same (f := fun x : Entry => { x with run := { x.run with commits := x.run.commits ++ [p.blockNo ti q] } })
      (fun _ => rfl) hy
    obtain ⟨z, hz, hyz⟩ := (worked_blockHandedOn _ e d p ti home q).entry hset
    have ht : z.run.commits ⊇ y.run.commits ++ [p.blockNo ti q] := hyz.commits
    refine ⟨z, ?_, ht (List.mem_append_right _ (List.mem_singleton_self _))⟩
    rw [← hz]
    exact congrArg (fun m : M => m.1.entry e.id) h.symm

/-- Every block of a tile that has been committed has its bit set. -/
theorem commitBlocks_commit (l : List Pass) (hx : s.entry e.id = some x) (hsub : e.run.commits ⊆ x.run.commits)
    (h : foldM (fun s q => commitBlock s e d key p ti pt (homeOf e p ti) q) s l = (t, none)) :
    ∃ y, t.entry e.id = some y ∧ ∀ q ∈ l, p.blockNo ti q ∈ y.run.commits := by
  induction l generalizing s x with
  | nil =>
    obtain rfl : s = t := congrArg Prod.fst h
    exact ⟨x, hx, nofun⟩
  | cons q l ih =>
    rw [foldM_cons] at h
    obtain ⟨hok, h⟩ := M.next_ok h
    obtain ⟨y, hy, hbit⟩ := commitBlock_commits hx hsub (Prod.ext rfl hok)
    obtain ⟨y', hy', hxy⟩ := (worked_commitBlock (loose := false) s e d key p ti pt (homeOf e p ti) q).entry hx
    obtain rfl : y' = y := Option.some.inj (hy'.symm.trans hy)
    obtain ⟨z, hz, hall⟩ := ih hy (fun _ hb => hxy.commits (hsub hb)) h
    have hrest := State.worked.foldM (id := e.id) (loose := false)
      (fun u r => worked_commitBlock u e d key p ti pt (homeOf e p ti) r) (commitBlock s e d key p ti pt (homeOf e p ti) q).1 l
    obtain ⟨z', hz', hyz⟩ := hrest.entry hy
    rw [h] at hz'
    obtain rfl : z' = z := Option.some.inj (hz'.symm.trans hz)
    refine ⟨z', hz, fun r hr => ?_⟩
    rcases List.mem_cons.mp hr with rfl | hr
    · exact hyz.commits hbit
    · exact hall r hr

/-- Every block of a tile converted has its bit set. -/
theorem commitTile_commits (hx : s.entry e.id = some x) (hsub : e.run.commits ⊆ x.run.commits)
    (h : commitTile s e d key p ti pt = (t, none)) :
    ∃ y, t.entry e.id = some y ∧ ∀ q ∈ p.passes (p.tiles.getD ti ⟨0, 0, 0⟩), p.blockNo ti q ∈ y.run.commits := by
  have hstats := State.worked.addStats (id := e.id) (loose := false) s (p.ent (p.tiles.getD ti ⟨0, 0, 0⟩).ent).e 0 pt.sat pt.under 0 0
  obtain ⟨y, hy, hxy⟩ := hstats.entry hx
  exact commitBlocks_commit _ hy (fun _ hb => hxy.commits (hsub hb)) h

end

/-! ### Slice adds (R156) -/

section
variable (s : State) (e : Entry) (p : Prod) (item : Nat) (pt : Partial)

/-- The sum of an item's tile with the item's partial in it. -/
def Entry.sumWith : Partial := match e.run.red.find? fun x => decide (x.key = p.itemTile item) with
  | some r => addPartial r pt
  | none => { pt with key := p.itemTile item }

/-- A command in which item's partial has joined its sum. -/
def Entry.added (x : Entry) : Entry :=
  { x with run := { x.run with
      parts := x.run.parts.filter fun y => decide (y.key ≠ item)
      adds := e.run.adds ++ [item]
      red := e.sumWith p item pt :: x.run.red.filter fun y => decide (y.key ≠ p.itemTile item) } }

/-- The space of a sum is taken with its first partial. -/
def sumPlaced : M :=
  if (e.run.red.find? fun x => decide (x.key = p.itemTile item)).isSome then (s, none)
  else takeSlice s e (homeOf e p (p.itemTile item)) (8 * p.lr * p.lc) .red (p.itemTile item)

/-- The partial gives its space back. -/
def sumAdded : State := dropSpace (s.updEntry e.id (e.added p item pt)) e.id .part item

/-- Every slice of the item's tile has been added, the item's own included. -/
def Entry.tileAdded : Bool :=
  (List.range p.slices).all fun sl => (e.run.adds ++ [item]).contains (p.itemTile item * p.slices + sl)

/-- A tile's sum gives its space back once its blocks are committed. -/
def sumFreed (ti : Nat) : State :=
  dropSpace (updRun s e.id fun r => { r with red := r.red.filter fun x => decide (x.key ≠ ti) }) e.id .red ti

variable {s e p item pt}

theorem addSlice_eq {key : Key} (hpt : (e.run.parts.find? fun x => decide (x.key = item)) = some pt) (hkey : keyOf s e = .ok key)
    (hwork : stageWork s e e.desc = .ok (.prod p)) : addSlice s e item = (sumPlaced s e p item).next fun u =>
      if e.tileAdded p item then
        (commitTile (sumAdded u e p item pt) e e.desc key p (p.itemTile item) (e.sumWith p item pt)).next fun v =>
          (sumFreed v e (p.itemTile item), none)
      else (sumAdded u e p item pt, none) := by
  unfold addSlice
  simp only [hpt, hkey, hwork, both, got, sliceSum, List.all_map]
  rfl

theorem sumWith_key : (e.sumWith p item pt).key = p.itemTile item := by
  unfold Entry.sumWith
  split
  next r hr =>
    have hkey := List.find?_some hr
    exact of_decide_eq_true hkey
  next => rfl

theorem worked_sumPlaced : s.worked e.id false (sumPlaced s e p item).1 := by
  unfold sumPlaced
  split
  · exact .refl s
  · exact worked_takeSlice s e _ _ .red _

theorem flightOnly_sumPlaced : s.flightOnly (sumPlaced s e p item).1 := by
  unfold sumPlaced
  split
  · exact .refl s
  · exact flightOnly_takeShares s e.id e.ctx _ .red _ _

/-- A command whose space of a kind and key is given back. -/
def Entry.spaceDropped (kind : Held) (key : Nat) (x : Entry) : Entry :=
  { x with space := x.space.filter fun y => !decide (y.kind = kind ∧ y.key = key) }

theorem sumAdded_entry {x : Entry} (hx : s.entry e.id = some x) :
    (sumAdded s e p item pt).entry e.id = some ((e.added p item pt x).spaceDropped .part item) :=
  State.entry_updEntry_same (f := Entry.spaceDropped .part item) (fun _ => rfl)
    (State.entry_updEntry_same (f := e.added p item pt) (fun _ => rfl) hx)

theorem sumAdded_leavesOthers : s.leavesOthers (sumAdded s e p item pt) e.id :=
  (State.leavesOthers.updEntry s (f := e.added p item pt) fun _ => rfl).trans
    (.updEntry _ (f := Entry.spaceDropped .part item) fun _ => rfl)

/-- A command with the sum of a tile gone. -/
def Entry.sumGone (ti : Nat) (x : Entry) : Entry :=
  { x with run := { x.run with red := x.run.red.filter fun x => decide (x.key ≠ ti) } }

theorem sumFreed_entry {x : Entry} {ti : Nat} (hx : s.entry e.id = some x) :
    (sumFreed s e ti).entry e.id = some ((x.sumGone ti).spaceDropped .red ti) :=
  State.entry_updEntry_same (f := Entry.spaceDropped .red ti) (fun _ => rfl)
    (State.entry_updEntry_same (f := Entry.sumGone ti) (fun _ => rfl) hx)

theorem sumFreed_leavesOthers {ti : Nat} : s.leavesOthers (sumFreed s e ti) e.id :=
  (State.leavesOthers.updEntry s (f := Entry.sumGone ti) fun _ => rfl).trans
    (.updEntry _ (f := Entry.spaceDropped .red ti) fun _ => rfl)

/-- While adds of the tile are missing, the sum waits. -/
theorem addSlice_waits {key : Key} {x : Entry} {t : State} (hpt : (e.run.parts.find? fun x => decide (x.key = item)) = some pt)
    (hkey : keyOf s e = .ok key) (hwork : stageWork s e e.desc = .ok (.prod p)) (hx : s.entry e.id = some x)
    (hall : e.tileAdded p item = false) (h : addSlice s e item = (t, none)) :
    s.flightOnly t ∧ s.leavesOthers t e.id ∧
      ∃ y, Entry.worked false x y ∧ t.entry e.id = some ((e.added p item pt y).spaceDropped .part item) := by
  rw [addSlice_eq hpt hkey hwork] at h
  obtain ⟨-, h⟩ := M.next_ok h
  rw [hall, if_neg Bool.false_ne_true] at h
  obtain rfl : sumAdded (sumPlaced s e p item).1 e p item pt = t := congrArg Prod.fst h
  obtain ⟨y, hy, hxy⟩ := worked_sumPlaced.entry hx
  exact ⟨flightOnly_sumPlaced.trans rfl, worked_sumPlaced.leavesOthers.trans sumAdded_leavesOthers, y, hxy, sumAdded_entry hy⟩

/-- With the tile's last add its blocks are committed. -/
theorem addSlice_commits {key : Key} {x : Entry} {t : State} (hpt : (e.run.parts.find? fun x => decide (x.key = item)) = some pt)
    (hkey : keyOf s e = .ok key) (hwork : stageWork s e e.desc = .ok (.prod p)) (hx : s.entry e.id = some x)
    (hsub : e.run.commits ⊆ x.run.commits) (hall : e.tileAdded p item = true) (h : addSlice s e item = (t, none)) :
    t.ctxs = s.ctxs ∧ s.leavesOthers t e.id ∧ ∃ y z, Entry.worked false x y ∧
      Entry.worked false ((e.added p item pt y).spaceDropped .part item) z ∧
      t.entry e.id = some ((z.sumGone (p.itemTile item)).spaceDropped .red (p.itemTile item)) ∧
      ∀ q ∈ p.passes (p.tiles.getD (p.itemTile item) ⟨0, 0, 0⟩), p.blockNo (p.itemTile item) q ∈ z.run.commits := by
  rw [addSlice_eq hpt hkey hwork] at h
  obtain ⟨-, h⟩ := M.next_ok h
  rw [hall, if_pos rfl] at h
  obtain ⟨hok, h⟩ := M.next_ok h
  obtain rfl := congrArg Prod.fst h
  obtain ⟨y, hy, hxy⟩ := worked_sumPlaced.entry hx
  have hadded := sumAdded_entry (p := p) (item := item) (pt := pt) hy
  have htile := worked_commitTile (loose := false) (sumAdded (sumPlaced s e p item).1 e p item pt) e e.desc key p (p.itemTile item)
    (e.sumWith p item pt)
  obtain ⟨z, hz, hyz⟩ := htile.entry hadded
  obtain ⟨z', hz', hbits⟩ := commitTile_commits hadded (fun _ hb => hxy.commits (hsub hb)) (Prod.ext rfl hok)
  obtain rfl : z' = z := Option.some.inj (hz'.symm.trans hz)
  have hothers := (worked_sumPlaced.leavesOthers.trans sumAdded_leavesOthers).trans (htile.leavesOthers.trans (sumFreed_leavesOthers (ti := p.itemTile item)))
  refine ⟨?_, hothers, y, z', hxy, hyz, sumFreed_entry hz, hbits⟩
  exact htile.ctxs.trans worked_sumPlaced.ctxs

end

end Sys2Proof.Machine

namespace Sys2Proof.Machine

/-! ### A sweep of a chunk (R187, R203, R204) -/

/-- A change of one command that leaves what its record and its charge say. -/
theorem State.goesOn.updEntry {id : Nat} (s : State) {f : Entry → Entry}
    (hf : ∀ x, (f x).id = x.id ∧ (f x).pkt = x.pkt ∧ (f x).ctx = x.ctx ∧ (f x).core = x.core ∧ (f x).done = x.done) :
    s.goesOn (s.updEntry id f) id where
  ctxs := rfl
  others := .updEntry s fun x => (hf x).1
  entry x hx := ⟨f x, State.entry_updEntry_same (fun x => (hf x).1) hx, (hf x).2⟩

/-- One position is passed (R187). -/
theorem scanStep_pos (d : Desc) (key : Key) (handle : Nat) (reset : Bool) (gs : List (List Nat)) (c0 : Carry) (acc : ScanAcc) :
    (scanStep d key handle reset gs c0 acc).1.pos = c0.pos + 1 := by
  have hstart : (if reset then (⟨List.replicate d.scD 0, d.scInit, 0, c0.pos⟩ : Carry) else c0).pos = c0.pos := by split <;> rfl
  unfold scanStep
  generalize (if reset then (⟨List.replicate d.scD 0, d.scInit, 0, c0.pos⟩ : Carry) else c0) = c at hstart
  dsimp only
  split
  · exact congrArg (· + 1) hstart
  · exact congrArg (· + 1) hstart

section
variable {loose : Bool} {e : Entry} {d : Desc} {key : Key} {i : Nat}

theorem worked_scanPos (r : ScanRun) (t : Nat) : r.m.1.worked e.id loose (scanPos e d key i r t).m.1 := by
  unfold scanPos
  split
  · exact .refl _
  dsimp only
  split
  · exact .noteErr _ e.ctx _
  split
  · exact .refl _
  · exact worked_writeOut _ e d _ _ _

/-- A position that succeeds moves the carry by one. -/
theorem scanPos_pos (r : ScanRun) (t : Nat) (h : (scanPos e d key i r t).m.2 = none) :
    r.m.2 = none ∧ (scanPos e d key i r t).c.pos = r.c.pos + 1 := by
  unfold scanPos at h ⊢
  split at h
  next hfailed => rw [h] at hfailed; cases hfailed
  next hok =>
    rw [if_neg hok]
    refine ⟨by simpa using hok, ?_⟩
    dsimp only at h ⊢
    split at h
    · cases h
    next hboth =>
      split
      · exact scanStep_pos ..
      · exact scanStep_pos ..

theorem worked_foldl_scanPos (l : List Nat) (r : ScanRun) : r.m.1.worked e.id loose (l.foldl (scanPos e d key i) r).m.1 := by
  induction l generalizing r with
  | nil => exact .refl _
  | cons t l ih => exact (worked_scanPos r t).trans (ih _)

/-- A run of positions that succeeds passes each once. -/
theorem foldl_scanPos_pos (l : List Nat) (r : ScanRun) (h : (l.foldl (scanPos e d key i) r).m.2 = none) :
    r.m.2 = none ∧ (l.foldl (scanPos e d key i) r).c.pos = r.c.pos + l.length := by
  induction l generalizing r with
  | nil => exact ⟨h, rfl⟩
  | cons t l ih =>
    obtain ⟨hfirst, hrest⟩ := ih (scanPos e d key i r t) h
    obtain ⟨hr, hpos⟩ := scanPos_pos r t hfirst
    exact ⟨hr, by rw [List.foldl_cons, hrest, hpos, List.length_cons]; omega⟩

variable (s : State)

/-- What a run raised and counted is booked in registers, tallies and the record's flags. -/
theorem worked_bookScan (core : Nat) (a : ScanAcc) : s.worked e.id loose (bookScan s e core a) := by
  have hreg (u : State) (off : Nat) (w : Word) : u.worked e.id loose (u.setReg off w) := .same
  have hcounts (u : State) : u.worked e.id loose (((u.addF (Reg.SCN_REANCHOR core) 63 32 a.reanchors).satF
      (Reg.SCN_REANCHOR core) 31 16 a.guards).maxF (Reg.SCN_REANCHOR core) 15 0 a.maxShift) :=
    .trans (.addF u _ _ _ _) (.trans (hreg _ _ _) (hreg _ _ _))
  have hwork (u : State) : u.worked e.id loose (((drewBlocks (u.addF (Reg.SCN_WORK core) 63 32 a.positions) core a.blocks).addF
      (Reg.GATE_OPS core) 63 0 a.ops).updEntry e.id fun x => { x with run := { x.run with peaks := (core, a.maxAbs) :: x.run.peaks } }) :=
    .trans (.trans (.addF u _ _ _ _) (.drewBlocks _ core _)) (.trans (.addF _ _ _ _ _) (.updSame _))
  have hflags : s.worked e.id loose (raiseRecord (((raiseArr s e.id core a.arr).orReg (Reg.SCN_STAT core)
      (b2n a.sat + b2n a.under * 2 + b2n a.guard * 4)).orReg (Reg.GATE_STAT core) (b2n a.satFn)) e.id (a.sat || a.satFn) a.under) :=
    .trans (.trans (.raiseArr s core a.arr) (.orReg _ _ _)) (.trans (.orReg _ _ _) (.raiseRecord _ _ _))
  have htallies := (hflags.trans (hcounts _)).trans ((State.worked.tally _ (telPart e.part telGuards) a.guards).trans
    (.tallyMax _ (telPart e.part telMaxShift) a.maxShift))
  unfold bookScan
  cases a.lastAnchor with
  | none => exact htallies.trans (hwork _)
  | some x => exact (htallies.trans (hreg _ (Reg.SCN_MAXABS core) _)).trans (hwork _)

theorem worked_takeShadow : s.worked e.id loose (takeShadow s e d i).1 := by
  unfold takeShadow
  split
  · exact .refl s
  · exact .takeSpace s e.ctx _ _ _ _

theorem worked_releaseChunk (id c : Nat) : s.worked id loose (releaseChunk s id d i c) := by
  unfold releaseChunk
  split
  · exact .refl s
  dsimp only
  split
  · exact .refl s
  · exact .trans (.trans (.updSame s) (.dropSpace _ _ _)) (.dropSpace _ _ _)

end

/-! ### A sweep and its seam -/

/-- A command in which a sweep is noted, with its outgoing seam. -/
def Entry.swept (i c kind : Nat) (out : List Seam) (x : Entry) : Entry :=
  { x with run := { x.run with sweeps := (i, c, kind) :: x.run.sweeps, seams := x.run.seams ++ out } }

/-- The seam that a sweep's end leaves. -/
def sweepSeams (s : State) (e : Entry) (d : Desc) (i c : Nat) (w : Sweep) (k : Carry) : List Seam :=
  if w.seam then [⟨i, c, k, seamStays s e d i c⟩] else []

theorem noteSweep_eq (s : State) (e : Entry) (d : Desc) (i c : Nat) (w : Sweep) (k : Carry) :
    noteSweep s e d i c w.kind (if w.seam then some k else none) =
      s.updEntry e.id (Entry.swept i c w.kind (sweepSeams s e d i c w k)) := by
  unfold noteSweep sweepSeams
  cases w.seam <;> rfl

/-- What a command whose sweep has run shows of it. -/
structure Sweep.ran (w : Sweep) (i c : Nat) (x y : Entry) : Prop where
  sweeps : y.run.sweeps = (i, c, w.kind) :: x.run.sweeps
  seam : w.seam = true → ∃ k here, ⟨i, c, k, here⟩ ∈ y.run.seams ∧ k.pos = w.c0.pos + w.ts.length
  noSeam : w.seam = false → y.run.seams = x.run.seams

theorem Sweep.ran_swept {w : Sweep} {i c : Nat} {k : Carry} (s : State) (e : Entry) (d : Desc) (x : Entry)
    (hpos : k.pos = w.c0.pos + w.ts.length) : w.ran i c x (x.swept i c w.kind (sweepSeams s e d i c w k)) where
  sweeps := rfl
  seam hw := ⟨k, seamStays s e d i c, List.mem_append_right _ (by simp [sweepSeams, hw]), hpos⟩
  noSeam hw := by simp [Entry.swept, sweepSeams, hw]

section
variable {s t : State} {e x : Entry} {d : Desc} {key : Key} {i c : Nat} {w : Sweep}

/-- A sweep's own positions, from the state that holds its shadow. -/
def sweepRun (s : State) (e : Entry) (d : Desc) (key : Key) (i : Nat) (w : Sweep) : ScanRun :=
  w.ts.foldl (scanPos e d key i) ⟨(s, none), w.c0, ScanAcc.zero⟩

/-- The state that holds a sweep's shadow, its resets read. -/
def sweepShadow (s : State) (e : Entry) (d : Desc) (i : Nat) (w : Sweep) : M :=
  takeShadow (if e.aux 7 = 0 then s
    else vtouch s e.ctx (e.aux 7 + i * ceilDiv e.pkt.len 8 + w.ts.headD 0 / 8) (w.ts.getLastD 0 / 8 + 1 - w.ts.headD 0 / 8)) e d i

/-- What a run of positions counted is booked. -/
def sweepBooked (s : State) (e : Entry) (d : Desc) (i c : Nat) (r : ScanRun) : State := bookScan s e (scEngine s e d i c) r.acc

theorem runSweep_eq : runSweep s e d key i c w = (sweepShadow s e d i w).next fun u =>
    (sweepRun u e d key i w).m.next fun v =>
      (releaseChunk (noteSweep (bookScan v e (scEngine u e d i c) (sweepRun u e d key i w).acc) e d i c w.kind
        (if w.seam then some (sweepRun u e d key i w).c else none)) e.id d i c, none) := rfl

theorem worked_sweepShadow : s.worked e.id false (sweepShadow s e d i w).1 :=
  .trans (.ite (.refl s) (.vtouch s e.ctx _ _)) (worked_takeShadow _)

theorem worked_sweepRun (u : State) : u.worked e.id false (sweepRun u e d key i w).m.1 :=
  worked_foldl_scanPos w.ts ⟨(u, none), w.c0, ScanAcc.zero⟩

/-- A sweep that succeeds is noted with its seam, and its command goes on. -/
theorem runSweep_ran (hx : s.entry e.id = some x) (h : runSweep s e d key i c w = (t, none)) :
    s.goesOn t e.id ∧ ∃ y, t.entry e.id = some y ∧ w.ran i c x y := by
  rw [runSweep_eq] at h
  obtain ⟨-, h⟩ := M.next_ok h
  generalize hu : (sweepShadow s e d i w).1 = u at h
  have hsu : s.worked e.id false u := hu ▸ worked_sweepShadow
  obtain ⟨hok, h⟩ := M.next_ok h
  have hpos : (sweepRun u e d key i w).c.pos = w.c0.pos + w.ts.length := (foldl_scanPos_pos w.ts _ hok).2
  have hrun : u.worked e.id false (sweepRun u e d key i w).m.1 := worked_sweepRun u
  generalize sweepRun u e d key i w = r at h hok hpos hrun
  have hbook := worked_bookScan (e := e) (loose := false) r.m.1 (scEngine u e d i c) r.acc
  have hall := hsu.trans (hrun.trans hbook)
  generalize bookScan r.m.1 e (scEngine u e d i c) r.acc = v at h hall
  obtain ⟨y, hy, hxy⟩ := hall.entry hx
  rw [noteSweep_eq] at h
  have hnoted := State.entry_updEntry_same (f := Entry.swept i c w.kind (sweepSeams v e d i c w r.c)) (fun _ => rfl) hy
  have hrelease := worked_releaseChunk (d := d) (i := i) (loose := false) (v.updEntry e.id (Entry.swept i c w.kind (sweepSeams v e d i c w r.c))) e.id c
  obtain ⟨z, hz, hyz⟩ := hrelease.entry hnoted
  have hswept := State.goesOn.updEntry (id := e.id) v (f := Entry.swept i c w.kind (sweepSeams v e d i c w r.c)) fun _ => ⟨rfl, rfl, rfl, rfl, rfl⟩
  obtain rfl := congrArg Prod.fst h
  have hran := Sweep.ran_swept (i := i) (c := c) v e d y hpos
  refine ⟨hall.goesOn.trans (hswept.trans hrelease.goesOn), z, hz, ?_, fun hw => ?_, fun hw => ?_⟩
  · rw [hyz.sweeps, hran.sweeps, hxy.sweeps]
  · rw [hyz.seams]; exact hran.seam hw
  · rw [hyz.seams, hran.noSeam hw, hxy.seams]

theorem Sweep.ran.of_worked {y z : Entry} (h : w.ran i c x y) (hyz : Entry.worked false y z) : w.ran i c x z where
  sweeps := hyz.sweeps.trans h.sweeps
  seam hw := by rw [hyz.seams]; exact h.seam hw
  noSeam hw := by rw [hyz.seams, h.noSeam hw]

/-- A seam keeps its values where it arrives. -/
theorem Sweep.ran.seamLanded {y : Entry} (h : w.ran i c x y) (hw : w.seam = true) : w.ran i c x (y.seamLanded i c) where
  sweeps := h.sweeps
  seam _ := by
    obtain ⟨k, here, hmem, hpos⟩ := h.seam hw
    exact ⟨k, true, List.mem_map.mpr ⟨_, hmem, by simp⟩, hpos⟩
  noSeam hn := by rw [hw] at hn; cases hn

/-- The seam of a sweep is where it goes, or travels. -/
theorem passSeam_ran {y : Entry} (hx : s.entry e.id = some y) (hw : w.seam = true) (h : w.ran i c x y) :
    s.goesOn (passSeam s y d i c).1 e.id ∧ ∃ z, (passSeam s y d i c).1.entry e.id = some z ∧ w.ran i c x z := by
  obtain hid : y.id = e.id := State.entry_id hx
  have hsame {u : State} (hu : s.worked e.id false u) : s.goesOn u e.id ∧ ∃ z, u.entry e.id = some z ∧ w.ran i c x z := by
    obtain ⟨z, hz, hyz⟩ := hu.entry hx
    exact ⟨hu.goesOn, z, hz, h.of_worked hyz⟩
  unfold passSeam
  split
  · exact hsame (.refl s)
  next seam _ =>
  split
  · rw [landSeam_eq, M.next, hid]
    have hplaced : s.worked e.id false (seamPlaced s y d i c).1 := by
      unfold seamPlaced
      rw [hid]
      exact .takeSpace s y.ctx _ .seam _ _
    obtain ⟨hgo, z, hz, hran⟩ := hsame hplaced
    split
    · exact ⟨hgo, z, hz, hran⟩
    · exact ⟨hgo.trans (.updEntry _ fun _ => ⟨rfl, rfl, rfl, rfl, rfl⟩), _,
        State.entry_updEntry_same (f := Entry.seamLanded i c) (fun _ => rfl) hz, hran.seamLanded hw⟩
  · rw [hid]
    exact hsame (u := sendWelt s e.id (seamPackets s y d i c seam.carry)) (.sendWelt s _)

end

end Sys2Proof.Machine

namespace Sys2Proof.Machine

/-! ### A chunk's recurrence (R203, R204) -/

section
variable {s t : State} {e x : Entry} {key : Key} {p : Prod} {i c : Nat}

/-- A chunk whose sweeps have run has none that can start. -/
theorem sweepDue_none {o : Option Sweep} (h : sweepDue s e e.desc p i c = .ok o) (hprefix : e.run.sweeps.contains (i, c, 0) = true)
    (hsuffix : e.desc.scMode = false ∨ e.run.sweeps.contains (i, c, 1) = true) : o = none := by
  unfold sweepDue at h
  split at h
  · exact (Except.ok.inj h).symm
  unfold readySweep at h
  cases hboth : both (both (firstReset s e e.desc i c) (scIncoming s e e.desc i c)) (scStart s e e.desc i) with
  | error m => rw [hboth] at h; cases h
  | ok v =>
    rw [hboth] at h
    obtain rfl := Except.ok.inj h
    simp only [hprefix]
    rcases hsuffix with hmode | hran
    · rw [hmode]
      cases v.1.2 <;> rfl
    · simp only [hran]
      cases e.desc.scMode <;> cases v.1.1 <;> cases v.1.2 <;> rfl

/-- A sweep's outputs take their place. -/
def sweepHeld (s : State) (e : Entry) (i c : Nat) (w : Sweep) : M :=
  holdOver s e e.desc (scEngine s e e.desc i c) (if e.desc.scSel = 0 then 0 else w.ts.length * e.desc.scD * outBytes e.desc.scFmt)

/-- Its seam goes on its way. -/
def sweepPassed (s : State) (e : Entry) (i c : Nat) (w : Sweep) : M := match s.entry e.id with
  | some e1 => if w.seam then passSeam s e1 e.desc i c else (s, none)
  | none => (s, none)

/-- A sweep's run and what follows it. -/
def sweepAct (s : State) (e : Entry) (key : Key) (i c : Nat) (w : Sweep) : M :=
  (runSweep s e e.desc key i c w).next fun s => (sweepHeld s e i c w).next fun s => sweepPassed s e i c w

/-- What a chunk's step does once its key and its product are read. -/
theorem chunkAct_eq (hop : e.desc.op = opcScan) (hkey : keyOf s e = .ok key) (hp : stageProd s e e.desc = .ok p) :
    chunkAct s e i c = got s e.ctx (sweepDue s e e.desc p i c) fun o => match o with
      | none => (s, none)
      | some w => if lowerDue s e e.desc p i c then (s, none) else sweepAct s e key i c w := by
  unfold chunkAct
  simp only [hop, ne_eq, not_true_eq_false, if_false, hkey, hp, both]
  rfl

/-- With no sweep that can start, or one of a lower chunk before it, nothing is run. -/
theorem chunkAct_idle {o : Option Sweep} (hop : e.desc.op = opcScan) (hkey : keyOf s e = .ok key) (hp : stageProd s e e.desc = .ok p)
    (hdue : sweepDue s e e.desc p i c = .ok o) (h : o = none ∨ lowerDue s e e.desc p i c = true) : chunkAct s e i c = (s, none) := by
  rw [chunkAct_eq hop hkey hp, hdue]
  cases o with
  | none => rfl
  | some w => exact if_pos (h.resolve_left nofun)

theorem sweepPassed_ran {w : Sweep} {y : Entry} (hx : s.entry e.id = some y) (h : w.ran i c x y) :
    s.goesOn (sweepPassed s e i c w).1 e.id ∧ ∃ z, (sweepPassed s e i c w).1.entry e.id = some z ∧ w.ran i c x z := by
  unfold sweepPassed
  rw [hx]
  dsimp only
  split
  next hw => exact passSeam_ran (d := e.desc) hx hw h
  next => exact ⟨(State.worked.refl (loose := false) s).goesOn, y, hx, h⟩

/-- A sweep that runs is noted with its seam. -/
theorem chunkAct_ran {w : Sweep} (hop : e.desc.op = opcScan) (hkey : keyOf s e = .ok key) (hp : stageProd s e e.desc = .ok p)
    (hdue : sweepDue s e e.desc p i c = .ok (some w)) (hlower : lowerDue s e e.desc p i c = false) (hx : s.entry e.id = some x)
    (h : chunkAct s e i c = (t, none)) : s.goesOn t e.id ∧ ∃ y, t.entry e.id = some y ∧ w.ran i c x y := by
  have heq : chunkAct s e i c = sweepAct s e key i c w := by
    rw [chunkAct_eq hop hkey hp, hdue]
    exact if_neg (by simp [hlower])
  rw [heq] at h
  obtain ⟨hok, h⟩ := M.next_ok h
  obtain ⟨hgo, y, hy, hran⟩ := runSweep_ran hx (Prod.ext rfl hok)
  obtain ⟨-, h⟩ := M.next_ok h
  have hheld : (runSweep s e e.desc key i c w).1.worked e.id false (sweepHeld (runSweep s e e.desc key i c w).1 e i c w).1 :=
    worked_holdOver _ e e.desc _ _
  obtain ⟨z, hz, hyz⟩ := hheld.entry hy
  obtain ⟨hpass, hout⟩ := sweepPassed_ran hz (hran.of_worked hyz)
  rw [h] at hpass hout
  exact ⟨(hgo.trans hheld.goesOn).trans hpass, hout⟩

end

/-! ### The steps -/

section
variable {s : State} {e : Entry} {id : Nat}

/-- SLICE_ADD of a partial that waits (R45, R156). -/
theorem exec_sliceAdd {item core : Nat} {pt : Partial} (hruns : s.runs id e) (hstart : e.run.started = true)
    (hpt : (e.run.parts.find? fun x => decide (x.key = item)) = some pt) :
    exec (.sliceAdd id ⟨item, core⟩) s = .next (stageAct (charge s e core) e (addSlice (charge s e core) e item)) := by
  obtain ⟨hlive, he, hd, hpart⟩ := hruns
  have hany : e.run.parts.any (fun x => decide (x.key = item)) = true := by
    exact List.any_eq_true.mpr ⟨pt, List.mem_of_find?_eq_some hpt, List.find?_some (p := fun x : Partial => decide (x.key = item)) hpt⟩
  change Host.Outcome.next _ = _
  rw [he]
  simp only [hlive, hd, hstart, hpart, hany]
  rfl

/-- CHUNK_RECURRENCE of a SCAN (R45, R203). -/
theorem exec_chunkRecurrence {i c core : Nat} (hruns : s.runs id e) (hstart : e.run.started = true) (hop : e.desc.op = opcScan) :
    exec (.chunkRecurrence id i ⟨c, core⟩) s = .next (stageAct (charge s e core) e (chunkAct (charge s e core) e i c)) := by
  obtain ⟨hlive, he, hd, hpart⟩ := hruns
  change Host.Outcome.next _ = _
  rw [he]
  simp only [hlive, hd, hstart, hpart, hop]
  rfl

/-- SEAM_RECEIVE of a SCAN (R205). -/
theorem exec_seamReceive {i c : Nat} (hruns : s.runs id e) (hop : e.desc.op = opcScan) :
    exec (.seamReceive id i c) s = .next (if e.seamDue e.desc i c then stageAct s e (landSeam s e e.desc i c) else s) := by
  obtain ⟨hlive, he, hd, -⟩ := hruns
  change Host.Outcome.next _ = _
  rw [he]
  simp only [hlive, hd, hop]
  cases e.seamDue e.desc i c <;> rfl

end

/-- What SLICE_ADD leaves of a partial's command while the tile still waits for others, and once it does not. -/
theorem sliceAdd_leaves {s t : State} {e x : Entry} {item : Nat} {pt : Partial} {key : Key} {p : Prod}
    (hpt : (e.run.parts.find? fun x => decide (x.key = item)) = some pt) (hkey : keyOf s e = .ok key)
    (hwork : stageWork s e e.desc = .ok (.prod p)) (hx : s.entry e.id = some x) (hrun : x.run = e.run)
    (h : addSlice s e item = (t, none)) : t.ctxs = s.ctxs ∧ s.leavesOthers t e.id ∧
      ∃ z, t.entry e.id = some z ∧ z.run.adds = e.run.adds ++ [item] ∧ z.core = x.core ∧
        (∀ y, y ∈ z.run.parts ↔ y ∈ e.run.parts ∧ y.key ≠ item) ∧
        (e.tileAdded p item = false → s.flightOnly t ∧ z.run.red = e.sumWith p item pt :: e.run.red.filter fun y => decide (y.key ≠ p.itemTile item)) ∧
        (e.tileAdded p item = true → (∀ y ∈ z.run.red, y.key ≠ p.itemTile item) ∧
          ∀ q ∈ p.passes (p.tiles.getD (p.itemTile item) ⟨0, 0, 0⟩), p.blockNo (p.itemTile item) q ∈ z.run.commits) := by
  cases hall : e.tileAdded p item with
  | false =>
    obtain ⟨hflight, hothers, y, hxy, hy⟩ := addSlice_waits hpt hkey hwork hx hall h
    refine ⟨?_, hothers, _, hy, rfl, hxy.core, fun q => ?_, fun _ => ⟨hflight, ?_⟩, nofun⟩
    · rw [hflight]; rfl
    · simp [Entry.spaceDropped, Entry.added, hxy.parts, hrun]
    · simp [Entry.spaceDropped, Entry.added, hxy.red, hrun]
  | true =>
    obtain ⟨hctxs, hothers, y, z, hxy, hyz, hz, hbits⟩ := addSlice_commits hpt hkey hwork hx (by rw [hrun]; exact fun _ hb => hb) hall h
    refine ⟨hctxs, hothers, _, hz, hyz.adds, hyz.core.trans hxy.core, fun q => ?_, nofun, fun _ => ⟨fun q hq => ?_, hbits⟩⟩
    · change q ∈ z.run.parts ↔ _
      rw [hyz.parts]
      simp [Entry.spaceDropped, Entry.added, hxy.parts, hrun]
    · exact of_decide_eq_true (List.of_mem_filter (p := fun x : Partial => decide (x.key ≠ p.itemTile item)) hq)

/-- A first partial becomes its tile's sum. -/
theorem sumWith_first {e : Entry} {p : Prod} {item : Nat} {pt : Partial}
    (h : (e.run.red.find? fun y => decide (y.key = p.itemTile item)) = none) : (e.sumWith p item pt).vals = pt.vals := by
  unfold Entry.sumWith
  rw [h]

/-- A later one is added to it, each value modulo 2^64. -/
theorem sumWith_later {e : Entry} {p : Prod} {item : Nat} {pt o : Partial}
    (h : (e.run.red.find? fun y => decide (y.key = p.itemTile item)) = some o) :
    (e.sumWith p item pt).vals = List.zipWith (fun a b => wrap64 (a + b)) o.vals pt.vals := by
  unfold Entry.sumWith
  rw [h]
  rfl

/-- Space is taken for one command: the others stand. -/
theorem takeSpace_othersKept (s : State) (id c core : Nat) (kind : Held) (key n : Nat) :
    s.othersKept (takeSpace s id c core kind key n).1 id := by
  have hadd (x : Space) : s.othersKept (addSpace s id x) id := fun _ hk =>
    State.entry_updEntry_ne (f := fun e => { e with space := x :: e.space }) s (fun _ => rfl) hk
  unfold takeSpace
  split
  · exact fun _ _ => rfl
  split
  · exact hadd _
  split
  · exact hadd _
  · exact fun _ _ => rfl

/-- Where its space can be held, a seam whose packets have come arrives, and nothing else changes. -/
theorem seam_arrives {s : State} {e : Entry} {i c : Nat} (hdue : e.seamDue e.desc i c = true)
    (hruns : s.runs e.id e) (hop : e.desc.op = opcScan)
    (hroom : 8 * e.desc.scD ≤ s.regionFree (seamTarget s e e.desc i c) ∨ s.areaHeld e.ctx + 8 * e.desc.scD ≤ s.spillSize e.ctx) :
    exec (.seamReceive e.id i c) s = .next ((seamPlaced s e e.desc i c).1.updEntry e.id (Entry.seamLanded i c)) := by
  rw [exec_seamReceive hruns hop, if_pos hdue, landSeam_ok (takeSpace_ok hroom)]
  rfl

/-- Settles O51: slice adds, sweeps and seams by what each act on the stage leaves of its command and of the others. -/
theorem slicesChunksAndSeams : Obligations.SlicesChunksAndSeams := by
  unfold Obligations.SlicesChunksAndSeams
  intro s id e hruns
  obtain ⟨hlive, he, hd, hpart⟩ := hruns
  obtain rfl : e.id = id := State.entry_id he
  replace hruns : s.runs e.id e := ⟨hlive, he, hd, hpart⟩
  refine ⟨fun i c hop => ⟨fun hdue => ?_, fun hdue hroom => ?_⟩, fun hstart core => ?_⟩
  · rw [exec_seamReceive hruns hop, if_neg (by simp [hdue])]
  · have hplaced : s.worked e.id false (seamPlaced s e e.desc i c).1 := .takeSpace s e.ctx _ .seam _ _
    have hflight : s.flightOnly (seamPlaced s e e.desc i c).1 := flightOnly_takeSpace s e.id e.ctx _ .seam _ _
    obtain ⟨y, hy, hxy⟩ := hplaced.entry he
    refine ⟨_, _, seam_arrives hdue hruns hop hroom, hflight.trans rfl,
      State.entry_updEntry_same (f := Entry.seamLanded i c) (fun _ => rfl) hy, ?_, hxy.sweeps, hxy.items, fun k hk => ?_⟩
    · rw [← hxy.seams]; rfl
    · exact (State.entry_updEntry_ne (f := Entry.seamLanded i c) _ (fun _ => rfl) hk).trans (takeSpace_othersKept s e.id e.ctx _ .seam _ _ k hk)
  · have hcharged := charge_entry_same core he
    have hothers := charge_leavesOthers s e core
    refine ⟨fun item pt key p t hpt hkey hwork ht => ?_, fun i c key p o hop hkey hp hdue => ⟨fun hprefix hsuffix => ?_, fun hidle => ?_, fun w t ho hlower ht => ?_⟩⟩
    · obtain ⟨hctxs, hleave, x, hx, hadds, hcore, hparts, hwait, hcommit⟩ := sliceAdd_leaves hpt hkey hwork hcharged rfl ht
      refine ⟨?_, hctxs, fun hs => ((hothers.trans hleave) hs).2, x, hx, hadds, hcore, hparts, fun hall => ?_, hcommit⟩
      · rw [exec_sliceAdd hruns hstart hpt, ht]; rfl
      · obtain ⟨hflight, hred⟩ := hwait hall
        refine ⟨hflight, e.sumWith p item pt, ?_, sumWith_first, fun o => sumWith_later⟩
        rw [hred]
        exact List.find?_cons_of_pos (by simpa using sumWith_key)
    · exact sweepDue_none hdue hprefix hsuffix
    · rw [exec_chunkRecurrence hruns hstart hop, chunkAct_idle hop hkey hp hdue hidle]; rfl
    · rw [ho] at hdue
      obtain ⟨hgo, x, hx, hran⟩ := chunkAct_ran hop hkey hp hdue hlower hcharged ht
      obtain ⟨y, hy, -, -, hcore, -⟩ := hgo.entry _ hcharged
      obtain rfl : x = y := Option.some.inj (hx.symm.trans hy)
      refine ⟨?_, hgo.ctxs, fun hs => ((hothers.trans hgo.others) hs).2, x, hx, hran.sweeps, hcore, hran.seam, hran.noSeam⟩
      rw [exec_chunkRecurrence hruns hstart hop, ht]; rfl

end Sys2Proof.Machine

namespace Sys2Proof.Machine

/-! ### A SCAN whose own read moves its context's state table (O49) -/

/-- A SCAN of two entries, with state handles 1 and 2, in partition 5 and held for a slot. Its context is `farRoot`, whose CTX_STATE_TBL
would stand at 0xd00128, the offset of BLK_CACHE of partition 5. -/
def farScan : Entry :=
  { farStore with ctx := farRoot, part := 5, held := some 0, pkt := ⟨[opcScan * 2 ^ 56 + 2 ^ 52, 0, 1, 2 ^ 39 + 2, 0, 0, 0, 0].map (BitVec.ofNat 64),
    [3 * 2 ^ 56, 0x3000, 0, 2 ^ 39 + 2 ^ 14 + 0x80, 16 * 2 ^ 8, 0, 0x4000, 0].flatMap (leBytes 8), 0⟩ }

/-- The structure in which partition 5 owns every core, with one accumulator tile for streams, and all memory. -/
def farScanLayout : Layout :=
  { builtIn with parts := List.replicate 5 noPart ++ [{ builtIn.part 0 with frag := { (builtIn.part 0).frag with accTiles := 1 } }] }

/-- The part in RUN with that SCAN in flight; BLK_CACHE of partition 5 has counted 31 misses. -/
def farScanRegs : State :=
  ((({ State.reset with
      flight := [farScan]
      ctxs := [(farRoot, { Ctx.free with part := 5 })]
      tick := { State.reset.tick with lcCores := 2 ^ 64 - 1 }
      hol := { State.reset.hol with cur := farScanLayout, verified := true }
      pwr := { State.reset.pwr with on := 2 ^ 30 - 1, ready := 2 ^ 30 - 1, volts := 4800 } }).setReg Reg.GLB_STATE
    (BitVec.ofNat 64 stRun)).setReg (Reg.CTX_PT_ROOT farRoot) 0x10000#64).setReg (Reg.BLK_CACHE 5) 31#64

/-- The same with a page table that maps the context's first GiB into the bulk tier. The state table at address 0 is clear; the one at 32
would have a resident state of one element for handle 2. -/
def farScanState : State :=
  physWrite (physWrite (physWrite farScanRegs 0x10000 (leBytes 8 (2 ^ 63 + 0x20000)))
    0x20000 (leBytes 8 (2 ^ 63 + 2 ^ 62 + 2 ^ 61 + 0x4000000000)))
    (0x4000000000 + 96) (leBytes 8 (2 ^ 24) ++ leBytes 8 (whResident * 2 ^ 62))

/-- The state once the stage has read what it takes before its checks: nothing. -/
def farScanLoaded : State := updRun (touchAll farScanState farRoot []) 7 fun r => { r with aux := [], ptrs := [] }

/-- The state once the stage has taken its slots, and its entry then. -/
def farScanTaken : State := (stageTake farScanLoaded farScan farScan.desc).1
@[inherit_doc farScanTaken] def farScanEntry : Entry := (farScanTaken.entry 7).getD farScan

/-- The state in which the stage has begun. -/
def farScanBegun : State := (stageBegin farScanTaken farScanEntry farScan.desc (farScanTaken.stageArrays farScan farScan.desc)).1

theorem farScanState_runs : farScanState.runs 7 farScan := by
  unfold State.runs
  decide +kernel

theorem farScanState_still : farScanState.mem.still := by
  unfold Mem.still
  decide +kernel

/-- Seed and pages are there: nothing is taken at the admission. -/
theorem farScanState_admitted : admitTake farScanState farScan = (farScanState, none) := rfl

theorem farScanState_entry : farScanState.entry 7 = some farScan := by decide +kernel

/-- An act that meets no error succeeds. -/
theorem eq_of_noError {m : M} (h : m.2.isNone = true) : m = (m.1, none) := Prod.ext rfl (Option.isNone_iff_eq_none.mp h)

theorem farScanTaken_ok : stageTake farScanLoaded farScan farScan.desc = (farScanTaken, none) := eq_of_noError (by decide +kernel)

theorem farScanTaken_entry : farScanTaken.entry 7 = some farScanEntry := by
  obtain ⟨x, hx⟩ := Option.isSome_iff_exists.mp (show (farScanTaken.entry 7).isSome = true by decide +kernel)
  rw [farScanEntry, hx, Option.getD_some]

/-- The work of the SCAN's stage. -/
def farScanWork : Work := (stageWork farScanTaken farScanEntry farScan.desc).toOption.getD (.rng 0)

theorem eq_ok_of_isSome {α : Type} {x : Except MErr α} {a : α} (h : x.toOption.isSome = true) : x = .ok (x.toOption.getD a) := by
  cases x with
  | error m => cases h
  | ok b => rfl

theorem farScanWork_ok : stageWork farScanTaken farScanEntry farScan.desc = .ok farScanWork := eq_ok_of_isSome (by decide +kernel)

theorem farScanWork_count : farScanWork.count ≠ 0 := by decide +kernel

theorem farScanBegun_ok :
    stageBegin farScanTaken farScanEntry farScan.desc (farScanTaken.stageArrays farScan farScan.desc) = (farScanBegun, none) :=
  eq_of_noError (by decide +kernel)

/-- No slot is taken for handle 2. -/
theorem farScanBegun_noSlot : (farScanBegun.reservedSlot farRoot 2).isSome = false := by decide +kernel

/-- Its entry, before the stage starts, has no state. -/
theorem farScanLoaded_noState : (readSEnt farScanLoaded farRoot 2).toOption.map (·.wh) = some whNone := by decide +kernel

/-- Refutes O49: no bound of the statement keeps the context's number below 4096. The SCAN of context `farRoot` reads the entry of its
first state handle past the cache; the count of the miss, BLK_CACHE of partition 5, is at the place of the context's CTX_STATE_TBL,
so that the entry of its second handle is read in another table, where it has a slot: the stage starts and takes none for it. -/
theorem not_stageStarts : ¬ Obligations.StageStarts := by
  unfold Obligations.StageStarts
  intro h
  obtain ⟨-, hstart⟩ := h farScanState 7 0 farScan farScanState_runs (by decide +kernel) (by decide +kernel) rfl (by decide +kernel)
    (.slotAcquire 7) farScanState farScan (.inr ⟨rfl, rfl, by decide +kernel, by decide⟩) farScanState_entry
  obtain ⟨-, -, hstart⟩ := hstart farScanState farScan [] [] farScanState_admitted farScanState_entry rfl (by decide +kernel)
    (by decide +kernel) (by decide +kernel) rfl rfl (by decide +kernel) (by decide +kernel) (.inr (by decide +kernel))
  obtain ⟨x, -, -, -, -, -, -, -, -, -, -, -, -, -, -, hslots, -⟩ := hstart farScanTaken farScanEntry farScanWork farScanBegun farScanBegun
    (by decide +kernel) (by decide +kernel) farScanTaken_ok farScanTaken_entry farScanWork_ok farScanWork_count farScanBegun_ok
    (if_neg (by decide +kernel))
  rcases hslots farScanState_still (by decide +kernel) (by decide +kernel) (by decide +kernel) 1 (by decide +kernel) with hslot | ⟨n, hread, hwh, -, -⟩
  · exact absurd hslot (by rw [show farScan.ctx = farRoot from rfl]; exact Bool.eq_false_iff.mp farScanBegun_noSlot)
  · refine hwh (Option.some.inj ?_)
    rw [← farScanLoaded_noState]
    exact congrArg (fun r : Except MErr SEnt => r.toOption.map (·.wh)) hread.symm

end Sys2Proof.Machine

namespace Sys2Proof.Machine

/-! ### What an edge leaves of the tick and of the device state

Most of what an edge does changes no register of which O29 speaks. `State.calm strict s t` says so: the tick number, the length of the
last interval and HOLDOVER stand, and the device state but for a RUN that ends with its last context; with `strict`, what the tick holds
of the interval stands too. -/

/-- The registers that hold the device state, the tick number, the last interval's length and HOLDOVER. -/
def edgeRegs : List Nat := [Reg.GLB_STATE, Reg.TCK_STATUS, Reg.TCK_LAST_INTERVAL, Reg.CLX_STAT]

/-- The device state stands, or RUN ends. -/
def State.runStandsOrEnds (s t : State) : Prop := t.devState = s.devState ∨ s.devState = stRun ∧ t.devState = stReady

theorem State.runStandsOrEnds.trans {s t u : State} (h : s.runStandsOrEnds t) (h' : t.runStandsOrEnds u) : s.runStandsOrEnds u := by
  rcases h with hs | ⟨hrun, hready⟩
  · rcases h' with hs' | ⟨hrun, hready⟩
    · exact .inl (hs'.trans hs)
    · exact .inr ⟨hs.symm.trans hrun, hready⟩
  · rcases h' with hs' | ⟨hrun', -⟩
    · exact .inr ⟨hrun, hs'.trans hready⟩
    · rw [hready] at hrun'; cases hrun'

theorem State.runStandsOrEnds_of_reg {s t : State} (h : t.reg Reg.GLB_STATE = s.reg Reg.GLB_STATE) : s.runStandsOrEnds t :=
  .inl (congrArg (fld · 2 0) h)

/-- A step that leaves the tick number, the last interval's length and HOLDOVER, and the device state but for the end of RUN. -/
structure State.calm (strict : Bool) (s t : State) : Prop where
  num : t.tickNum = s.tickNum
  len : t.fldR Reg.TCK_LAST_INTERVAL 58 32 = s.fldR Reg.TCK_LAST_INTERVAL 58 32
  hold : t.fldR Reg.CLX_STAT 59 59 = s.fldR Reg.CLX_STAT 59 59
  state : s.runStandsOrEnds t
  dev : t.dev = s.dev
  ends : strict = true → t.tick.busyEnd = s.tick.busyEnd ∧ t.fab.edgeAt = s.fab.edgeAt

namespace State.calm
variable {strict : Bool} {s t u : State} {α : Type}

theorem trans (h : s.calm strict t) (h' : t.calm strict u) : s.calm strict u where
  num := h'.num.trans h.num
  len := h'.len.trans h.len
  hold := h'.hold.trans h.hold
  state := h.state.trans h'.state
  dev := h'.dev.trans h.dev
  ends hl := ⟨(h'.ends hl).1.trans (h.ends hl).1, (h'.ends hl).2.trans (h.ends hl).2⟩

/-- What leaves the four registers, the device, and what the tick holds of the interval. -/
theorem of_regs (hr : ∀ off ∈ edgeRegs, t.reg off = s.reg off) (hd : t.dev = s.dev)
    (hb : strict = true → t.tick.busyEnd = s.tick.busyEnd ∧ t.fab.edgeAt = s.fab.edgeAt) : s.calm strict t where
  num := congrArg (fld · 63 16) (hr _ (by decide))
  len := congrArg (fld · 58 32) (hr _ (by decide))
  hold := congrArg (fld · 59 59) (hr _ (by decide))
  state := State.runStandsOrEnds_of_reg (hr _ (by decide))
  dev := hd
  ends := hb

/-- What changes no register, nor the device, nor what the tick holds of the interval. -/
theorem same (hr : t.regs = s.regs) (hd : t.dev = s.dev) (hb : t.tick.busyEnd = s.tick.busyEnd) (he : t.fab.edgeAt = s.fab.edgeAt) :
    s.calm strict t :=
  of_regs (fun off _ => congrArg (spGet (regReset off) · off) hr) hd fun _ => ⟨hb, he⟩

theorem refl (s : State) : s.calm strict s := same rfl rfl rfl rfl

theorem ite {p : Prop} [Decidable p] (h : s.calm strict t) (h' : s.calm strict u) : s.calm strict (if p then t else u) := by
  split
  · exact h
  · exact h'

theorem thenIf {p : Prop} [Decidable p] (h : s.calm strict t) (h' : t.calm strict u) : s.calm strict (if p then u else t) :=
  ite (h.trans h') h

theorem foldl {f : State → α → State} (hf : ∀ u a, State.calm strict u (f u a)) (s : State) (l : List α) : s.calm strict (l.foldl f s) := by
  induction l generalizing s with
  | nil => exact refl s
  | cons a l ih => exact (hf s a).trans (ih _)

/-! ### What holds none of it -/

section
variable (s : State)

theorem putMem (m : Mem) : s.calm strict (s.putMem m) := same rfl rfl rfl rfl
theorem putFree (n : Nat) : s.calm strict (s.putFree n) := same rfl rfl rfl rfl
theorem putEff (l : List (Nat × Word)) : s.calm strict (s.putEff l) := same rfl rfl rfl rfl
theorem putRetained (l : List Retained) : s.calm strict (s.putRetained l) := same rfl rfl rfl rfl
theorem putPrefetched (l : List Prefetched) : s.calm strict (s.putPrefetched l) := same rfl rfl rfl rfl
theorem putFlight (l : List Entry) : s.calm strict (s.putFlight l) := same rfl rfl rfl rfl
theorem putSlots (l : List Slot) : s.calm strict (s.putSlots l) := same rfl rfl rfl rfl
theorem putImages (l : List (Nat × Nat × Nat)) : s.calm strict (s.putImages l) := same rfl rfl rfl rfl
theorem putKv (k : Kv) : s.calm strict (s.putKv k) := same rfl rfl rfl rfl
theorem putHol (h : Hol) : s.calm strict (s.putHol h) := same rfl rfl rfl rfl
theorem putPwr (p : Pwr) : s.calm strict (s.putPwr p) := same rfl rfl rfl rfl
theorem putRings (l : List (Nat × Ring)) : s.calm strict (s.putRings l) := same rfl rfl rfl rfl
theorem putMig (m : Mig) : s.calm strict (s.putMig m) := same rfl rfl rfl rfl
theorem putTick (k : Tick) (h : k.busyEnd = s.tick.busyEnd) : s.calm strict (s.putTick k) := same rfl rfl h rfl
theorem putFab (f : Fab) (h : f.edgeAt = s.fab.edgeAt) : s.calm strict (s.putFab f) := same rfl rfl rfl h
theorem setFab (f : Fab → Fab) (h : ∀ x, (f x).edgeAt = x.edgeAt) : s.calm strict (s.setFab f) :=
  same rfl rfl rfl (h s.fab)
theorem setCtx (n : Nat) (c : Ctx) : s.calm strict (s.setCtx n c) := same rfl rfl rfl rfl
theorem setRing (r : Nat) (g : Ring) : s.calm strict (s.setRing r g) := same rfl rfl rfl rfl
theorem updEntry (id : Nat) (f : Entry → Entry) : s.calm strict (s.updEntry id f) := same rfl rfl rfl rfl

end

/-! ### Registers -/

/-- A register that is none of the four. -/
theorem setReg (s : State) {off : Nat} (h : off ∉ edgeRegs) (w : Word) : s.calm strict (s.setReg off w) :=
  of_regs (fun _ ho => State.reg_setReg_ne s off _ w (ne_of_mem_of_not_mem ho h)) rfl fun _ => ⟨rfl, rfl⟩

theorem setF (s : State) {off : Nat} (hi lo v : Nat) (h : off ∉ edgeRegs) : s.calm strict (s.setF off hi lo v) := setReg s h _
theorem addF (s : State) {off : Nat} (hi lo n : Nat) (h : off ∉ edgeRegs) : s.calm strict (s.addF off hi lo n) := setReg s h _
theorem satF (s : State) {off : Nat} (hi lo n : Nat) (h : off ∉ edgeRegs) : s.calm strict (s.satF off hi lo n) := setReg s h _
theorem setBoth (s : State) {off : Nat} (w : Word) (h : off ∉ edgeRegs) : s.calm strict (s.setBoth off w) :=
  (setReg s h w).trans (same rfl rfl rfl rfl)

/-- A field of TCK_STATUS below the tick number. -/
theorem setStatus (s : State) {hi lo : Nat} (v : Nat) (h : lo ≤ hi) (hhi : hi < 16) : s.calm strict (s.setF Reg.TCK_STATUS hi lo v) where
  num := State.fldR_setF_disjoint s Reg.TCK_STATUS hi lo v 63 16 h (by omega) (.inr hhi)
  len := congrArg (fld · 58 32) (State.reg_setF_ne s _ hi lo v _ (by decide))
  hold := congrArg (fld · 59 59) (State.reg_setF_ne s _ hi lo v _ (by decide))
  state := State.runStandsOrEnds_of_reg (State.reg_setF_ne s _ hi lo v _ (by decide))
  dev := rfl
  ends _ := ⟨rfl, rfl⟩

/-- A field of CLX_STAT beside HOLDOVER. -/
theorem setClx (s : State) {hi lo : Nat} (v : Nat) (h : lo ≤ hi) (h64 : hi < 64) (hd : 59 < lo ∨ hi < 59) :
    s.calm strict (s.setF Reg.CLX_STAT hi lo v) where
  num := congrArg (fld · 63 16) (State.reg_setF_ne s _ hi lo v _ (by decide))
  len := congrArg (fld · 58 32) (State.reg_setF_ne s _ hi lo v _ (by decide))
  hold := State.fldR_setF_disjoint s Reg.CLX_STAT hi lo v 59 59 h h64 hd
  state := State.runStandsOrEnds_of_reg (State.reg_setF_ne s _ hi lo v _ (by decide))
  dev := rfl
  ends _ := ⟨rfl, rfl⟩

/-! ### Acts that may fail -/

theorem next {m : M} {f : State → M} (hm : s.calm strict m.1) (hf : ∀ u, State.calm strict u (f u).1) : s.calm strict (m.next f).1 := by
  unfold M.next
  split
  · exact hm
  · exact hm.trans (hf _)

theorem foldM {f : State → α → M} (hf : ∀ u a, State.calm strict u (f u a).1) (s : State) (l : List α) : s.calm strict (foldM f s l).1 := by
  unfold Machine.foldM
  exact List.foldlRecOn (motive := fun m : M => s.calm strict m.1) l _ (refl s) fun m hm a _ => hm.next fun u => hf u a

/-- Accesses once the frames being cleared are clear. -/
theorem afterClears {f : State → State} (hf : ∀ u, State.calm strict u (f u)) (s : State) : s.calm strict (afterClears s f) :=
  (putMem s { s.mem with clearing := [] }).trans ((hf _).trans (putMem _ _))

/-! ### Tallies, events and the log -/

theorem tally (s : State) (k n : Nat) : s.calm strict (tally s k n) := ite (refl s) (putTick s _ rfl)

theorem platformEvent (s : State) (kind data : Nat) : s.calm strict (platformEvent s kind data) :=
  of_regs (fun off h => platformEvent_reg s kind data off (ne_of_mem_of_not_mem h (by decide))) (by simp) fun _ => ⟨by simp, by simp⟩

theorem logError (s : State) (a : LogArgs) : s.calm strict (logError s a) :=
  of_regs (fun off h => logError_reg s a off (ne_of_mem_of_not_mem h (by decide)) (ne_of_mem_of_not_mem h (by decide))) (by simp)
    fun _ => ⟨by simp, by simp⟩

theorem signalMsi (s : State) (fn v : Nat) : s.calm strict (signalMsi s fn v) := ite (same rfl rfl rfl rfl) (same rfl rfl rfl rfl)

/-- RUN ends. -/
theorem enterReady (h : s.devState = stRun) : s.calm strict (enterState s stReady) where
  num := congrArg (fld · 63 16) (enterState_reg s _ _ (by decide) (by decide))
  len := congrArg (fld · 58 32) (enterState_reg s _ _ (by decide) (by decide))
  hold := congrArg (fld · 59 59) (enterState_reg s _ _ (by decide) (by decide))
  state := .inr ⟨h, enterState_devState s _ (by decide)⟩
  dev := enterState_dev s _
  ends _ := ⟨by rw [enterState_tick], by rw [enterState_fab]⟩

end State.calm

end Sys2Proof.Machine

namespace Sys2Proof.Machine

/-! ### Where the registers of a controller, a cache and a core lie -/

section
variable {l : Layout} {s : State} {pa p n va : Nat}

theorem partOfCore_lt {c : Nat} (h : l.partOfCore c = some p) : p < 16 := List.mem_range.mp (List.mem_of_find?_eq_some h)

theorem ownerOf_lt (h : l.ownerOf pa = some p) : p < 16 := by
  unfold Layout.ownerOf at h
  split at h
  · exact partOfCore_lt h
  split at h
  · split at h
    · exact List.mem_range.mp (List.mem_of_find?_eq_some h)
    · cases h
  · cases h

theorem vault_lt (h : pa < nearTop) : pa / vaultSize < 64 := by
  unfold nearTop at h
  exact Nat.div_lt_of_lt_mul (by rwa [Nat.mul_comm])

/-- The vaults of a span are below 64. -/
theorem spanVaults_lt (i : Nat) (h : pa < nearTop) {v : Nat} (hv : v ∈ l.spanVaults i pa) : v < 64 := by
  have hpa := vault_lt h
  unfold Layout.spanVaults at hv
  dsimp only at hv
  split at hv
  · exact List.mem_range.mp (List.mem_of_mem_filter hv)
  split at hv
  · have hq : v ∈ quadCores (quadOf (pa / vaultSize)) := ((sortBy_le_spec _).1 v).mp hv
    simp only [quadCores, quadBase, quadOf, List.mem_cons, List.not_mem_nil, or_false] at hq
    omega
  · rw [List.mem_singleton] at hv
    omega

theorem vaultOf_lt (s : State) (h : pa < nearTop) : s.vaultOf pa < 64 := by
  have hpa := vault_lt h
  unfold State.vaultOf
  split
  next p _ =>
    unfold Layout.nearPlace
    dsimp only
    split
    · exact hpa
    next hne =>
      rw [List.getD_eq_getElem _ _ (Nat.mod_lt _ (Nat.pos_of_ne_zero hne))]
      exact spanVaults_lt p h (List.getElem_mem _)
  next => exact hpa

theorem notMem_edgeRegs {off : Nat} (h1 : off ≠ Reg.GLB_STATE) (h2 : off ≠ Reg.TCK_STATUS) (h3 : off ≠ Reg.TCK_LAST_INTERVAL)
    (h4 : off ≠ Reg.CLX_STAT) : off ∉ edgeRegs := by
  simp [edgeRegs, h1, h2, h3, h4]

/-- The error counts of a controller are none of the four registers. -/
theorem errReg_notMem (s : State) (pa : Nat) : s.errReg pa ∉ edgeRegs := by
  unfold State.errReg
  split
  next h =>
    have hv := vaultOf_lt s h
    apply notMem_edgeRegs <;> simp only [Reg.MEM_ERR, Reg.GLB_STATE, Reg.TCK_STATUS, Reg.TCK_LAST_INTERVAL, Reg.CLX_STAT] <;> omega
  next => decide

theorem blkCache_notMem (h : p < 16) : Reg.BLK_CACHE p ∉ edgeRegs := by
  apply notMem_edgeRegs <;> simp only [Reg.BLK_CACHE, Reg.GLB_STATE, Reg.TCK_STATUS, Reg.TCK_LAST_INTERVAL, Reg.CLX_STAT] <;> omega

theorem lpeRetain_notMem (core : Nat) : Reg.LPE_RETAIN core ∉ edgeRegs := by
  apply notMem_edgeRegs <;> simp only [Reg.LPE_RETAIN, Reg.GLB_STATE, Reg.TCK_STATUS, Reg.TCK_LAST_INTERVAL, Reg.CLX_STAT] <;> omega

/-! ### Contexts that translate -/

/-- A table entry that another reason than translation bars, or none, belongs to the partition. -/
theorem owner_of_entryErr {ea : Nat} (h : s.entryErr p va ea ≠ some (.trans va)) : p < 16 := by
  by_contra hp
  refine h (if_pos fun howner => hp (ownerOf_lt howner))

theorem ctxPart_lt_of_translate {wr : Bool} {x : Leaf} (h : translate s n va wr = .ok x) : s.ctxPart n < 16 := by
  unfold translate at h
  dsimp only at h
  split at h
  · cases h
  split at h
  · cases h
  next hnone => exact owner_of_entryErr (by rw [hnone]; nofun)

theorem ctxPart_lt_of_walk {ea : Nat} (h : ea ∈ s.walk n va) : s.ctxPart n < 16 := by
  unfold State.walk at h
  dsimp only at h
  split at h
  · cases h
  split at h
  next hdata => exact owner_of_entryErr (by rw [hdata]; nofun)
  · cases h
  next hnone => exact owner_of_entryErr (by rw [hnone]; nofun)

end

/-! ### Accesses of memory (R286 to R293, R297) -/

namespace State.calm
variable {strict : Bool} (s : State)

theorem adviseRow (pa : Nat) : s.calm strict (adviseRow s pa) := (satF s _ _ _ (errReg_notMem s pa)).trans (logError _ _)

theorem correctUnit (u : Nat) (ctx : Option Nat) : s.calm strict (correctUnit s u ctx) := by
  have h (m : Mem) (k : Nat) (a : LogArgs) : s.calm strict (Machine.logError (Machine.tally ((s.putMem m).satF ((s.putMem m).errReg u) 63 48 1) k 1) a) :=
    (putMem s m).trans ((satF _ 63 48 1 (errReg_notMem _ u)).trans ((tally _ _ _).trans (logError _ _)))
  exact ite ((h _ _ _).trans (adviseRow _ u)) (h _ _ _)

theorem noteBadUnit (u status : Nat) (ctx : Option Nat) : s.calm strict (noteBadUnit s u status ctx) := by
  have h (hi lo k : Nat) : s.calm strict (Machine.tally (s.satF (s.errReg u) hi lo 1) k 1) :=
    (satF s hi lo 1 (errReg_notMem s u)).trans (tally _ _ _)
  unfold Machine.noteBadUnit
  exact (ite (h _ _ _) (h _ _ _)).trans ((satF _ _ _ _ (errReg_notMem _ u)).trans (logError _ _))

theorem loseLine (ctx : Option Nat) (line : Nat) : s.calm strict (loseLine s ctx line) := by
  unfold Machine.loseLine
  dsimp only
  exact trans ((putMem s _).trans (putFree _ _)) (logError _ _)

theorem noteUnits (pa n : Nat) (ctx : Option Nat) : s.calm strict (noteUnits s pa n ctx) :=
  ite (refl s) (foldl (fun t u => ite (refl t) (ite (noteBadUnit t u _ ctx) (ite (correctUnit t u ctx) (refl t)))) s _)

theorem noteRead (pa n : Nat) (ctx : Option Nat) : s.calm strict (noteRead s pa n ctx) :=
  (noteUnits s pa n ctx).trans (foldl (fun t l => loseLine t ctx l) _ _)

theorem noteMerge (pa n : Nat) (ctx : Option Nat) : s.calm strict (noteMerge s pa n ctx) :=
  ite (refl s) (foldl (fun t u => noteRead t u 1 ctx) s _)

theorem evict (c : CacheLine) : s.calm strict (evict s c) := ite (loseLine s none c.line) (ite (putMem s _) (putMem s _))

theorem fillLine (line : Nat) (ctx : Option Nat) : s.calm strict (fillLine s line ctx) :=
  ite (refl s) (foldl (fun t u => ite (correctUnit t u ctx) (refl t)) s _)

variable {p : Nat} (hp : p < 16)
include hp

theorem cacheLine (line : Nat) (write whole : Bool) (ctx : Option Nat) : s.calm strict (cacheLine s p line write whole ctx) := by
  have hcount (u : State) (hi lo : Nat) : u.calm strict (u.addF (Reg.BLK_CACHE p) hi lo 1) := addF u hi lo 1 (blkCache_notMem hp)
  unfold Machine.cacheLine
  refine ite (refl s) ?_
  split
  · exact trans (putMem s _) (hcount _ _ _)
  · dsimp only
    refine trans ?_ (hcount _ _ _)
    have hroom (o : Option CacheLine) : s.calm strict (match o with
        | some c => Machine.evict s c
        | none => s) := by
      cases o with
      | some c => exact evict s c
      | none => exact refl s
    exact trans (ite (hroom _) ((hroom _).trans (fillLine _ line ctx))) (putMem _ _)

theorem touchPhys (pa n : Nat) (write : Bool) (ctx : Option Nat) : s.calm strict (touchPhys s p pa n write ctx) :=
  foldl (fun _ _ => ite (trans (putMem _ _) (cacheLine _ hp _ _ _ _)) (putMem _ _)) s _

theorem readPhys (pa n : Nat) (ctx : Option Nat) : s.calm strict (readPhys s p pa n ctx) :=
  (touchPhys s hp pa n false ctx).trans (noteRead _ pa n ctx)

omit hp

theorem walked (n va : Nat) : s.calm strict (walked s n va) := by
  have h : s.calm strict ((s.walk n va).foldl (fun t ea => Machine.readPhys t (s.ctxPart n) ea 8 (some n)) s) :=
    List.foldlRecOn (motive := fun t : State => s.calm strict t) _ _ (refl s) fun t ht ea hea =>
      ht.trans (readPhys t (ctxPart_lt_of_walk hea) ea 8 _)
  unfold Machine.walked
  dsimp only
  split
  · exact ite (h.trans (putMem _ _)) h
  · exact h

theorem vtouch (c va n : Nat) : s.calm strict (vtouch s c va n) := by
  refine foldl (fun u pc => ?_) s _
  split
  next hl => exact ite (walked u c pc.1) ((walked u c pc.1).trans (readPhys _ (ctxPart_lt_of_translate hl) _ _ _))
  next => exact walked u c pc.1

theorem dropWhere (hit : Retained → Bool) : s.calm strict (dropWhere s hit) := by
  have hcount (t : State) (r : Retained) : t.calm strict (t.addF (Reg.LPE_RETAIN r.core) 31 0 1) := addF t 31 0 1 (lpeRetain_notMem r.core)
  unfold Machine.dropWhere
  exact (putRetained s _).trans (foldl hcount _ _)

include hp in
theorem storePhys (pa : Nat) (bs : List Byte) (ctx : Option Nat) : s.calm strict (storePhys s p pa bs ctx) := by
  unfold Machine.storePhys
  dsimp only
  exact trans (trans (trans (dropWhere s _) (touchPhys _ hp _ _ _ _)) (noteMerge _ _ _ _)) (putMem _ _)

theorem writePieces (s0 : State) (c : Nat) (pcs : List (Nat × Nat)) (bs : List Byte) : s.calm strict (writePieces s0 s c pcs bs) := by
  induction pcs generalizing s bs with
  | nil => exact refl s
  | cons pc pcs ih =>
    unfold Machine.writePieces
    split
    · exact walked s c pc.1
    next hl => exact ite (refl s) (((walked s c pc.1).trans (storePhys _ (ctxPart_lt_of_translate hl) _ _ _)).trans (ih _ _))

theorem vwrite (c va : Nat) (bs : List Byte) : s.calm strict (vwrite s c va bs).1 := writePieces s s c _ bs

theorem noteErr (c : Nat) (x : MErr) : s.calm strict (noteErr s c x) := by
  unfold Machine.noteErr
  split
  · exact walked s c _
  · exact vtouch s c _ 1
  · exact refl s

variable {s} {α : Type}

theorem got {c : Nat} {r : Except MErr α} {f : α → M} (hf : ∀ a, s.calm strict (f a).1) : s.calm strict (got s c r f).1 := by
  unfold Machine.got
  cases r with
  | error x => exact noteErr s c x
  | ok a => exact hf a

theorem reading {c va n : Nat} {r : Except MErr α} {f : State → α → M} (hf : ∀ u a, State.calm strict u (f u a).1) :
    s.calm strict (reading s c va n r f).1 := by
  unfold Machine.reading
  cases r with
  | error x => exact noteErr s c x
  | ok a => exact (vtouch s c va n).trans (hf _ a)

end State.calm

end Sys2Proof.Machine

namespace Sys2Proof.Machine

theorem pwrGroup_notMem (g : Nat) : Reg.PWR_GROUP g ∉ edgeRegs := by
  apply notMem_edgeRegs <;> simp only [Reg.PWR_GROUP, Reg.GLB_STATE, Reg.TCK_STATUS, Reg.TCK_LAST_INTERVAL, Reg.CLX_STAT] <;> omega

theorem fiCount_notMem (i : Nat) : Reg.FI_COUNT i ∉ edgeRegs := by
  apply notMem_edgeRegs <;> simp only [Reg.FI_COUNT, Reg.GLB_STATE, Reg.TCK_STATUS, Reg.TCK_LAST_INTERVAL, Reg.CLX_STAT] <;> omega

theorem plkStat_notMem (p : Nat) : Reg.PLK_STAT p ∉ edgeRegs := by
  apply notMem_edgeRegs <;> simp only [Reg.PLK_STAT, Reg.GLB_STATE, Reg.TCK_STATUS, Reg.TCK_LAST_INTERVAL, Reg.CLX_STAT] <;> omega

theorem plkErr_notMem (p : Nat) : Reg.PLK_ERR p ∉ edgeRegs := by
  apply notMem_edgeRegs <;> simp only [Reg.PLK_ERR, Reg.GLB_STATE, Reg.TCK_STATUS, Reg.TCK_LAST_INTERVAL, Reg.CLX_STAT] <;> omega

namespace State.calm
variable {strict : Bool} (s : State)

/-! ### Fabric messages (R317, R318) -/

theorem transmit (p : Nat) (m : FabMsg) : s.calm strict (transmit s p m) := same rfl rfl rfl rfl

theorem fiStep (p dir vc ty : Nat) : s.calm strict (fiStep s p dir vc ty).2 := by
  unfold Machine.fiStep
  refine List.foldlRecOn (motive := fun acc : Option Nat × State => s.calm strict acc.2) _ _ (refl s) fun acc h i _ => ?_
  dsimp only
  generalize (if decide (acc.2.fldR (Reg.FI_RULE i) 60 58 = 1) = true ∧ acc.2.fab.seen.getD i 0 = 0 then 0
    else acc.2.fab.seen.getD i 0 + 1) = n
  split
  · exact h
  · have hseen : acc.2.calm strict ((acc.2.putFab { acc.2.fab with seen := updAt acc.2.fab.seen i fun _ => n }).putFree (acc.2.free + 1)) := same rfl rfl rfl rfl
    split
    · dsimp only
      exact (h.trans hseen).trans (trans (addF _ _ _ _ (fiCount_notMem i)) (logError _ _))
    · exact h.trans hseen

theorem transmitHeld (p : Nat) (l : List (Nat × Nat × FabMsg)) : s.calm strict (l.foldl (fun s h => Machine.transmit s p h.2.2) s) := by
  have h (t : State) (h : Nat × Nat × FabMsg) : t.calm strict (Machine.transmit t p h.2.2) := transmit t p h.2.2
  exact foldl h s l

theorem sendOn (direct : Bool) (p : Nat) (m : FabMsg) : s.calm strict (sendOn s direct p m) := by
  have h := fiStep (strict := strict) s p 0 (bodyVc direct m.body) (bodyType m.body)
  unfold Machine.sendOn
  split
  next s1 heq =>
    rw [heq] at h
    refine (h.trans (transmit s1 p m)).trans ?_
    dsimp only
    generalize Machine.transmit s1 p m = s2
    exact (putFab s2 _ (by rfl)).trans (transmitHeld _ p _)
  next i s1 heq =>
    rw [heq] at h
    exact h.trans (ite (refl _) (ite (transmit s1 p m) (putFab s1 _ (by rfl))))

theorem fabSend (direct : Bool) (dst tag : Nat) (body : FabBody) : s.calm strict (fabSend s direct dst tag body) := by
  have hseq : s.calm strict (nextMseq s (4 * dst + bodyVc direct body)).2 := same rfl rfl rfl rfl
  unfold Machine.fabSend
  dsimp only
  split
  · exact hseq.trans (sendOn _ direct _ _)
  · exact hseq.trans (setClx _ _ (by decide) (by decide) (by decide))

theorem sendEach (ids : List Nat) (body : FabBody) : s.calm strict (sendEach s ids body) := foldl (fun t i => fabSend t false i 0 body) s _

theorem fabBroadcast (body : FabBody) : s.calm strict (fabBroadcast s body) :=
  trans (t := (nextMseq s (4 * 65536)).2) (same rfl rfl rfl rfl) (foldl (fun t p => sendOn t false p _) _ _)

theorem sendAborts (e : Entry) : s.calm strict (sendAborts s e) := foldl (fun t _ => ite (refl t) (fabSend t _ _ _ _)) s _

/-! ### The tick group (R323 to R328) -/

theorem updMember (id : Nat) (f : Member → Member) : s.calm strict (updMember s id f) := same rfl rfl rfl rfl

theorem announce (edge id : Nat) (joins : Bool) : s.calm strict (announce s edge id joins) :=
  trans (setFab s _ (by exact fun _ => rfl)) (sendEach _ _ _)

theorem loseMember (id : Nat) : s.calm strict (loseMember s id) := ite (refl s) ((updMember s id _).trans (announce _ _ _ _))

theorem loseSilent : s.calm strict (loseSilent s) := ite (refl s) (foldl loseMember s _)

theorem linkFall (p : Nat) : s.calm strict (linkFall s p) := by
  have hdown : s.calm strict (((if s.fldR (Reg.PLK_STAT p) 63 62 = 2 then s.satF (Reg.PLK_ERR p) 3 0 1 else s).setF (Reg.PLK_STAT p) 63 62 0).setF
      (Reg.PLK_STAT p) 61 60 0) :=
    trans (trans (ite (satF s _ _ _ (plkErr_notMem p)) (refl s)) (setF _ _ _ _ (plkStat_notMem p))) (setF _ _ _ _ (plkStat_notMem p))
  have hlost (u : State) (l : List FabMsg) : u.calm strict ((markLost u l).setPort p fun _ => Port.down) := same rfl rfl rfl rfl
  exact thenIf (hdown.trans (hlost _ _)) (updMember _ _ _)

theorem setManager (o : Option Nat) : s.calm strict (setManager s o) := (setF s _ _ _ (by decide)).trans (setF _ _ _ _ (by decide))
theorem setStandby (o : Option Nat) : s.calm strict (setStandby s o) := (setF s _ _ _ (by decide)).trans (setF _ _ _ _ (by decide))
theorem setRoot (o : Option Nat) : s.calm strict (setRoot s o) := (setF s _ _ _ (by decide)).trans (setF _ _ _ _ (by decide))

theorem settleRole : s.calm strict (settleRole s) :=
  ((setClx s _ (by decide) (by decide) (by decide)).trans (setClx _ _ (by decide) (by decide) (by decide))).trans (setF _ _ _ _ (by decide))

theorem leaveGroup : s.calm strict (leaveGroup s) := by
  have hroles (u : State) : u.calm strict
      (Machine.settleRole (Machine.setRoot (Machine.setStandby (Machine.setManager (u.setF Reg.CLX_STAT 62 62 0) none) none) none)) :=
    (setClx u 0 (by decide) (by decide) (by decide)).trans
      ((setManager _ none).trans ((setStandby _ none).trans ((setRoot _ none).trans (settleRole _))))
  have hstatus (u : State) : u.calm strict ((u.setF Reg.TCK_STATUS 13 13 0).setF Reg.PWR_FLOCK 54 54 0) :=
    (setStatus u 0 (by decide) (by decide)).trans (setF _ 54 54 0 (by decide))
  unfold Machine.leaveGroup
  exact (setFab s _ (by exact fun _ => rfl)).trans ((hroles _).trans (hstatus _))

theorem applyChange (c : Nat × Bool) : s.calm strict (applyChange s c) := by
  have hepoch : s.calm strict (s.addF Reg.CLX_STAT 15 0 1) := setClx s _ (by decide) (by decide) (by decide)
  unfold Machine.applyChange
  dsimp only
  split
  · exact hepoch.trans (ite (leaveGroup _) (setFab _ _ (by exact fun _ => rfl)))
  · exact hepoch.trans (thenIf (setFab _ _ (by exact fun _ => rfl))
      (trans (setClx _ _ (by decide) (by decide) (by decide)) (setStatus _ _ (by decide) (by decide))))

theorem rerole : s.calm strict (rerole s) := by
  have hmanager (m : Option Nat) : s.calm strict ((Machine.setManager s m).addF Reg.CLX_STAT 15 0 1) :=
    (setManager s m).trans (setClx _ _ (by decide) (by decide) (by decide))
  exact ite (refl s) (trans (trans (ite (hmanager _) (refl s)) (setStandby _ _)) (settleRole _))

theorem reportDrop (step term : Nat) : s.calm strict (reportDrop s step term) := ite (putFab s _ (by rfl)) (fabSend s _ _ _ _)

theorem startJoin : s.calm strict (startJoin s) := by
  unfold Machine.startJoin
  dsimp only
  split
  · exact trans (setFab s _ (by exact fun _ => rfl)) (fabBroadcast _ _)
  · exact setFab s _ (by exact fun _ => rfl)

/-- The membership that a device has at an edge. -/
theorem applyMembers (t : Nat) (clasped : Bool) : s.calm strict (applyMembers s t clasped) := by
  have hdue : s.calm strict (Machine.rerole (((s.dueChanges t).foldl Machine.applyChange s).setFab fun f =>
      { f with changes := f.changes.filter fun c => decide (t < c.1) })) :=
    trans (trans (foldl applyChange s _) (setFab _ _ (by exact fun _ => rfl))) (rerole _)
  have hjoin (u : State) : u.calm strict (u.setF Reg.PWR_FLOCK 54 54 (b2n u.follower)) := setF u _ _ _ (by decide)
  unfold Machine.applyMembers
  dsimp only
  refine trans (trans ?_ (hjoin _)) (ite (reportDrop _ _ _) (ite (startJoin _) (refl _)))
  exact ite (leaveGroup s) (ite (leaveGroup s) (ite (refl s) (ite (refl s) hdue)))

theorem settleRoot : s.calm strict (settleRoot s) := by
  unfold Machine.settleRoot
  exact ite (ite (setRoot s _) (refl s)) (ite (setRoot s _) (refl s))

/-! ### Power (R386, R394, R395) -/

theorem signalPwr : s.calm strict (signalPwr s) := by
  unfold Machine.signalPwr
  exact ite (signalMsi s _ _) (refl s)

theorem settleGroup (g : Nat) : s.calm strict (settleGroup s g) := by
  have hgroup (u : State) (hi lo v : Nat) : u.calm strict (u.setF (Reg.PWR_GROUP g) hi lo v) := setF u hi lo v (pwrGroup_notMem g)
  have hevent (u : State) (o : List (Nat × Nat × Nat × Nat)) : u.calm strict (Machine.platformEvent ((Machine.signalPwr (u.setF Reg.PWR_STAT 56 56 1)).putPwr
      { (Machine.signalPwr (u.setF Reg.PWR_STAT 56 56 1)).pwr with overrides := o }) 3 g) :=
    trans (trans (trans (setF u _ _ _ (by decide)) (signalPwr _)) (putPwr _ _)) (platformEvent _ _ _)
  unfold Machine.settleGroup
  dsimp only
  refine thenIf (thenIf (trans (trans (hgroup s _ _ _) (hgroup _ _ _ _)) (hgroup _ _ _ _)) (addF _ _ _ _ (by decide))) (hevent _ _)

theorem settlePower : s.calm strict (settlePower s) := by
  have hdrop (u : State) (step term : Nat) : u.calm strict (Machine.reportDrop (u.setF Reg.CLX_STAT 55 55 1) step term) :=
    (setClx u _ (by decide) (by decide) (by decide)).trans (reportDrop _ _ _)
  unfold Machine.settlePower
  dsimp only
  exact trans (trans (thenIf (foldl settleGroup s _) (hdrop _ _ _)) (setF _ _ _ _ (by decide))) (setF _ _ _ _ (by decide))

/-! ### Teardown, unpredictable outcomes and descriptors (R20, R80, R373) -/

theorem teardown (n cause : Nat) : s.calm strict (teardown s n cause) := by
  have hrelease (u : State) : u.calm strict (dropRings (releaseCtx u n) n) := by
    refine trans ?_ (putRings _ _)
    refine trans ?_ (putMem _ _)
    refine trans ?_ (putMig _ _)
    refine trans ?_ (putRetained _ _)
    refine trans ?_ (putTick _ _ (by rfl))
    refine trans ?_ (putSlots _ _)
    refine trans ?_ (putImages _ _)
    exact (putFlight u _).trans (putKv _ _)
  unfold Machine.teardown
  refine ite (refl s) ?_
  refine trans (trans (thenIf (trans (thenIf ((foldl sendAborts s _).trans (hrelease _)) (setF _ _ _ _ (by decide))) (setCtx _ _ _)) ?_) (refl _)) (logError _ _)
  exact signalMsi _ _ _

theorem readyOnTear : s.calm strict (readyOnTear s) := by
  unfold Machine.readyOnTear
  split
  next h => exact enterReady h.1
  next => exact refl s

theorem unpredictable (sc : Scope) : s.calm strict (unpredictable s sc) := by
  have hwrite (u : State) (w : Nat × Nat × Byte) : u.calm strict (unpredWrite u sc w) := ite (vwrite u _ _ _) (refl u)
  have hwrites := trans (putFree s (s.free + 1)) (foldl hwrite (strict := strict) _ (Config.unpredWrites s.free))
  unfold Machine.unpredictable
  dsimp only
  refine ite ?_ (trans ?_ (readyOnTear _))
  · exact hwrites.trans (foldl (fun t n => teardown t n _) _ _)
  · exact hwrites.trans (foldl (fun t n => teardown t n _) _ _)

variable {s}

/-- Accesses that the part makes on its own account, where they fail. -/
theorem ownFails {s0 s1 : State} (h0 : s.calm strict s0) (h1 : s.calm strict s1) (n cause : Nat) (m : MErr) :
    s.calm strict (ownFails s0 s1 n cause m) := by
  cases m with
  | unavail => exact h0
  | wait => exact h0
  | host => exact h1.trans (unpredictable s1 _)
  | trans va => exact h1.trans (teardown s1 n 1)
  | data st va => exact h1.trans (teardown s1 n cause)

variable (s)

theorem ownWrite (n va : Nat) (bs : List Byte) : s.calm strict (ownWrite s n va bs) := by
  refine afterClears (fun u => ?_) s
  have hw := vwrite (strict := strict) u n va bs
  split
  next heq => rw [heq] at hw; exact hw
  next heq => rw [heq] at hw; exact ownFails (refl u) hw n 2 _

theorem writeBack (r : Nat) : s.calm strict (writeBack s r) := by
  unfold Machine.writeBack
  split
  · exact refl s
  · exact ownWrite s _ _ _

end State.calm

end Sys2Proof.Machine

namespace Sys2Proof.Machine

theorem seqWelt_notMem (core : Nat) : Reg.SEQ_WELT core ∉ edgeRegs := by
  apply notMem_edgeRegs <;> simp only [Reg.SEQ_WELT, Reg.GLB_STATE, Reg.TCK_STATUS, Reg.TCK_LAST_INTERVAL, Reg.CLX_STAT] <;> omega

namespace State.calm
variable {strict : Bool} (s : State)

/-! ### Eyelet slots and lists (R211, R219 to R223) -/

theorem wr64 (c va v : Nat) : s.calm strict (wr64 s c va v).1 := vwrite s c va _

theorem wrB (c va : Nat) (bs : List Byte) : s.calm strict (wrB s c va bs).1 := vwrite s c va bs

theorem putRows (c : Nat) (p : Plane) (page o : Nat) (rows : List (List Byte)) : s.calm strict (putRows s c p page o rows).1 := by
  refine reading fun u va => foldM (fun v x => ?_) u _
  dsimp only
  split
  · exact refl v
  · exact wrB v c _ _

theorem writePte (c : Nat) (p : Plane) (i : Nat) (e : Pte) : s.calm strict (writePte s c p i e).1 := wr64 s c _ _

theorem writeRefs (c i n : Nat) : s.calm strict (writeRefs s c i n).1 := wr64 s c _ _

theorem writePlane (c : Nat) (p : Plane) : s.calm strict (writePlane s c p).1 :=
  (wr64 s c _ _).next fun u => (wr64 u c _ _).next fun v => wr64 v c _ _

theorem readingPlane (c h p : Nat) {f : State → Plane → M} (hf : ∀ u pl, State.calm strict u (f u pl).1) :
    s.calm strict (readingPlane s c h p f).1 := by
  unfold Machine.readingPlane
  split
  · exact refl s
  · exact trans (trans (vtouch s c _ _) (vtouch _ c _ _)) (hf _ _)

theorem touchRows (c : Nat) (p : Plane) (page o n : Nat) : s.calm strict (touchRows s c p page o n) := by
  unfold Machine.touchRows
  dsimp only
  split
  · exact vtouch s c _ 8
  · exact (vtouch s c _ 8).trans (foldl (fun u x => vtouch u c _ _) _ _)

theorem copyRows (c : Nat) (p : Plane) (old new n : Nat) {f : State → List (List Byte) → M} (hf : ∀ u l, State.calm strict u (f u l).1) :
    s.calm strict (copyRows s c p old new n f).1 := by
  unfold Machine.copyRows
  split
  · exact refl s
  · exact ((touchRows s c p _ _ _).trans (putRows _ c p _ _ _)).next fun u => hf u _

theorem setPool (c : Nat) (p : Nat × List Nat) : s.calm strict (s.setPool c p) := putKv s _

theorem freePage (c i : Nat) : s.calm strict (freePage s c i).1 := (wr64 s c _ _).next fun u => setPool u c _

theorem dropSlot (k : EyeSlot) (pages : List Nat) : s.calm strict (dropSlot s k pages).1 :=
  (putKv s _).trans (foldM (fun u i => freePage u k.ctx i) _ _)

/-- A page reserved for a flush is taken. -/
theorem flushTake {f : Flush} (c : Nat) (h : s.calm strict f.m.1) : s.calm strict (f.take c).1.m.1 := by
  unfold Flush.take
  split
  · exact h
  · exact h.next fun u => writeRefs u c _ 1

/-- A page that is new to the plane is written. -/
theorem flushNew {f : Flush} (c : Nat) (h : s.calm strict f.m.1) {act : State → Nat → M} (ha : ∀ u g, State.calm strict u (act u g).1) :
    s.calm strict (match f.take c with
      | (f1, none) => { f1 with m := (f1.m.1, some .unavail) }
      | (f1, some g) => { f1 with m := f1.m.next fun s => act s g } : Flush).m.1 := by
  have ht := flushTake s c h
  split
  next heq => rw [heq] at ht; exact ht
  next heq => rw [heq] at ht; exact ht.next fun u => ha u _

theorem flushPage (c : Nat) (p : Plane) {f : Flush} (x : Nat × Nat × List (List Byte)) (h : s.calm strict f.m.1) :
    s.calm strict (flushPage c p f x).m.1 := by
  obtain ⟨i, o, rows⟩ := x
  unfold Machine.flushPage
  split
  · exact h
  dsimp only
  split
  · exact flushNew s c h fun u g => (putRows u c p g 0 rows).next fun v => writePte v c p i _
  split
  · exact h
  split
  · exact h
  have hread (a : Nat) : s.calm strict (Machine.vtouch (Machine.vtouch f.m.1 c (p.pteVa i) 8) c a 8) :=
    h.trans (trans (vtouch _ c (p.pteVa i) 8) (vtouch _ c a 8))
  have hcount (u : State) : u.calm strict (Machine.tally (u.addF Reg.KV_COPY 63 32 1) (telPart (u.ctxPart c) telCopies) 1) :=
    (addF u 63 32 1 (by decide)).trans (tally _ _ _)
  split
  · exact (hread _).trans ((putRows _ c p _ o rows).next fun v => writePte v c p i _)
  · exact flushNew s c h fun u g => copyRows u c p _ g o fun u old => (putRows u c p g o rows).next fun v => (writePte v c p i _).next fun v =>
      (writeRefs v c _ _).next fun v => hcount v

theorem flushRows (c : Nat) (p : Plane) (res : List Nat) (q0 : Nat) (rows : List (List Byte)) :
    s.calm strict (flushRows s c p res q0 rows).m.1 := by
  unfold Machine.flushRows
  dsimp only
  split
  · exact refl s
  · exact List.foldlRecOn (motive := fun f : Flush => s.calm strict f.m.1) _ _ (refl s) fun f hf x _ => flushPage s c p x hf

theorem flushSlot (k : EyeSlot) (hi lo : Nat) : s.calm strict (flushSlot s k hi lo).1 := by
  refine readingPlane s _ _ _ fun u p => ?_
  split
  · exact refl u
  · exact (flushRows u _ p _ _ _).next fun v => (dropSlot v k _).next fun v => (writePlane v _ _).next fun v => addF v hi lo 1 (by decide)

theorem flushAll (ks : List EyeSlot) (hi lo : Nat) : s.calm strict (flushAll s ks hi lo).1 := foldM (fun u k => flushSlot u k hi lo) s ks

theorem lowerPage (c i : Nat) : s.calm strict (lowerPage s c i).1 :=
  reading fun u n => by
    split
    · exact freePage u c i
    · exact writeRefs u c i _

theorem dropPages (c h pn k : Nat) : s.calm strict (dropPages s c h pn k).1 := by
  refine readingPlane s c h pn fun u p => foldM (fun v i => reading fun v e => ?_) u _
  split
  · exact refl v
  · exact (lowerPage v c _).next fun v => writePte v c p i _

theorem freeList (c fuel h : Nat) : s.calm strict (freeList s c fuel h).1 := by
  induction fuel generalizing s h with
  | zero => exact refl s
  | succ fuel ih =>
    unfold Machine.freeList
    split
    · exact refl s
    · exact refl s
    extract_lets kept m par
    have hm : s.calm strict m.1 :=
      ((vtouch s c _ 24).trans (foldM (fun u p => dropPages u c h p _) _ _)).next fun u => wr64 u c _ _
    clear_value m
    split
    · exact hm
    split
    · extract_lets kids m1
      have hm1 : s.calm strict m1.1 := hm.trans (trans (vtouch _ c _ 24) (wr64 _ c _ _))
      clear_value m1
      split
      · exact hm1
      · exact hm1.trans (ih _ _)
    · exact hm
    · exact hm

theorem discardList (c h : Nat) : s.calm strict (discardList s c h).1 := by
  unfold Machine.discardList
  split
  · exact refl s
  · exact (foldM (fun u k => readingPlane u c _ _ fun v p => (dropSlot v k _).next fun w => writePlane w c _) s _).next fun u => freeList u c 66 h

/-! ### State slots and their table (R26 to R40, R195 to R201) -/

theorem readingSEnt (c h : Nat) {f : State → SEnt → M} (hf : ∀ u n, State.calm strict u (f u n).1) : s.calm strict (readingSEnt s c h f).1 :=
  reading hf

theorem writeSEnt (c h : Nat) (e : SEnt) : s.calm strict (writeSEnt s c h e).1 :=
  (wr64 s c _ _).next fun u => (wr64 u c _ _).next fun v => wr64 v c _ _

theorem dropImage (c h : Nat) : s.calm strict (dropImage s c h) := putImages s _
theorem dropSlotAt (c core unit : Nat) : s.calm strict (dropSlotAt s c core unit) := putSlots s _
theorem dropReserved (c h : Nat) : s.calm strict (dropReserved s c h) := putSlots s _
theorem derefSnapshot (c core unit h : Nat) : s.calm strict (derefSnapshot s c core unit h) := putSlots s _

theorem discardStream (c sh kh : Nat) : s.calm strict (discardStream s c sh kh).1 := by
  refine next ?_ fun u => discardList u c kh
  split
  · exact refl s
  refine readingSEnt s c sh fun u e => trans ?_ (writeSEnt _ c sh _)
  refine ite (ite (dropImage u c sh) (refl u)) (ite (dropSlotAt u c _ _) (ite ?_ (ite (dropImage u c sh) (refl u))))
  exact (derefSnapshot u c _ _ sh).trans (dropReserved _ c sh)

end State.calm

end Sys2Proof.Machine

namespace Sys2Proof.Machine.State.calm
variable {strict : Bool} (s : State)

/-! ### Contexts, rings and records (R77, R80, R99, R104) -/

theorem freeCtx (n : Nat) : s.calm strict (freeCtx s n) := by
  unfold Machine.freeCtx
  extract_lets c k s1 f s2
  have hfree : s.calm strict s2 := (putTick s _ (by rfl)).trans (setCtx s1 n _)
  clear_value s2
  split
  next hend => exact hfree.trans (enterReady hend.1)
  next => exact hfree

theorem settleCtx (n : Nat) : s.calm strict (settleCtx s n) := ite (freeCtx s n) (refl s)

theorem setRingState (r st : Nat) : s.calm strict (setRingState s r st) := ite (refl s) ((setRing s r _).trans (writeBack _ r))

theorem settleRing (r : Nat) : s.calm strict (settleRing s r) := by
  have hclosed : s.calm strict ((Machine.setRingState s r 0).setRing r Ring.closed) := (setRingState s r 0).trans (setRing _ r _)
  unfold Machine.settleRing
  dsimp only
  split
  · split
    · exact thenIf hclosed (putTick _ _ (by rfl))
    · exact hclosed
  · exact refl s

theorem afterRecord (n : Nat) (r : Record) : s.calm strict (afterRecord s n r) := by
  have hdrop : s.calm strict (s.dropEntry r.entry) := putFlight s _
  unfold Machine.afterRecord
  dsimp only
  split
  · exact hdrop.trans (teardown _ n _)
  · exact hdrop.trans ((settleRing _ _).trans (settleCtx _ n))

theorem dropRecord (n : Nat) (r : Record) : s.calm strict (dropRecord s n r) := (unpredictable s _).trans (afterRecord _ n r)

/-- What a completion notes of the interval's work is not what O29 speaks of. -/
theorem noteEnd (e : Entry) (time : Option Nat) : s.calm false (noteEnd s e time) := of_regs (fun _ _ => rfl) rfl nofun

theorem complete (id : Nat) (c : Completion) : s.calm false (complete s id c) := by
  unfold Machine.complete
  split
  · exact refl s
  next e he =>
    refine ite (refl s) ?_
    have hdone (u : State) : u.calm false (u.updEntry id fun e => { e with done := true, held := none, space := [] }) := updEntry u id _
    have hend : s.calm false (Machine.noteEnd (if s.lateOf e then Machine.tally ((if e.pkt.op = opcCollective then s.addF Reg.CLX_COLL_STAT 63 32 1
        else s).updEntry id fun e => { e with done := true, held := none, space := [] }) (telPart e.part telLate) 1
        else (if e.pkt.op = opcCollective then s.addF Reg.CLX_COLL_STAT 63 32 1 else s).updEntry id fun e =>
          { e with done := true, held := none, space := [] }) e c.time) := by
      refine trans (thenIf (trans (thenIf (refl s) ?_) (hdone _)) (tally _ _ _)) (noteEnd _ e c.time)
      exact addF s 63 32 1 (by decide)
    exact ite (hend.trans (dropRecord _ _ _)) (hend.trans (setCtx _ _ _))

theorem holdEntry (id : Nat) : s.calm strict (holdEntry s id) := updEntry s id _

theorem unpredCommandIn (id : Nat) (sc : Scope) : s.calm false (unpredCommandIn s id sc) := (unpredictable s sc).trans (complete _ id _)

theorem unpredCommand (id : Nat) : s.calm false (unpredCommand s id) := by
  unfold Machine.unpredCommand
  split
  · exact refl s
  · exact unpredCommandIn s id _

theorem failEntry (id : Nat) (stage : Option Nat) (m : MErr) : s.calm false (failEntry s id stage m) := by
  cases m with
  | trans va => exact complete s id _
  | data st va => exact complete s id _
  | unavail => exact holdEntry s id
  | wait => exact refl s
  | host => exact unpredCommand s id

theorem noteErrFail (c id : Nat) (m : MErr) : s.calm false (Machine.failEntry (Machine.noteErr s c m) id none m) :=
  (noteErr s c m).trans (failEntry _ id none m)

/-! ### PARK and RESUME at the edge, and the streams to discard (R36 to R40) -/

theorem setParked (r : Nat) (b : Bool) : s.calm strict (setParked s r b) := (setRing s r _).trans (setRingState _ r _)

theorem setTransfer (r : Nat) (b : Bool) : s.calm strict (setTransfer s r b) := setRing s r _

theorem placeSlot {c h kind d : Nat} {vals : List Int} {refs : List Nat} {x : State × Nat × Nat}
    (hx : placeSlot s c h kind d vals refs = some x) : s.calm strict x.1 := by
  unfold Machine.placeSlot at hx
  split at hx
  · cases hx
    exact refl s
  · obtain ⟨y, -, rfl⟩ := Option.map_eq_some_iff.mp hx
    exact putSlots s _

/-- The slot that a parked stream leaves. -/
theorem parkedSlot (c sh : Nat) (p : SEnt) : s.calm strict (Machine.dropImage (if p.wh = whResident then Machine.dropSlotAt s c p.core p.slot
    else Machine.dropReserved (Machine.derefSnapshot s c p.core p.slot sh) c sh) c sh) := by
  refine trans (ite (dropSlotAt s c _ _) ?_) (dropImage _ c sh)
  exact (derefSnapshot s c _ _ sh).trans (dropReserved _ c sh)

theorem parkAtEdge (e : Entry) : s.calm false (parkAtEdge s e) := by
  unfold Machine.parkAtEdge
  dsimp only
  split
  · have hd := discardStream (strict := false) s e.ctx e.pkt.sh e.pkt.kh
    split
    next heq =>
      rw [heq] at hd
      exact hd.trans ((setRing _ e.ring _).trans ((setParked _ e.ring false).trans (complete _ e.id _)))
    next => exact noteErrFail s _ _ _
  split
  · exact complete s e.id _
  have hload : s.calm false (Machine.vload s e.ctx (s.stateVa e.ctx e.pkt.sh) 32).1 := vtouch s e.ctx _ 32
  split
  next heq _ => rw [heq] at hload; exact hload.trans (failEntry _ e.id none _)
  next s0 _ p heq _ =>
    rw [heq] at hload
    refine hload.trans (ite (complete s0 e.id _) ?_)
    generalize hs1 : Machine.dropImage (if p.wh = whResident then Machine.dropSlotAt s0 e.ctx p.core p.slot
      else Machine.dropReserved (Machine.derefSnapshot s0 e.ctx p.core p.slot e.pkt.sh) e.ctx e.pkt.sh) e.ctx e.pkt.sh = s1
    have h1 : s0.calm false s1 := hs1 ▸ parkedSlot s0 e.ctx e.pkt.sh p
    have hm := (flushAll (strict := false) s1 (s1.listSlots e.ctx e.pkt.kh) 15 0).next fun s2 =>
      (wrB s2 e.ctx p.image (imageBytes (s.stateVals e.ctx p))).next fun s3 =>
        writeSEnt s3 e.ctx e.pkt.sh { p with wh := whParked, core := 0, slot := 0 }
    split
    next heq => rw [heq] at hm; exact h1.trans (hm.trans ((setParked _ e.ring true).trans (setTransfer _ e.ring true)))
    next => exact noteErrFail s0 _ _ _

theorem resumeAtEdge (e : Entry) : s.calm false (resumeAtEdge s e) := by
  unfold Machine.resumeAtEdge
  dsimp only
  split
  · exact complete s e.id _
  split
  · exact noteErrFail s _ _ _
  have hread (a : Nat) : s.calm false (Machine.vtouch s e.ctx a 32) := vtouch s e.ctx a 32
  refine ite ((hread _).trans (complete _ e.id _)) ?_
  split
  · exact noteErrFail s _ _ _
  split
  · exact noteErrFail s _ _ _
  split
  · exact (hread _).trans (complete _ e.id _)
  next hslot =>
    have hput := (hread _).trans (placeSlot _ hslot)
    have hm (o n : Nat) (x : SEnt) := hput.trans (((vtouch _ e.ctx o n).trans (dropImage _ e.ctx e.pkt.sh)).trans
      (writeSEnt (strict := false) _ e.ctx e.pkt.sh x))
    split
    next s2 heq =>
      obtain rfl : _ = s2 := congrArg Prod.fst heq
      exact (hm _ _ _).trans ((setParked _ e.ring false).trans (setTransfer _ e.ring true))
    next => exact noteErrFail s _ _ _

/-- What comes due at an edge for the commands that wait for one. -/
theorem actDue {f : State → Entry → State} (hf : ∀ u e, State.calm strict u (f u e)) (l : List Nat) :
    s.calm strict (l.foldl (fun s id => match s.entry id with
      | some e => if e.done then s else f s e
      | none => s) s) := by
  have hone (u : State) (id : Nat) : u.calm strict (match u.entry id with
      | some e => if e.done then u else f u e
      | none => u) := by
    split
    · exact ite (refl u) (hf u _)
    · exact refl u
  exact foldl hone s l

theorem parksAndResumes : s.calm false (parksAndResumes s) := by
  unfold Machine.parksAndResumes
  dsimp only
  exact (actDue s parkAtEdge _).trans (actDue _ resumeAtEdge _)

theorem discardDueAt (x : Nat × Nat × Nat) : s.calm strict (discardDueAt s x) := by
  have hd := discardStream (strict := strict) s x.1 x.2.1 x.2.2
  unfold Machine.discardDueAt
  split
  next heq => rw [heq] at hd; exact hd
  next => exact ownFails (putTick s _ (by rfl)) (noteErr s _ _) _ _ _

theorem applyDiscards (p : Nat → Bool) : s.calm strict (applyDiscards s p) := by
  unfold Machine.applyDiscards
  exact (putTick s _ (by rfl)).trans (afterClears (fun u => foldl discardDueAt u _) _)

end Sys2Proof.Machine.State.calm

namespace Sys2Proof.Machine.State.calm
variable {strict : Bool} (s : State)

/-! ### Stages whose arrays change (R24, R156, R363) -/

theorem updRun (id : Nat) (f : StageRun → StageRun) : s.calm strict (updRun s id f) := updEntry s id _
theorem dropSpace (id : Nat) (kind : Held) (key : Nat) : s.calm strict (dropSpace s id kind key) := updEntry s id _
theorem addSpace (id : Nat) (x : Space) : s.calm strict (addSpace s id x) := updEntry s id _

theorem sendOne (x : Nat × WeltPacket) : s.calm strict (sendOne s x) := by
  unfold Machine.sendOne
  exact ite (refl s) (trans (addF s 63 32 1 (seqWelt_notMem _)) (updRun _ x.1 _))

theorem pumpWelt : s.calm strict (pumpWelt s) := foldl sendOne s _

theorem sendWelt (id : Nat) (ps : List WeltPacket) : s.calm strict (sendWelt s id ps) := by
  have hqueue (u : State) (p : WeltPacket) : u.calm strict (Machine.updRun u id fun r => { r with
      welt := r.welt ++ [{ p with seq := r.welt.foldl (fun m q => max m (q.seq + 1)) 0, sent := false, fails := 0 }] }) := updRun u id _
  exact ite (refl s) ((foldl hqueue s ps).trans (pumpWelt _))

theorem rebuildHalos (id : Nat) : s.calm strict (rebuildHalos s id) := by
  unfold Machine.rebuildHalos
  split
  · exact refl s
  extract_lets arrays k e1 s1
  have h1 : s.calm strict s1 := (updRun s id _).trans (dropSpace _ id _ _)
  clear_value s1
  refine ite (refl s) ?_
  split
  · exact h1.trans (sendWelt s1 id _)
  · exact h1

theorem setReserved (id c : Nat) (l : List Nat) : s.calm strict (s.setReserved id c l) := putKv s _

theorem releaseReserved (id : Nat) : s.calm strict (releaseReserved s id) := by
  unfold Machine.releaseReserved keepReserved
  split
  · exact refl s
  next r _ =>
    have hfree (u : State) (g : Nat) : u.calm strict (Machine.freePage u r.2.1 g).1 := freePage u r.2.1 g
    exact (setReserved s id _ _).trans (foldl hfree _ _)

theorem dropAcquired (e : Entry) : s.calm strict (dropAcquired s e) := foldl (fun u h => dropReserved u e.ctx h) s _

theorem stageFail (e : Entry) (m : MErr) : s.calm false (stageFail s e m) :=
  ((dropAcquired s _).trans (failEntry _ e.id _ m)).trans (releaseReserved _ e.id)

theorem stageAct (e : Entry) {m : M} (h : s.calm false m.1) : s.calm false (stageAct s e m) := by
  obtain ⟨s1, _ | x⟩ := m
  · exact h
  cases x with
  | wait => exact refl s
  | unavail => exact holdEntry s e.id
  | trans va => exact h.trans (stageFail s1 e _)
  | data st va => exact h.trans (stageFail s1 e _)
  | host => exact h.trans (stageFail s1 e _)

theorem takeSpace (id c core : Nat) (kind : Held) (key n : Nat) : s.calm strict (takeSpace s id c core kind key n).1 := by
  unfold Machine.takeSpace
  split
  · exact refl s
  split
  · exact addSpace s id _
  split
  · exact addSpace s id _
  · exact refl s

theorem takeSlice (e : Entry) (home n : Nat) (kind : Held) (key : Nat) : s.calm strict (takeSlice s e home n kind key).1 :=
  foldM (fun u core => takeSpace u e.id e.ctx core kind key _) s _

theorem landSeam (e : Entry) (d : Desc) (i c : Nat) : s.calm strict (landSeam s e d i c).1 :=
  (takeSpace s e.id e.ctx _ _ _ _).next fun u => by
    dsimp only
    exact updRun u e.id _

theorem retakeSpace (id : Nat) : s.calm strict (retakeSpace s id).1 := by
  unfold Machine.retakeSpace
  split
  · exact refl s
  next e _ =>
    extract_lets d s1 slice
    have h1 : s.calm strict s1 := updEntry s id _
    have hslice (w : Work) (kind : Held) (k : Nat) (u : State) (x : Partial) : u.calm strict (slice w kind k u x).1 := by
      cases w <;> exact takeSlice u e _ _ _ _
    clear_value s1 slice
    have hgate (u : State) (g : GateRow) : u.calm strict (Machine.takeSpace u id e.ctx (scEngine u e d g.entry (g.pos / max 1 d.scChunk)) .gates
        (chunkKey g.entry (g.pos / max 1 d.scChunk)) (4 * g.vals.length)).1 := takeSpace u id e.ctx _ _ _ _
    have hseam (u : State) (x : Seam) : u.calm strict (if x.arrived && !chunkDone u e d x.entry (x.chunk + 1) then
        Machine.landSeam u e d x.entry x.chunk else (u, none)).1 := by
      split
      · exact landSeam u e d _ _
      · exact refl u
    refine h1.trans (got fun w => ?_)
    refine (foldM (fun u x => hslice w .red x.key u x) s1 _).next fun u => ?_
    refine (foldM (fun u x => hslice w .part _ u x) u _).next fun u => ?_
    exact (foldM hgate u _).next fun u => foldM hseam u _

theorem rehome (id : Nat) : s.calm false (rehome s id) := by
  unfold Machine.rehome
  split
  · exact refl s
  · exact (stageAct s _ (retakeSpace s id)).trans (rebuildHalos _ id)

theorem rebindArrays : s.calm false (rebindArrays s) := by
  have hone (u : State) (e : Entry) : u.calm false (if e.run.started ∧ !e.done ∧ u.stageArrays e e.desc ≠ e.run.arrays ∧ u.stageArrays e e.desc ≠ []
      then Machine.rehome (Machine.updRun u e.id fun r => { r with arrays := u.stageArrays e e.desc }) e.id else u) :=
    ite ((updRun u e.id _).trans (rehome _ e.id)) (refl u)
  exact (putPrefetched s _).trans (foldl hone _ _)

theorem grantCores : s.calm false (grantCores s) := (putTick s _ (by rfl)).trans (rebindArrays _)

theorem countFences : s.calm strict (countFences s) := putFlight s _

/-- What an edge does once the shadows are applied. -/
theorem afterShadows (t : Nat) (clasped : Bool) (c : Option Sched) : s.calm false (afterShadows s t clasped c) := by
  unfold Machine.afterShadows
  extract_lets s1 s2 s3
  have h1 : s.calm false s1 := applyMembers s t clasped
  clear_value s1
  have h2 : s1.calm false s2 := by
    cases c with
    | none => exact refl s1
    | some c => exact setClx s1 _ (by decide) (by decide) (by decide)
  clear_value s2
  have h3 : s2.calm false s3 := (settleRoot s2).trans ((settlePower _).trans (afterClears parksAndResumes _))
  clear_value s3
  exact h1.trans (h2.trans (h3.trans ((applyDiscards s3 _).trans ((countFences _).trans (grantCores _)))))

end Sys2Proof.Machine.State.calm

namespace Sys2Proof.Machine

theorem kvPartQuota_notMem {p : Nat} (h : p < 16) : Reg.KV_PART_QUOTA p ∉ edgeRegs := by
  apply notMem_edgeRegs <;> simp only [Reg.KV_PART_QUOTA, Reg.GLB_STATE, Reg.TCK_STATUS, Reg.TCK_LAST_INTERVAL, Reg.CLX_STAT] <;> omega

theorem holActiveDigest_notMem (i : Nat) : Reg.HOL_ACTIVE_DIGEST i ∉ edgeRegs := by
  apply notMem_edgeRegs <;> simp only [Reg.HOL_ACTIVE_DIGEST, Reg.GLB_STATE, Reg.TCK_STATUS, Reg.TCK_LAST_INTERVAL, Reg.CLX_STAT] <;> omega

theorem secMeas_notMem (i j : Nat) : Reg.SEC_MEAS i j ∉ edgeRegs := by
  apply notMem_edgeRegs <;> simp only [Reg.SEC_MEAS, Reg.GLB_STATE, Reg.TCK_STATUS, Reg.TCK_LAST_INTERVAL, Reg.CLX_STAT] <;> omega

namespace State.calm
variable {strict : Bool} (s : State)

/-- A fold over the first numbers. -/
theorem foldRange {f : State → Nat → State} {n : Nat} (hf : ∀ u i, i < n → State.calm strict u (f u i)) :
    s.calm strict ((List.range n).foldl f s) :=
  List.foldlRecOn (motive := fun t : State => s.calm strict t) _ _ (refl s) fun t ht i hi => ht.trans (hf t i (List.mem_range.mp hi))

/-! ### Before the shadows: core time, the step ceiling, telemetry (R45, R394, R426) -/

theorem charge (e : Entry) (t : Nat) : s.calm strict (charge s e t) :=
  ((setCtx s e.ctx _).trans (tally _ _ _)).trans (updEntry _ e.id _)

theorem chargeRunning (l : List (Nat × Nat)) : s.calm strict (chargeRunning s l) := by
  have hone (u : State) (x : Nat × Nat) : u.calm strict (match u.entry x.1 with
      | some e => if e.done ∨ e.run.claims = [] then u else Machine.charge u e x.2
      | none => u) := by
    split
    · exact ite (refl u) (charge u _ x.2)
    · exact refl u
  exact foldl hone s l

theorem takeStep (c : Sched) : s.calm strict (takeStep s c) := ite (setF s _ _ _ (by decide)) (refl s)

theorem takeLate : s.calm strict (takeLate s) := by
  unfold Machine.takeLate
  split
  · exact takeStep s _
  · exact refl s

theorem telemetry (len : Nat) (tel : List Nat) : s.calm strict (telemetry s len tel) := by
  unfold Machine.telemetry
  extract_lets n i pa s1 bs
  have h1 : s.calm strict s1 := setF s _ _ _ (by decide)
  have hlost : s1.calm strict (s1.addF Reg.TEL_STAT 31 0 1) := addF s1 _ _ _ (by decide)
  clear_value s1
  refine ite (refl s) ?_
  split
  next p hp =>
    have hp := ownerOf_lt hp
    exact h1.trans (ite hlost ((storePhys s1 hp _ _ _).trans (storePhys _ hp _ _ _)))
  next => exact h1.trans hlost

/-! ### Shadows (R9, R42) -/

theorem judgeQuotas : s.calm strict (judgeQuotas s) := by
  have hkept (u : State) (p : Nat) (hp : p < 16) : u.calm strict (u.setReg (Reg.KV_PART_QUOTA p) (u.effReg (Reg.KV_PART_QUOTA p))) :=
    setReg u (kvPartQuota_notMem hp) _
  exact ite (refl s) ((foldRange s hkept).trans (setF _ _ _ _ (by decide)))

theorem setEff (off : Nat) (w : Word) : s.calm strict (s.setEff off w) := putEff s _

theorem applyTck (w : Word) : s.calm strict (applyTck s w) := by
  unfold Machine.applyTck
  exact trans (trans (ite (setStatus s _ (by decide) (by decide)) (refl s)) (setEff _ _ w)) (setStatus _ _ (by decide) (by decide))

theorem applyShadows (keepTck : Bool) : s.calm strict (applyShadows s keepTck) := by
  have heff (u : State) (o : Nat) : u.calm strict (u.setEff o (u.reg o)) := setEff u o _
  have htel (u : State) (old : Nat) : u.calm strict (Machine.restartTel u old) := ite (refl u) (setF u _ _ _ (by decide))
  unfold Machine.applyShadows
  extract_lets s0 due s1 s2 s3
  have h1 : s.calm strict s1 := (judgeQuotas s).trans (foldl heff _ _)
  clear_value s1
  have h2 : s1.calm strict s2 := ite (refl s1) (applyTck s1 _)
  clear_value s2
  have h3 : s2.calm strict s3 := (heff s2 _).trans (htel _ _)
  clear_value s3
  exact h1.trans (h2.trans (h3.trans ((heff s3 _).trans (putRetained _ _))))

/-! ### A Hollon image applied (R70, R73) -/

theorem clearCores (p : Nat → Bool) : s.calm strict (clearCores s p) :=
  ((dropWhere s _).trans (putSlots _ _)).trans (putPrefetched _ _)

theorem remap (new : Layout) : s.calm strict (remap s new) := (putHol s _).trans (putMem _ _)

theorem setDigest (d : List Byte) : s.calm strict (setDigest s d) := by
  have hword (u : State) (i : Nat) (hi : i < 4) :
      u.calm strict ((u.setReg (Reg.HOL_ACTIVE_DIGEST i) (wordAt d i)).setReg (Reg.SEC_MEAS 3 i) (wordAt d i)) :=
    (setReg u (holActiveDigest_notMem i) _).trans (setReg _ (secMeas_notMem 3 i) _)
  exact foldRange s hword

theorem applyDevice (l : Layout) : s.calm strict (applyDevice s l) := by
  have hgroup (u : State) (g : Nat) : u.calm strict (u.setBoth (Reg.PWR_GROUP g) (setFld (u.reg (Reg.PWR_GROUP g)) 63 60 l.stepCeil)) :=
    setBoth u _ (pwrGroup_notMem g)
  unfold Machine.applyDevice
  extract_lets s1 s2 cfg s3 s4 on
  have h1 : s.calm strict s1 := setReg s (by decide) _
  clear_value s1
  have h2 : s1.calm strict s2 := ite (refl s1) (applyTck s1 _)
  clear_value s2
  have h3 : s2.calm strict s3 := setBoth s2 _ (by decide)
  clear_value s3
  have h4 : s3.calm strict s4 := foldl hgroup s3 _
  clear_value s4
  exact h1.trans (h2.trans (h3.trans (h4.trans (setBoth s4 _ (by decide)))))

theorem applyQuotas (l : Layout) : s.calm strict (applyQuotas s l) := by
  unfold Machine.applyQuotas
  exact foldRange s fun u p hp => setBoth u _ (kvPartQuota_notMem hp)

theorem applyLayout (l : Layout) (version : Nat) (digest : List Byte) : s.calm strict (applyLayout s l version digest) := by
  unfold Machine.applyLayout
  extract_lets kept s1 m s2 s3
  have h1 : s.calm strict s1 := (foldl evict s _).trans (remap _ l)
  clear_value s1
  have h2 : s1.calm strict s2 := (((putMem s1 _).trans (putSlots _ _)).trans (putImages _ _)).trans (clearCores _ _)
  clear_value s2
  have h3 : s2.calm strict s3 := (applyDevice s2 l).trans (applyQuotas _ l)
  clear_value s3
  exact h1.trans (h2.trans (h3.trans ((setF s3 _ _ _ (by decide)).trans (setDigest _ digest))))

theorem setApplied (hi lo v hi' lo' v' : Nat) : s.calm strict ((s.setF Reg.HOL_STATUS hi lo v).setF Reg.HOL_STATUS hi' lo' v') :=
  (setF s hi lo v (by decide)).trans (setF _ hi' lo' v' (by decide))

theorem applyFull : s.calm strict (applyFull s) := by
  unfold Machine.applyFull
  split
  · exact refl s
  next img _ =>
    dsimp only
    exact ((applyLayout s _ _ _).trans (setApplied _ _ _ _ _ _ _)).trans (putHol _ _)

theorem applyFragment : s.calm strict (applyFragment s) := by
  unfold Machine.applyFragment
  split
  · exact refl s
  next img _ =>
    extract_lets p k s1 s2 s3
    have h1 : s.calm strict s1 := (remap s _).trans (clearCores _ _)
    clear_value s1
    have h2 : s1.calm strict s2 := (setF s1 _ _ _ (by decide)).trans (setApplied _ _ _ _ _ _ _)
    clear_value s2
    have h3 : s2.calm strict s3 := setDigest s2 _
    clear_value s3
    exact ite (refl s) (ite (putHol s _) (h1.trans (h2.trans (h3.trans (putHol s3 _)))))

theorem judgeRequest (h : s.dev.stateReq = none) : s.calm strict (judgeRequest s) := by
  unfold Machine.judgeRequest
  rw [h]
  exact refl s

/-! ### Power domains (R383 to R385) -/

theorem flushQuiet (k : EyeSlot) : s.calm strict (flushQuiet s k) := by
  have hf := flushSlot (strict := strict) s k 15 0
  unfold Machine.flushQuiet
  refine ite (refl s) ?_
  split
  next heq => rw [heq] at hf; exact hf.trans (setReg _ (by decide) _)
  next heq => rw [heq] at hf; exact ownFails (refl s) (hf.trans (noteErr _ _ _)) _ _ _

theorem cleanLine (c : CacheLine) : s.calm strict (cleanLine s c) := by
  unfold Machine.cleanLine
  exact ite (refl s) (ite (evict s c) ((evict s c).trans (putMem _ _)))

theorem loseVaults (half : Nat) : s.calm strict (loseVaults s half) := by
  unfold Machine.loseVaults
  exact (foldl evict s _).trans (putMem _ _)

theorem domainOff (d : Nat) : s.calm strict (domainOff s d) := by
  have hlink (u : State) (k : Nat) : u.calm strict (Machine.linkFall u (3 * (d - 4) + k)) := linkFall u _
  unfold Machine.domainOff
  split
  · exact (foldl hlink s _).trans (loseSilent _)
  split
  · exact clearCores s _
  split
  · exact afterClears (fun u => foldl flushQuiet u _) s
  split
  · exact foldl cleanLine s _
  split
  · exact loseVaults s _
  · exact refl s

theorem settleDisagree : s.calm strict (settleDisagree s) := by
  have hevent (u : State) (d : Nat) : u.calm strict (Machine.platformEvent u 5 d) := platformEvent u 5 d
  unfold Machine.settleDisagree
  exact (setF s _ _ _ (by decide)).trans (foldl hevent _ _)

theorem settleDomains : s.calm strict (settleDomains s) := by
  unfold Machine.settleDomains
  exact ((foldl domainOff s _).trans (putPwr _ _)).trans (settleDisagree _)

/-! ### The next interval -/

theorem armTriggers : s.calm strict (armTriggers s) := by
  unfold Machine.armTriggers
  exact setFab s _ (by exact fun _ => rfl)

theorem writeBacks (l : List Nat) : s.calm strict (l.foldl Machine.writeBack s) := foldl writeBack s l

end State.calm

end Sys2Proof.Machine

namespace Sys2Proof.Machine

/-! ### An edge (R42, R43, R45, R47) -/

/-- What an edge of O29 makes of a state: the tick number, the new interval, the length of the old one, HOLDOVER, the device state. -/
structure State.edgeMade (s u : State) (len t at_ : Nat) (holdover : Bool) : Prop where
  num : u.tickNum = t % 2 ^ 48
  busy : u.tick.busyEnd = 0
  at_ : u.fab.edgeAt = at_
  len : u.fldR Reg.TCK_LAST_INTERVAL 58 32 = len
  hold : u.fldR Reg.CLX_STAT 59 59 = b2n holdover
  state : s.runStandsOrEnds u

theorem State.edgeMade.of_stands {s s' u : State} {len t at_ : Nat} {holdover : Bool} (h : s'.edgeMade u len t at_ holdover)
    (hs : s.runStandsOrEnds s') : s.edgeMade u len t at_ holdover := { h with state := hs.trans h.state }

/-- An interval that closes shows its length (R43). -/
theorem closeInterval_len (s : State) {len : Nat} (h : len < 2 ^ 27) : (closeInterval s len).fldR Reg.TCK_LAST_INTERVAL 58 32 = len := by
  unfold closeInterval
  extract_lets late s1 s2
  calc ((s2.addF Reg.TCK_OVR_COUNT 63 32 (b2n late)).addF Reg.TCK_OVR_COUNT 31 0 _).fldR Reg.TCK_LAST_INTERVAL 58 32
      = s2.fldR Reg.TCK_LAST_INTERVAL 58 32 := by
        rw [State.fldR, State.reg_addF_ne _ _ _ _ _ _ (by decide), State.reg_addF_ne _ _ _ _ _ _ (by decide), State.fldR]
    _ = (s1.setF Reg.TCK_LAST_INTERVAL 58 32 len).fldR Reg.TCK_LAST_INTERVAL 58 32 :=
        State.fldR_setF_disjoint _ _ _ _ _ _ _ (by decide) (by decide) (.inr (by decide))
    _ = len := by rw [State.fldR_setF_same _ _ _ _ _ (by decide) (by decide), Nat.mod_eq_of_lt h]

theorem closeInterval_glbState (s : State) (len : Nat) : (closeInterval s len).reg Reg.GLB_STATE = s.reg Reg.GLB_STATE := by
  unfold closeInterval
  extract_lets late s1 s2
  rw [State.reg_addF_ne _ _ _ _ _ _ (by decide), State.reg_addF_ne _ _ _ _ _ _ (by decide), State.reg_setF_ne _ _ _ _ _ _ (by decide),
    State.reg_setF_ne _ _ _ _ _ _ (by decide), State.reg_setF_ne _ _ _ _ _ _ (by decide)]

theorem closeInterval_dev (s : State) (len : Nat) : (closeInterval s len).dev = s.dev := by simp [closeInterval]

theorem showUse_reg (s : State) (n : Nat) {off : Nat} (h : off < Reg.TCK_CTX_USED 0) : (showUse s n).reg off = s.reg off := by
  have hne : off ≠ Reg.TCK_CTX_USED n := by
    simp only [Reg.TCK_CTX_USED] at h ⊢
    omega
  unfold showUse
  rw [State.reg_satF_ne _ _ _ _ _ _ hne, State.reg_setF_ne _ _ _ _ _ _ hne]

/-- Only registers from the contexts' use on may change, and the device stands. -/
def State.sameBelowUse (s t : State) : Prop := (∀ off < Reg.TCK_CTX_USED 0, t.reg off = s.reg off) ∧ t.dev = s.dev

theorem showUse_sameBelowUse {s t : State} (h : s.sameBelowUse t) (n : Nat) : s.sameBelowUse (showUse t n) :=
  ⟨fun off ho => (showUse_reg t n ho).trans (h.1 off ho), by rw [showUse, State.satF_dev, State.setF_dev, h.2]⟩

theorem refill_sameBelowUse {s t : State} (h : s.sameBelowUse t) (n : Nat) : s.sameBelowUse (refill t n) := h

/-- The budgets refilled: of the registers only those of the contexts' use change (R45). -/
theorem refillAll_sameBelowUse (s : State) : s.sameBelowUse (refillAll s) := by
  unfold refillAll
  extract_lets regs shown s1
  have h1 : s.sameBelowUse s1 :=
    List.foldlRecOn (motive := s.sameBelowUse) _ _ ⟨fun _ _ => rfl, rfl⟩ fun t ht n _ => showUse_sameBelowUse ht n
  clear_value s1
  exact List.foldlRecOn (motive := s.sameBelowUse) _ _ h1 fun t ht n _ => refill_sameBelowUse ht n

/-- The next interval opens. -/
theorem openInterval_edgeMade (s : State) {len t at_ : Nat} {holdover : Bool} (hlen : s.fldR Reg.TCK_LAST_INTERVAL 58 32 = len)
    (hhold : s.fldR Reg.CLX_STAT 59 59 = b2n holdover) : s.edgeMade (openInterval s t at_) len t at_ holdover := by
  unfold openInterval
  extract_lets k p m s1 s2 s3
  have h2 : s2.regs = s.regs := rfl
  have hbusy : s2.tick.busyEnd = 0 := rfl
  have hat : s2.fab.edgeAt = at_ := rfl
  clear_value s2
  have hreg (off : Nat) (h : off ≠ Reg.TCK_STATUS) : (s2.setF Reg.TCK_STATUS 63 16 t).reg off = s.reg off :=
    (State.reg_setF_ne _ _ _ _ _ _ h).trans (congrArg (fun l => spGet (regReset off) l off) h2)
  have h3 : (s2.setF Reg.TCK_STATUS 63 16 t).calm true
      (((s3.rings.filter fun r => decide (r.2.state ≠ 0)).map (·.1)).foldl writeBack s3) :=
    (State.calm.armTriggers _).trans (State.calm.writeBacks s3 _)
  exact {
    num := h3.num.trans (State.fldR_setF_same s2 _ _ _ _ (by decide) (by decide))
    busy := (h3.ends rfl).1.trans hbusy
    at_ := (h3.ends rfl).2.trans hat
    len := h3.len.trans ((congrArg (fld · 58 32) (hreg _ (by decide))).trans hlen)
    hold := h3.hold.trans ((congrArg (fld · 59 59) (hreg _ (by decide))).trans hhold)
    state := (State.runStandsOrEnds_of_reg (hreg _ (by decide))).trans h3.state }

/-- The closing of an interval, to the budgets refilled (R45, R426). -/
theorem closing_stands (s : State) {len : Nat} (tel : List Nat) (hlen : len < 2 ^ 27) :
    let t := refillAll (telemetry (closeInterval s len) len tel)
    t.fldR Reg.TCK_LAST_INTERVAL 58 32 = len ∧ s.runStandsOrEnds t ∧ t.dev = s.dev := by
  have htel : (closeInterval s len).calm true (telemetry (closeInterval s len) len tel) := State.calm.telemetry _ len tel
  obtain ⟨hlow, hdev⟩ := refillAll_sameBelowUse (telemetry (closeInterval s len) len tel)
  have hstate := (State.runStandsOrEnds_of_reg (closeInterval_glbState s len)).trans htel.state
  exact ⟨(congrArg (fld · 58 32) (hlow _ (by decide))).trans (htel.len.trans (closeInterval_len s hlen)),
    hstate.trans (State.runStandsOrEnds_of_reg (hlow _ (by decide))), hdev.trans (htel.dev.trans (closeInterval_dev s len))⟩

/-- TCK_CFG as a group's step gives it, where the tick is led from outside. -/
def stepTck (s : State) (led : Bool) : Option Sched → State
  | some c => if led then applyTck s c.tck else s
  | none => s

/-- The shadows, the image, the state request and the power domains of an edge. -/
def edgeShadows (s : State) (led : Bool) (take : Option Sched) : State :=
  settleDomains (judgeRequest (applyFragment (applyFull (stepTck (applyShadows s led) led take))))

theorem edge_eq {s : State} (h : s.becomesZero = false) (len t at_ : Nat) (c : Option Sched) (tel : List Nat) (holdover : Bool) :
    edge s len t at_ c tel holdover = openInterval (afterShadows (((edgeShadows (refillAll (telemetry (closeInterval s len) len tel))
      ((s.inGroup || c.isSome) && !s.leads) (s.claspNow c)).setF Reg.CLX_STAT 59 59 (b2n holdover)).setF Reg.TCK_STATUS 63 16 t) t c.isSome
      (s.claspNow c)) t at_ := by
  simp only [edge, h, Bool.false_eq_true, if_false, edgeShadows]
  cases s.claspNow c <;> rfl

theorem stepTck_calm (s : State) (led : Bool) (take : Option Sched) : s.calm true (stepTck s led take) := by
  cases take with
  | none => exact State.calm.refl s
  | some c => exact State.calm.ite (State.calm.applyTck s c.tck) (State.calm.refl s)

theorem edgeShadows_calm (s : State) (led : Bool) (take : Option Sched) (hreq : s.dev.stateReq = none) : s.calm true (edgeShadows s led take) := by
  have himage := (State.calm.applyShadows s led).trans ((stepTck_calm _ led take).trans
    ((State.calm.applyFull _).trans (State.calm.applyFragment (strict := true) _)))
  exact himage.trans ((State.calm.judgeRequest _ (by rw [himage.dev, hreq])).trans (State.calm.settleDomains _))

/-- What follows the shadows, to the interval that opens. -/
theorem opening_edgeMade (s : State) {len : Nat} (t at_ : Nat) (clasped : Bool) (take : Option Sched) (holdover : Bool)
    (hlen : s.fldR Reg.TCK_LAST_INTERVAL 58 32 = len) :
    s.edgeMade (openInterval (afterShadows ((s.setF Reg.CLX_STAT 59 59 (b2n holdover)).setF Reg.TCK_STATUS 63 16 t) t clasped take) t at_)
      len t at_ holdover := by
  generalize hs1 : (s.setF Reg.CLX_STAT 59 59 (b2n holdover)).setF Reg.TCK_STATUS 63 16 t = s1
  have hreg (off : Nat) (h : off ≠ Reg.CLX_STAT) (h' : off ≠ Reg.TCK_STATUS) : s1.reg off = s.reg off := by
    rw [← hs1, State.reg_setF_ne _ _ _ _ _ _ h', State.reg_setF_ne _ _ _ _ _ _ h]
  have hhold : s1.fldR Reg.CLX_STAT 59 59 = b2n holdover := by
    rw [← hs1, State.fldR_setF_ne _ _ _ _ _ _ _ _ (by decide), State.fldR_setF_same _ _ _ _ _ (by decide) (by decide)]
    cases holdover <;> rfl
  have hafter := State.calm.afterShadows s1 t clasped take
  have hopen := openInterval_edgeMade (t := t) (at_ := at_) _
    (hafter.len.trans ((congrArg (fld · 58 32) (hreg _ (by decide) (by decide))).trans hlen)) (hafter.hold.trans hhold)
  exact { hopen with
    state := (State.runStandsOrEnds_of_reg (hreg _ (by decide) (by decide))).trans (hafter.state.trans hopen.state) }

/-- An edge with no state request waiting. -/
theorem edge_made (s : State) {len : Nat} (t at_ : Nat) (c : Option Sched) (tel : List Nat) (holdover : Bool) (hreq : s.dev.stateReq = none)
    (hlen : len < 2 ^ 27) : s.edgeMade (edge s len t at_ c tel holdover) len t at_ holdover := by
  obtain ⟨hlast, hstate, hdev⟩ := closing_stands s tel hlen
  have hcalm := edgeShadows_calm (refillAll (telemetry (closeInterval s len) len tel)) ((s.inGroup || c.isSome) && !s.leads) (s.claspNow c)
    (by rw [hdev, hreq])
  have hopen := opening_edgeMade _ t at_ c.isSome (s.claspNow c) holdover (hcalm.len.trans hlast)
  rw [edge_eq (by simp [State.becomesZero, hreq])]
  exact hopen.of_stands (hstate.trans hcalm.state)

/-- An edge of the device's own tick, after what runs is charged; `b` is the state whose tick number and time it counts from. -/
theorem edge_afterCharge (s : State) {b : State} {len : Nat} (tel : List Nat) (used : List (Nat × Nat)) (holdover : Bool) (hb : s.calm true b)
    (hreq : s.dev.stateReq = none) (hlen : len < 2 ^ 27) :
    s.edgeMade (edge (takeLate (chargeRunning s used)) len (b.tickNum + 1) (b.fab.edgeAt + len) none tel holdover) len (s.tickNum + 1)
      (s.fab.edgeAt + len) holdover := by
  have hlate : s.calm true (takeLate (chargeRunning s used)) := (State.calm.chargeRunning s used).trans (State.calm.takeLate _)
  have h := edge_made (takeLate (chargeRunning s used)) (b.tickNum + 1) (b.fab.edgeAt + len) none tel holdover (by rw [hlate.dev]; exact hreq) hlen
  rw [hb.num, (hb.ends rfl).2] at h ⊢
  exact h.of_stands hlate.state

theorem chargeRunning_sched (s : State) (l : List (Nat × Nat)) : (chargeRunning s l).fab.sched = s.fab.sched := by
  unfold chargeRunning
  refine List.foldlRecOn (motive := fun t : State => t.fab.sched = s.fab.sched) _ _ rfl fun t ht x _ => ?_
  have hcharge (e : Entry) : (charge t e x.2).fab.sched = s.fab.sched := by simpa [charge] using ht
  split
  · split
    · exact ht
    · exact hcharge _
  · exact ht

/-! ### When the device's own edge is due (R42, R43) -/

theorem tickPeriod_le (w : Word) : tickPeriod w ≤ 100000000 := by
  unfold tickPeriod clampNat
  split
  · exact Nat.zero_le _
  · omega

theorem State.edgeDue_own {s : State} {len : Nat} (hrun : s.tick.running = true) (hgroup : s.inGroup = false) (hsched : s.fab.sched = none) :
    s.edgeDue len = s.ownEdgeDue len := by
  simp [State.edgeDue, hrun, hgroup, hsched]

theorem State.ownEdgeDue_fixed {s : State} (h : s.tckMode = 0) (len : Nat) : s.ownEdgeDue len = decide (len = s.tckPeriod) := if_pos h

theorem State.ownEdgeDue_elastic {s : State} (h : s.tckMode = 1) (len : Nat) :
    s.ownEdgeDue len = edgeFalls len s.tckPeriod s.tckLimit (s.outstanding true) s.tick.lcEnd s.tick.lcOpen := by
  simp [State.ownEdgeDue, h]

theorem State.tckPeriod_le_tckLimit {s : State} (h : s.tckMode = 1) : s.tckPeriod ≤ s.tckLimit := by
  have := tickPeriod_le s.tckWord
  simp [State.tckLimit, h, State.tckPeriod]
  omega

/-- No edge before the least length. -/
theorem edgeFalls_ge {len lo x last : Nat} {outstanding open_ : Bool} (hx : lo ≤ x) (h : edgeFalls len lo x outstanding last open_ = true) :
    lo ≤ len := by
  unfold edgeFalls at h
  split at h
  · exact hx.trans_eq (of_decide_eq_true h).symm
  have hleast : lo ≤ min x (max lo last) := Nat.le_min.mpr ⟨hx, Nat.le_max_left _ _⟩
  split at h
  · exact hleast.trans (of_decide_eq_true h).1
  · exact hleast.trans_eq (of_decide_eq_true h).symm

theorem execTickEdge_notDue {s : State} {len : Nat} {report : EdgeReport} (h : s.edgeDue len = false) : execTickEdge len report s = .next s := by
  simp [execTickEdge, h]

theorem execTickEdge_own {s : State} {len : Nat} {tel : List Nat} {used : List (Nat × Nat)} (h : s.edgeDue len = true)
    (hsched : s.fab.sched = none) :
    execTickEdge len ⟨tel, used⟩ s = .next (edge (takeLate (chargeRunning s used)) len ((chargeRunning s used).tickNum + 1)
      ((chargeRunning s used).fab.edgeAt + len) none tel false) := by
  have hcharged : (chargeRunning s used).fab.sched = none := (chargeRunning_sched s _).trans hsched
  simp [execTickEdge, h, hcharged]

theorem execHoldoverEdge_due {s : State} {len : Nat} {tel : List Nat} {used : List (Nat × Nat)} (h : s.holdoverDue len = true) :
    execHoldoverEdge len ⟨tel, used⟩ s = .next (edge (takeLate (chargeRunning s used)) len ((takeLate (chargeRunning s used)).tickNum + 1)
      ((takeLate (chargeRunning s used)).fab.edgeAt + len) none tel true) := by
  simp [execHoldoverEdge, h]

theorem execHoldoverEdge_alone {s : State} (len : Nat) (report : EdgeReport) (h : s.inGroup = false) : execHoldoverEdge len report s = .next s := by
  simp [execHoldoverEdge, State.holdoverDue, h]

theorem exec_tickEdge (len : Nat) (report : EdgeReport) (s : State) : exec (.tickEdge len report) s = execTickEdge len report s := by rfl

theorem exec_holdoverEdge (len : Nat) (report : EdgeReport) (s : State) : exec (.holdoverEdge len report) s = execHoldoverEdge len report s := by
  rfl

/-- Settles O29: what an edge does is followed act by act through `State.calm`, from the interval that closes to the one that opens. -/
theorem tickEdges : Obligations.TickEdges := by
  unfold Obligations.TickEdges
  simp only [exec_tickEdge, exec_holdoverEdge]
  intro s len tel used hrun hlen
  refine ⟨fun hgroup hsched => ?_, fun hdue hreq => ?_, fun hgroup => execHoldoverEdge_alone len _ hgroup⟩
  · have hown := State.edgeDue_own (len := len) hrun hgroup hsched
    refine ⟨fun hmode hne => ?_, fun hmode hlt => ?_, fun hcase hreq => ?_⟩
    · exact execTickEdge_notDue (by rw [hown, State.ownEdgeDue_fixed hmode, decide_eq_false hne])
    · refine execTickEdge_notDue (Bool.eq_false_iff.mpr fun hdue => Nat.not_le_of_lt hlt ?_)
      rw [hown, State.ownEdgeDue_elastic hmode] at hdue
      exact edgeFalls_ge (State.tckPeriod_le_tckLimit hmode) hdue
    · have hdue : s.edgeDue len = true := by
        rw [hown]
        rcases hcase with ⟨hmode, hl⟩ | ⟨hmode, hout, hl⟩ | ⟨hmode, hout, hopen, hl⟩
        · rw [State.ownEdgeDue_fixed hmode, decide_eq_true hl]
        · simp [State.ownEdgeDue_elastic hmode, edgeFalls, hout, hl]
        · simp [State.ownEdgeDue_elastic hmode, edgeFalls, hout, hopen, hl]
      have hmade := edge_afterCharge s tel used false (State.calm.chargeRunning s used) hreq hlen
      exact ⟨_, execTickEdge_own hdue hsched, hmade.num, hmade.busy, hmade.at_, hmade.len, hmade.state⟩
  · have hmade := edge_afterCharge s tel used true ((State.calm.chargeRunning s used).trans (State.calm.takeLate _)) hreq hlen
    exact ⟨_, execHoldoverEdge_due hdue, hmade.num, hmade.hold, hmade.busy⟩

end Sys2Proof.Machine

namespace Sys2Proof.Machine

/-! ### Registers alone, and the HOL block beside them -/

section
variable {s t : State} {off : Nat}

/-- A further field of the one register that changed. -/
theorem State.onlyRegs.setF (h : s.onlyRegs t [off]) (hi lo v : Nat) : s.onlyRegs (t.setF off hi lo v) [off] := by
  obtain ⟨hregs, hsame⟩ := h
  refine ⟨congrArg (·.putRegs (t.setF off hi lo v).regs) hregs, fun o ho => ?_⟩
  exact (State.reg_setF_ne t off hi lo v o (by simpa using ho)).trans (hsame o ho)

theorem onlyRegs_setF (s : State) (off hi lo v : Nat) : s.onlyRegs (s.setF off hi lo v) [off] := onlyRegs_setReg s off _

/-- What changes registers alone does so whatever the HOL block holds. -/
theorem State.onlyRegs.putHol {l : List Nat} (h : s.onlyRegs t l) (x : Hol) : (s.putHol x).onlyRegs (t.putHol x) l :=
  ⟨congrArg (·.putHol x) h.1, h.2⟩

end

/-! ### Fields of HOL_STATUS (Table 2.13) -/

@[simp] theorem setStage_hol (s : State) (v : Nat) : (setStage s v).hol = s.hol := State.setF_hol s _ _ _ _
@[simp] theorem setReject_hol (s : State) (v : Nat) : (setReject s v).hol = s.hol := State.setF_hol s _ _ _ _

/-- REJECT_CODE is eight bits wide and lies beside every other field. -/
theorem setReject_code (s : State) (v : Nat) : (setReject s v).fldR Reg.HOL_STATUS 23 16 = v % 256 :=
  State.fldR_setF_same s _ _ _ _ (by decide) (by decide)

theorem setReject_fldR (s : State) (v hi lo : Nat) (h : hi < 16 ∨ 23 < lo) :
    (setReject s v).fldR Reg.HOL_STATUS hi lo = s.fldR Reg.HOL_STATUS hi lo :=
  State.fldR_setF_disjoint s _ _ _ _ _ _ (by decide) (by decide) h

theorem setReject_onlyRegs (s : State) (v : Nat) : s.onlyRegs (setReject s v) [Reg.HOL_STATUS] := onlyRegs_setF s _ _ _ _

theorem State.holWritable_pf {s : State} (h : s.live = true) : s.holWritable 0 = true := by simp [State.holWritable, h]

theorem State.holWritable_vf (s : State) {fn : Nat} (h : fn ≠ 0) : s.holWritable fn = false := by simp [State.holWritable, h]

/-! ### COMMIT (R68, R69) -/

/-- The window handed over to a commit: it is empty, REJECT_CODE is 0 and COMMIT_PENDING is set. -/
def windowTaken (s : State) : State := (setReject (emptyWindow s) 0).setF Reg.HOL_STATUS 11 11 1

theorem windowTaken_hol (s : State) : (windowTaken s).hol = { s.hol with window := [] } := by
  simp [windowTaken, emptyWindow]

theorem windowTaken_onlyRegs (s : State) : (s.putHol { s.hol with window := [] }).onlyRegs (windowTaken s) [Reg.HOL_STATUS] :=
  ((onlyRegs_setF _ _ _ _ _).setF _ _ _).setF _ _ _

theorem windowTaken_stage (s : State) : (windowTaken s).holStage = stgEmpty := by
  simp [windowTaken, State.holStage, setReject, emptyWindow, setStage, State.fldR_setF_disjoint, State.fldR_setF_same]

theorem windowTaken_code (s : State) : (windowTaken s).fldR Reg.HOL_STATUS 23 16 = 0 := by
  simp [windowTaken, State.fldR_setF_disjoint, setReject_code]

theorem windowTaken_pending (s : State) : (windowTaken s).fldR Reg.HOL_STATUS 11 11 = 1 := by
  simp [windowTaken, State.fldR_setF_same]

/-- A full image's commit: the image waits. -/
def fullTaken (s : State) (img : Image) : State := (windowTaken s).putHol { (windowTaken s).hol with pendFull := some img }

/-- A fragment's commit: its partition shows in TARGET, and its drain starts. -/
def fragmentTaken (s : State) (img : Image) : State :=
  let s1 := (windowTaken s).setF Reg.HOL_STATUS 15 12 img.header.target
  s1.putHol { s1.hol with pendFrag := some img, drainLeft := s1.fldR Reg.HOL_RELOAD_CFG 15 0, draining := false, expired := false }

theorem execHolCommit_vf (s : State) {fn : Nat} (h : fn ≠ 0) : execHolCommit fn s = .next s := by
  simp [execHolCommit, s.holWritable_vf h]

theorem execHolCommit_refused {s : State} (hl : s.live = true) (h : s.commitCode ≠ 0) :
    execHolCommit 0 s = .next (setReject s s.commitCode) := by
  simp [execHolCommit, State.holWritable_pf hl, h]

theorem execHolCommit_full {s : State} (hl : s.live = true) (h : s.commitCode = 0) (hf : s.holStage = stgFull) :
    execHolCommit 0 s = .next (fullTaken s (readImage s.verifiedBytes)) := by
  simp [execHolCommit, State.holWritable_pf hl, h, hf, fullTaken, windowTaken]

theorem execHolCommit_fragment {s : State} (hl : s.live = true) (h : s.commitCode = 0) (hf : s.holStage = stgFragment) :
    execHolCommit 0 s = .next (fragmentTaken s (readImage s.verifiedBytes)) := by
  simp [execHolCommit, State.holWritable_pf hl, h, hf, fragmentTaken, windowTaken]

theorem commitCode_full {s : State} (hf : s.holStage = stgFull) (hst : s.devState = stReady ∨ (s.devState = stSafe ∧ s.openCtxs = []))
    (hfrag : s.hol.pendFrag = none) : s.commitCode = 0 := by
  simp [State.commitCode, hf, hst, hfrag]

theorem commitCode_fragment {s : State} (hf : s.holStage = stgFragment) (hfrag : s.hol.pendFrag = none) (hfull : s.hol.pendFull = none) :
    s.commitCode = 0 := by
  simp [State.commitCode, hf, hfrag, hfull]

theorem commitCode_notVerified {s : State} (hf : s.holStage ≠ stgFull) (hg : s.holStage ≠ stgFragment) : s.commitCode = 0x0E :=
  if_pos ⟨hf, hg⟩

theorem commitCode_state {s : State} (hf : s.holStage = stgFull) (hst : s.devState = stRun) : s.commitCode = 0x0C := by
  simp [State.commitCode, hf, hst]

theorem commitCode_busy {s : State} (hf : s.holStage = stgFragment) (h : s.hol.pendFrag.isSome = true ∨ s.hol.pendFull.isSome = true) :
    s.commitCode = 0x0D := by
  simp [State.commitCode, hf, h]

/-- What a refused COMMIT leaves: its code, and nothing else. -/
theorem setReject_effect (s : State) {code : Nat} (h : code < 256) :
    (setReject s code).fldR Reg.HOL_STATUS 23 16 = code ∧ (setReject s code).holStage = s.holStage ∧
      s.onlyRegs (setReject s code) [Reg.HOL_STATUS] :=
  ⟨(setReject_code s code).trans (Nat.mod_eq_of_lt h), setReject_fldR s code 26 24 (by decide), setReject_onlyRegs s code⟩

theorem fullTaken_hol (s : State) (img : Image) : (fullTaken s img).hol = { s.hol with window := [], pendFull := some img } := by
  rw [fullTaken, State.putHol_hol, windowTaken_hol]

theorem fullTaken_fldR (s : State) (img : Image) (off hi lo : Nat) : (fullTaken s img).fldR off hi lo = (windowTaken s).fldR off hi lo := by
  rw [fullTaken, State.putHol_fldR]

theorem fullTaken_onlyRegs (s : State) (img : Image) : (s.putHol (fullTaken s img).hol).onlyRegs (fullTaken s img) [Reg.HOL_STATUS] :=
  (windowTaken_onlyRegs s).putHol _

theorem fragmentTaken_hol (s : State) (img : Image) :
    (fragmentTaken s img).hol = { s.hol with
      window := [], pendFrag := some img, drainLeft := s.fldR Reg.HOL_RELOAD_CFG 15 0, draining := false, expired := false } := by
  have hcfg : ((windowTaken s).setF Reg.HOL_STATUS 15 12 img.header.target).fldR Reg.HOL_RELOAD_CFG 15 0 =
      s.fldR Reg.HOL_RELOAD_CFG 15 0 :=
    congrArg (fld · 15 0) (((windowTaken_onlyRegs s).setF 15 12 img.header.target).2 _ (by decide))
  simp only [fragmentTaken, State.putHol_hol, State.setF_hol, windowTaken_hol, hcfg]

theorem fragmentTaken_onlyRegs (s : State) (img : Image) :
    (s.putHol (fragmentTaken s img).hol).onlyRegs (fragmentTaken s img) [Reg.HOL_STATUS] :=
  ((windowTaken_onlyRegs s).setF _ _ _).putHol _

theorem fragmentTaken_fldR (s : State) (img : Image) (hi lo : Nat) (h : hi < 12 ∨ 15 < lo) :
    (fragmentTaken s img).fldR Reg.HOL_STATUS hi lo = (windowTaken s).fldR Reg.HOL_STATUS hi lo := by
  rw [fragmentTaken, State.putHol_fldR, State.fldR_setF_disjoint _ _ _ _ _ _ _ (by decide) (by decide) h]

theorem fragmentTaken_target (s : State) (img : Image) :
    (fragmentTaken s img).fldR Reg.HOL_STATUS 15 12 = img.header.target % 16 := by
  rw [fragmentTaken, State.putHol_fldR]
  exact State.fldR_setF_same _ _ _ _ _ (by decide) (by decide)

/-! ### Apply and abandonment (R70, R72) -/

theorem execHolApplyComplete_ready {s : State} (h : s.fldR Reg.HOL_STATUS 10 10 = 1) (hp : s.pwr.on &&& s.pwr.ready = s.pwr.on) :
    execHolApplyComplete s = .next (s.setF Reg.HOL_STATUS 10 10 0) := by
  simp [execHolApplyComplete, h, hp]

/-- A fragment dropped. -/
def fragmentDropped (s : State) : State :=
  ((s.setF Reg.HOL_STATUS 9 9 1).setF Reg.HOL_STATUS 11 11 0).putHol
    { s.hol with pendFrag := none, draining := false, expired := false, drainLeft := 0 }

theorem execFragmentAbandon_expired {s : State} (h : s.hol.pendFrag.isSome = true) (he : s.hol.expired = true) :
    execFragmentAbandon s = .next (fragmentDropped s) := by
  simp [execFragmentAbandon, h, he, fragmentDropped]

theorem fragmentDropped_abandoned (s : State) : (fragmentDropped s).fldR Reg.HOL_STATUS 9 9 = 1 := by
  simp [fragmentDropped, State.fldR_setF_disjoint, State.fldR_setF_same]

theorem fragmentDropped_pending (s : State) : (fragmentDropped s).fldR Reg.HOL_STATUS 11 11 = 0 := by
  simp [fragmentDropped, State.fldR_setF_same]

theorem fragmentDropped_onlyRegs (s : State) : (s.putHol (fragmentDropped s).hol).onlyRegs (fragmentDropped s) [Reg.HOL_STATUS] :=
  ((onlyRegs_setF s Reg.HOL_STATUS 9 9 1).setF 11 11 0).putHol _

theorem exec_holCommit (fn : Nat) (s : State) : exec (.holCommit fn) s = execHolCommit fn s := by rfl
theorem exec_holApplyComplete (s : State) : exec .holApplyComplete s = execHolApplyComplete s := by rfl
theorem exec_fragmentAbandon (s : State) : exec .fragmentAbandon s = execFragmentAbandon s := by rfl
theorem exec_glbCommitWrite (fn mask : Nat) (s : State) : exec (.glbCommitWrite fn mask) s = .next s := by rfl

/-- Settles O18: an accepted COMMIT takes the window, a refused one leaves its code, and the rest is one field each. -/
theorem hollonCommitted : Obligations.HollonCommitted := by
  unfold Obligations.HollonCommitted
  simp only [exec_holCommit, exec_holApplyComplete, exec_fragmentAbandon, exec_glbCommitWrite]
  refine ⟨fun s hl => ⟨fun hf hst hfrag => ?full, fun hf hfrag hfull => ?fragment, fun code hcode => ?refused, fun fn => execHolCommit_vf s⟩,
    fun s => ⟨fun h hp => ?applied, fun h he => ?abandoned, fun _ _ => trivial⟩⟩
  case full =>
    refine ⟨_, execHolCommit_full hl (commitCode_full hf hst hfrag) hf, ?_, ?_, ?_, fullTaken_hol s _, fullTaken_onlyRegs s _⟩
    · exact (fullTaken_fldR s _ _ _ _).trans (windowTaken_stage s)
    · exact (fullTaken_fldR s _ _ _ _).trans (windowTaken_pending s)
    · exact (fullTaken_fldR s _ _ _ _).trans (windowTaken_code s)
  case fragment =>
    have hhol := fragmentTaken_hol s (readImage s.verifiedBytes)
    refine ⟨_, execHolCommit_fragment hl (commitCode_fragment hf hfrag hfull) hf, ?_, ?_, ?_, ?_, ?_, ?_, fragmentTaken_target s _, ?_,
      fragmentTaken_onlyRegs s _⟩
    · exact (fragmentTaken_fldR s _ 26 24 (by decide)).trans (windowTaken_stage s)
    · exact (fragmentTaken_fldR s _ 11 11 (by decide)).trans (windowTaken_pending s)
    all_goals rw [hhol]
  case refused =>
    obtain ⟨hc, hlt⟩ : s.commitCode = code ∧ (code ≠ 0 ∧ code < 256) := by
      rcases hcode with ⟨rfl, hf, hg⟩ | ⟨rfl, hf, hst⟩ | ⟨rfl, hf, hbusy⟩
      · exact ⟨commitCode_notVerified hf hg, by decide⟩
      · exact ⟨commitCode_state hf hst, by decide⟩
      · exact ⟨commitCode_busy hf hbusy, by decide⟩
    subst hc
    exact ⟨_, execHolCommit_refused hl hlt.1, setReject_effect s hlt.2⟩
  case applied =>
    exact ⟨_, execHolApplyComplete_ready h hp, State.fldR_setF_same s _ _ _ _ (by decide) (by decide), onlyRegs_setF s _ _ _ _⟩
  case abandoned =>
    exact ⟨_, execFragmentAbandon_expired h he, fragmentDropped_abandoned s, fragmentDropped_pending s, State.putHol_hol _ _,
      fragmentDropped_onlyRegs s⟩

end Sys2Proof.Machine

namespace Sys2Proof.Machine

/-! ### STORE (R74) -/

/-- A STORE that starts: REJECT_CODE is 0, STORE_BUSY is set, and the slot is being written. -/
def storeStarted (s : State) : State :=
  ((setReject s 0).setF Reg.HOL_STATUS 8 8 1).putHol
    { s.hol with storing := some (s.storeSlot, s.verifiedBytes, (imgHeader s.verifiedBytes).raiseFloor) }

theorem execHolStore_starts {s : State} (hl : s.live = true) (hf : s.holStage = stgFull) (hb : s.fldR Reg.HOL_STATUS 8 8 = 0)
    (hc : s.mgt.component ≠ some 2) : execHolStore 0 s = .next (storeStarted s) := by
  simp [execHolStore, State.holWritable_pf hl, hf, hb, hc, storeStarted]

theorem execHolStore_busy {s : State} (hl : s.live = true) (hf : s.holStage = stgFull) (hb : s.fldR Reg.HOL_STATUS 8 8 = 1) :
    execHolStore 0 s = .next (setReject s 0x0D) := by
  simp [execHolStore, State.holWritable_pf hl, hf, hb]

theorem storeStarted_busy (s : State) : (storeStarted s).fldR Reg.HOL_STATUS 8 8 = 1 := by
  rw [storeStarted, State.putHol_fldR]
  exact State.fldR_setF_same _ _ _ _ _ (by decide) (by decide)

theorem storeStarted_code (s : State) : (storeStarted s).fldR Reg.HOL_STATUS 23 16 = 0 := by
  rw [storeStarted, State.putHol_fldR, State.fldR_setF_disjoint _ _ _ _ _ _ _ (by decide) (by decide) (by decide)]
  exact setReject_code s 0

theorem storeStarted_onlyRegs (s : State) : (s.putHol (storeStarted s).hol).onlyRegs (storeStarted s) [Reg.HOL_STATUS] :=
  ((setReject_onlyRegs s 0).setF 8 8 1).putHol _

/-- The write of a slot has ended: STORE_BUSY is clear. -/
def storeEnded (s : State) : State := (s.putHol { s.hol with storing := none }).setF Reg.HOL_STATUS 8 8 0

theorem execHolStoreDone_storing {s : State} {slot : Nat} {bs : List Byte} {raise : Bool} (h : s.hol.storing = some (slot, bs, raise)) (ok : Bool) :
    execHolStoreDone ok s =
      .next (if ok then writeHolSlot (storeEnded s) slot bs raise else (storeEnded s).setF Reg.HOL_STATUS 7 7 1) := by
  simp only [execHolStoreDone, h, storeEnded]

theorem storeEnded_hol (s : State) : (storeEnded s).hol = { s.hol with storing := none } := by
  rw [storeEnded, State.setF_hol, State.putHol_hol]

theorem storeEnded_sec (s : State) : (storeEnded s).sec = s.sec := by
  rw [storeEnded, State.setF_sec, State.putHol_sec]

theorem storeEnded_busy (s : State) : (storeEnded s).fldR Reg.HOL_STATUS 8 8 = 0 :=
  State.fldR_setF_same _ _ _ _ _ (by decide) (by decide)

theorem storeEnded_floor (s : State) : (storeEnded s).fldR Reg.HOL_VERSION_FLOOR 31 0 = s.fldR Reg.HOL_VERSION_FLOOR 31 0 := by
  rw [storeEnded, State.fldR_setF_ne _ _ _ _ _ _ _ _ (by decide), State.putHol_fldR]

/-! ### What a slot written changes -/

section
variable (s : State) (slot : Nat) (bs : List Byte) (raise : Bool)

theorem writeHolSlot_hol : (writeHolSlot s slot bs raise).hol = s.hol := by
  unfold writeHolSlot
  dsimp only
  split <;> simp

/-- The slot's bytes, and the boot record with its slot and floor. -/
theorem writeHolSlot_sec : (writeHolSlot s slot bs raise).sec = { s.sec with
    holSlots := updAt s.sec.holSlots slot fun _ => bs
    boot := { s.sec.boot with
      holSlot := some slot
      floor := if raise then max s.sec.boot.floor (max (s.fldR Reg.HOL_VERSION_FLOOR 31 0) (imgHeader bs).version) else s.sec.boot.floor } } := by
  unfold writeHolSlot
  dsimp only
  split <;> simp

theorem writeHolSlot_status (hi lo : Nat) : (writeHolSlot s slot bs raise).fldR Reg.HOL_STATUS hi lo = s.fldR Reg.HOL_STATUS hi lo := by
  unfold writeHolSlot
  dsimp only
  split
  · rw [State.fldR_setF_ne _ _ _ _ _ _ _ _ (by decide), State.putSec_fldR]
  · rw [State.putSec_fldR]

theorem writeHolSlot_floor : (writeHolSlot s slot bs raise).fldR Reg.HOL_VERSION_FLOOR 31 0 =
    if raise then max (s.fldR Reg.HOL_VERSION_FLOOR 31 0) (imgHeader bs).version % 2 ^ 32 else s.fldR Reg.HOL_VERSION_FLOOR 31 0 := by
  unfold writeHolSlot
  dsimp only
  split
  · exact State.fldR_setF_same _ _ _ _ _ (by decide) (by decide)
  · rw [State.putSec_fldR]

end

theorem exec_holStore (fn : Nat) (s : State) : exec (.holStore fn) s = execHolStore fn s := by rfl
theorem exec_holStoreDone (ok : Bool) (s : State) : exec (.holStoreDone ok) s = execHolStoreDone ok s := by rfl

/-- Settles O19: what a STORE that starts shows, and what its end leaves in the slots, in the boot record and in the floor. -/
theorem hollonStore : Obligations.HollonStore := by
  unfold Obligations.HollonStore
  simp only [exec_holStore, exec_holStoreDone]
  refine fun s => ⟨fun hl hf hb hc => ?starts, fun hl hf hb => ?busy, fun slot bs raise h => ⟨fun hslot => ?written, ?failed⟩⟩
  case starts =>
    exact ⟨_, execHolStore_starts hl hf hb hc, storeStarted_busy s, storeStarted_code s, ⟨_, State.putHol_hol _ _⟩, storeStarted_onlyRegs s⟩
  case busy =>
    obtain ⟨hcode, -, hregs⟩ := setReject_effect s (code := 0x0D) (by decide)
    exact ⟨_, execHolStore_busy hl hf hb, hcode, hregs⟩
  case written =>
    have hsec := writeHolSlot_sec (storeEnded s) slot bs raise
    have hget (k : Nat) := updAt_getD s.sec.holSlots slot k (fun _ => bs) [] hslot
    refine ⟨_, execHolStoreDone_storing h true, ?_, ?_, ?_, ?_, fun k hk => ?_, ?_⟩
    · exact (writeHolSlot_status _ _ _ _ 8 8).trans (storeEnded_busy s)
    · rw [if_pos rfl, writeHolSlot_hol, storeEnded_hol]
    · rw [if_pos rfl, hsec, storeEnded_sec]
      simpa using hget slot
    · rw [if_pos rfl, hsec]
    · rw [if_pos rfl, hsec, storeEnded_sec]
      simpa [hk] using hget k
    · rw [if_pos rfl, writeHolSlot_floor, storeEnded_floor]
  case failed =>
    refine ⟨_, execHolStoreDone_storing h false, ?_, ?_, ?_, ?_⟩
    all_goals rw [if_neg Bool.false_ne_true]
    · exact (State.fldR_setF_disjoint _ _ _ _ _ _ _ (by decide) (by decide) (by decide)).trans (storeEnded_busy s)
    · exact State.fldR_setF_same _ _ _ _ _ (by decide) (by decide)
    · rw [State.setF_sec, storeEnded_sec]
    · rw [State.setF_hol, storeEnded_hol]

end Sys2Proof.Machine

namespace Sys2Proof.Machine

/-! ### What no act of the part on its own account changes

Accesses, messages, completions, teardowns and changes of power domains leave the queue, the device and its functions, the HOL block, the
security unit, the numbering of commands and the running tick as they are: `State.backdrop` holds these. -/

/-- The queue, the device, its functions, the HOL block, the security unit, the next command's number, and whether the tick runs. -/
def State.backdrop (s : State) : List Instr × Dev × List FnCfg × Hol × Sec × Nat × Bool :=
  (s.pending, s.dev, s.fns, s.hol, s.sec, s.nextId, s.tick.running)

theorem State.backdrop_sec {s t : State} (h : t.backdrop = s.backdrop) : t.sec = s.sec := congrArg (·.2.2.2.2.1) h
theorem State.backdrop_running {s t : State} (h : t.backdrop = s.backdrop) : t.tick.running = s.tick.running := congrArg (·.2.2.2.2.2.2) h

section
variable {α : Type} (s : State)

@[simp] theorem putEff_backdrop (l : List (Nat × Word)) : (s.putEff l).backdrop = s.backdrop := (rfl)
@[simp] theorem putMem_backdrop (m : Mem) : (s.putMem m).backdrop = s.backdrop := (rfl)
@[simp] theorem putFree_backdrop (n : Nat) : (s.putFree n).backdrop = s.backdrop := (rfl)
@[simp] theorem putFab_backdrop (f : Fab) : (s.putFab f).backdrop = s.backdrop := (rfl)
@[simp] theorem putRetained_backdrop (l : List Retained) : (s.putRetained l).backdrop = s.backdrop := (rfl)
@[simp] theorem putPrefetched_backdrop (l : List Prefetched) : (s.putPrefetched l).backdrop = s.backdrop := (rfl)
@[simp] theorem putFlight_backdrop (l : List Entry) : (s.putFlight l).backdrop = s.backdrop := (rfl)
@[simp] theorem putSlots_backdrop (l : List Slot) : (s.putSlots l).backdrop = s.backdrop := (rfl)
@[simp] theorem putImages_backdrop (l : List (Nat × Nat × Nat)) : (s.putImages l).backdrop = s.backdrop := (rfl)
@[simp] theorem putKv_backdrop (k : Kv) : (s.putKv k).backdrop = s.backdrop := (rfl)
@[simp] theorem putPwr_backdrop (p : Pwr) : (s.putPwr p).backdrop = s.backdrop := (rfl)
@[simp] theorem putRings_backdrop (l : List (Nat × Ring)) : (s.putRings l).backdrop = s.backdrop := (rfl)
@[simp] theorem putMig_backdrop (m : Mig) : (s.putMig m).backdrop = s.backdrop := (rfl)
theorem putTick_backdrop {k : Tick} (h : k.running = s.tick.running) : (s.putTick k).backdrop = s.backdrop := by
  simp [State.backdrop, h]
@[simp] theorem setReg_backdrop (off : Nat) (w : Word) : (s.setReg off w).backdrop = s.backdrop := (rfl)
@[simp] theorem setF_backdrop (off hi lo v : Nat) : (s.setF off hi lo v).backdrop = s.backdrop := setReg_backdrop s off _
@[simp] theorem addF_backdrop (off hi lo n : Nat) : (s.addF off hi lo n).backdrop = s.backdrop := setReg_backdrop s off _
@[simp] theorem satF_backdrop (off hi lo n : Nat) : (s.satF off hi lo n).backdrop = s.backdrop := setReg_backdrop s off _
@[simp] theorem setEff_backdrop (off : Nat) (w : Word) : (s.setEff off w).backdrop = s.backdrop := (rfl)
@[simp] theorem setFab_backdrop (f : Fab → Fab) : (s.setFab f).backdrop = s.backdrop := (rfl)
@[simp] theorem setPort_backdrop (p : Nat) (f : Port → Port) : (s.setPort p f).backdrop = s.backdrop := (rfl)
@[simp] theorem setCtx_backdrop (n : Nat) (c : Ctx) : (s.setCtx n c).backdrop = s.backdrop := (rfl)
@[simp] theorem setRing_backdrop (r : Nat) (g : Ring) : (s.setRing r g).backdrop = s.backdrop := (rfl)
@[simp] theorem updEntry_backdrop (id : Nat) (f : Entry → Entry) : (s.updEntry id f).backdrop = s.backdrop := (rfl)
@[simp] theorem dropEntry_backdrop (id : Nat) : (s.dropEntry id).backdrop = s.backdrop := (rfl)
@[simp] theorem tally_backdrop (k n : Nat) : (tally s k n).backdrop = s.backdrop := by
  unfold tally
  split
  · rfl
  · exact putTick_backdrop s rfl
@[simp] theorem platformEvent_backdrop (k d : Nat) : (platformEvent s k d).backdrop = s.backdrop := by simp [State.backdrop]
@[simp] theorem logError_backdrop (a : LogArgs) : (logError s a).backdrop = s.backdrop := by simp [State.backdrop]
@[simp] theorem signalMsi_backdrop (fn v : Nat) : (signalMsi s fn v).backdrop = s.backdrop := by simp [State.backdrop]
@[simp] theorem signalPwr_backdrop : (signalPwr s).backdrop = s.backdrop := by simp [State.backdrop]
@[simp] theorem enterState_backdrop (d : Nat) : (enterState s d).backdrop = s.backdrop := by simp [State.backdrop]

@[simp] theorem ite_backdrop (p : Prop) [Decidable p] (t u : State) :
    (if p then t else u).backdrop = if p then t.backdrop else u.backdrop := apply_ite State.backdrop p t u

theorem ite_same {s t u : State} {p : Prop} [Decidable p] (h : t.backdrop = s.backdrop) (h' : u.backdrop = s.backdrop) :
    (if p then t else u).backdrop = s.backdrop := by
  rw [ite_backdrop, h, h', ite_self]

@[simp] theorem foldl_backdrop {f : State → α → State} (hf : ∀ u a, (f u a).backdrop = u.backdrop) (l : List α) :
    (l.foldl f s).backdrop = s.backdrop :=
  List.foldlRecOn (motive := fun t : State => t.backdrop = s.backdrop) l f rfl fun t ht a _ => (hf t a).trans ht

@[simp] theorem next_backdrop {f : State → M} (hf : ∀ u, (f u).1.backdrop = u.backdrop) (m : M) : (m.next f).1.backdrop = m.1.backdrop := by
  unfold M.next
  split
  · rfl
  · exact hf _

@[simp] theorem foldM_backdrop {f : State → α → M} (hf : ∀ u a, (f u a).1.backdrop = u.backdrop) (l : List α) :
    (foldM f s l).1.backdrop = s.backdrop :=
  List.foldlRecOn (motive := fun m : M => m.1.backdrop = s.backdrop) l _ rfl fun m hm a _ => (next_backdrop (fun u => hf u a) m).trans hm

@[simp] theorem afterClears_backdrop {f : State → State} (hf : ∀ u, (f u).backdrop = u.backdrop) : (afterClears s f).backdrop = s.backdrop :=
  hf _

/-! ### Accesses of memory (R286 to R293, R297) -/

@[simp] theorem adviseRow_backdrop (pa : Nat) : (adviseRow s pa).backdrop = s.backdrop := by simp [adviseRow]
@[simp] theorem correctUnit_backdrop (u : Nat) (ctx : Option Nat) : (correctUnit s u ctx).backdrop = s.backdrop := by simp [correctUnit]
@[simp] theorem noteBadUnit_backdrop (u st : Nat) (ctx : Option Nat) : (noteBadUnit s u st ctx).backdrop = s.backdrop := by simp [noteBadUnit]
@[simp] theorem loseLine_backdrop (ctx : Option Nat) (line : Nat) : (loseLine s ctx line).backdrop = s.backdrop := by simp [loseLine]
@[simp] theorem noteUnits_backdrop (pa n : Nat) (ctx : Option Nat) : (noteUnits s pa n ctx).backdrop = s.backdrop := by simp [noteUnits]
@[simp] theorem noteRead_backdrop (pa n : Nat) (ctx : Option Nat) : (noteRead s pa n ctx).backdrop = s.backdrop := by simp [noteRead]
@[simp] theorem noteMerge_backdrop (pa n : Nat) (ctx : Option Nat) : (noteMerge s pa n ctx).backdrop = s.backdrop := by simp [noteMerge]
@[simp] theorem evict_backdrop (c : CacheLine) : (evict s c).backdrop = s.backdrop := by simp [evict]
@[simp] theorem fillLine_backdrop (line : Nat) (ctx : Option Nat) : (fillLine s line ctx).backdrop = s.backdrop := by simp [fillLine]

@[simp] theorem cacheLine_backdrop (p line : Nat) (write whole : Bool) (ctx : Option Nat) :
    (cacheLine s p line write whole ctx).backdrop = s.backdrop := by
  have hroom (o : Option CacheLine) : (match o with
      | some c => evict s c
      | none => s).backdrop = s.backdrop := by
    cases o <;> simp
  unfold cacheLine
  split
  · rfl
  split
  · simp
  · dsimp only
    rw [addF_backdrop, putMem_backdrop]
    exact ite_same (hroom _) ((fillLine_backdrop _ _ _).trans (hroom _))

@[simp] theorem touchPhys_backdrop (p pa n : Nat) (write : Bool) (ctx : Option Nat) :
    (touchPhys s p pa n write ctx).backdrop = s.backdrop := by simp [touchPhys]
@[simp] theorem readPhys_backdrop (p pa n : Nat) (ctx : Option Nat) : (readPhys s p pa n ctx).backdrop = s.backdrop := by simp [readPhys]

@[simp] theorem walked_backdrop (n va : Nat) : (walked s n va).backdrop = s.backdrop := by
  unfold walked
  dsimp only
  split <;> simp

@[simp] theorem vtouch_backdrop (c va n : Nat) : (vtouch s c va n).backdrop = s.backdrop := by
  refine foldl_backdrop s (fun u pc => ?_) _
  split <;> simp

@[simp] theorem dropWhere_backdrop (hit : Retained → Bool) : (dropWhere s hit).backdrop = s.backdrop := by simp [dropWhere]
@[simp] theorem storePhys_backdrop (p pa : Nat) (bs : List Byte) (ctx : Option Nat) : (storePhys s p pa bs ctx).backdrop = s.backdrop := by
  simp [storePhys, dropPagesWritten, physWriteBut]

@[simp] theorem writePieces_backdrop (s0 : State) (c : Nat) (pcs : List (Nat × Nat)) (bs : List Byte) :
    (writePieces s0 s c pcs bs).backdrop = s.backdrop := by
  induction pcs generalizing s bs with
  | nil => rfl
  | cons pc pcs ih =>
    unfold writePieces
    split <;> simp [ih]

@[simp] theorem vwrite_backdrop (c va : Nat) (bs : List Byte) : (vwrite s c va bs).1.backdrop = s.backdrop := writePieces_backdrop s s c _ bs

@[simp] theorem noteErr_backdrop (c : Nat) (x : MErr) : (noteErr s c x).backdrop = s.backdrop := by
  cases x <;> simp [noteErr]

theorem got_backdrop {c : Nat} {r : Except MErr α} {f : α → M} (hf : ∀ a, (f a).1.backdrop = s.backdrop) : (got s c r f).1.backdrop = s.backdrop := by
  cases r with
  | error x => exact noteErr_backdrop s c x
  | ok a => exact hf a

@[simp] theorem reading_backdrop {f : State → α → M} (hf : ∀ u a, (f u a).1.backdrop = u.backdrop) (c va n : Nat) (r : Except MErr α) :
    (reading s c va n r f).1.backdrop = s.backdrop := by
  cases r with
  | error x => exact noteErr_backdrop s c x
  | ok a => exact (hf _ a).trans (vtouch_backdrop s c va n)

/-! ### Fabric messages (R317, R318) -/

@[simp] theorem transmit_backdrop (p : Nat) (m : FabMsg) : (transmit s p m).backdrop = s.backdrop := (rfl)

@[simp] theorem fiStep_backdrop (p dir vc ty : Nat) : (fiStep s p dir vc ty).2.backdrop = s.backdrop := by
  unfold fiStep
  refine List.foldlRecOn (motive := fun acc : Option Nat × State => acc.2.backdrop = s.backdrop) _ _ rfl fun acc h i _ => ?_
  dsimp only
  split
  · exact h
  · rw [apply_ite Prod.snd]
    exact ite_same (by simp [h]) (by simp [h])

@[simp] theorem sendOn_backdrop (direct : Bool) (p : Nat) (m : FabMsg) : (sendOn s direct p m).backdrop = s.backdrop := by
  have h := fiStep_backdrop s p 0 (bodyVc direct m.body) (bodyType m.body)
  unfold sendOn
  split
  next heq => simpa [heq] using h
  next heq => simpa [heq] using h

@[simp] theorem fabSend_backdrop (direct : Bool) (dst tag : Nat) (body : FabBody) : (fabSend s direct dst tag body).backdrop = s.backdrop := by
  have hseq (k : Nat) : (nextMseq s k).2.backdrop = s.backdrop := (rfl)
  unfold fabSend
  dsimp only
  split <;> simp [hseq]

@[simp] theorem sendEach_backdrop (ids : List Nat) (body : FabBody) : (sendEach s ids body).backdrop = s.backdrop := by simp [sendEach]
@[simp] theorem sendAborts_backdrop (e : Entry) : (sendAborts s e).backdrop = s.backdrop := by simp [sendAborts, sendRank]
@[simp] theorem updMember_backdrop (id : Nat) (f : Member → Member) : (updMember s id f).backdrop = s.backdrop := by simp [updMember]
@[simp] theorem announce_backdrop (edge id : Nat) (joins : Bool) : (announce s edge id joins).backdrop = s.backdrop := by simp [announce]
@[simp] theorem loseMember_backdrop (id : Nat) : (loseMember s id).backdrop = s.backdrop := by simp [loseMember]
@[simp] theorem loseSilent_backdrop : (loseSilent s).backdrop = s.backdrop := by simp [loseSilent]
@[simp] theorem markLost_backdrop (l : List FabMsg) : (markLost s l).backdrop = s.backdrop := by simp [markLost]
@[simp] theorem linkFall_backdrop (p : Nat) : (linkFall s p).backdrop = s.backdrop := by simp [linkFall]
@[simp] theorem reportDrop_backdrop (step term : Nat) : (reportDrop s step term).backdrop = s.backdrop := by simp [reportDrop]

/-! ### Power (R386, R394, R395) -/

@[simp] theorem settleGroup_backdrop (g : Nat) : (settleGroup s g).backdrop = s.backdrop := by
  unfold settleGroup
  extract_lets r old t floor s1 safety s2 s'
  have h1 : s1.backdrop = s.backdrop := by simp [s1]
  have h2 : s2.backdrop = s.backdrop := ite_same ((addF_backdrop s1 _ _ _ _).trans h1) h1
  have h' : s'.backdrop = s.backdrop := by simp [s', h2]
  exact ite_same (by simp [h']) h2
@[simp] theorem settlePower_backdrop : (settlePower s).backdrop = s.backdrop := by
  unfold settlePower
  extract_lets s0 s1 s2
  have h0 : s0.backdrop = s.backdrop := foldl_backdrop s settleGroup_backdrop _
  have h1 : s1.backdrop = s.backdrop := ite_same (by simp [h0]) h0
  simp [s2, h1]

/-! ### Teardown and unpredictable outcomes (R20, R80, R373) -/

@[simp] theorem releaseCtx_backdrop (n : Nat) : (releaseCtx s n).backdrop = s.backdrop := by simp [releaseCtx, putTick_backdrop]
@[simp] theorem dropRings_backdrop (n : Nat) : (dropRings s n).backdrop = s.backdrop := putRings_backdrop s _
@[simp] theorem teardown_backdrop (n cause : Nat) : (teardown s n cause).backdrop = s.backdrop := by
  unfold teardown
  extract_lets colls s1 s2 c s3 s4 s5
  have h2 : s2.backdrop = s.backdrop := by simp [s2, s1]
  have h4 : s4.backdrop = s.backdrop := ite_same ((setF_backdrop s2 _ _ _ _).trans h2) h2
  have h5 : s5.backdrop = s.backdrop := ite_same ((signalMsi_backdrop s4 _ _).trans h4) h4
  exact ite_same rfl ((logError_backdrop s5 _).trans h5)
@[simp] theorem readyOnTear_backdrop : (readyOnTear s).backdrop = s.backdrop := by simp [readyOnTear]
@[simp] theorem unpredWrite_backdrop (sc : Scope) (w : Nat × Nat × Byte) : (unpredWrite s sc w).backdrop = s.backdrop := by simp [unpredWrite]
@[simp] theorem unpredictable_backdrop (sc : Scope) : (unpredictable s sc).backdrop = s.backdrop := by simp [unpredictable]

/-- Accesses that the part makes on its own account, where they fail. -/
theorem ownFails_backdrop {s s0 s1 : State} (h0 : s0.backdrop = s.backdrop) (h1 : s1.backdrop = s.backdrop) (n cause : Nat) (m : MErr) :
    (ownFails s0 s1 n cause m).backdrop = s.backdrop := by
  cases m <;> simp [ownFails, h0, h1]

@[simp] theorem ownWrite_backdrop (n va : Nat) (bs : List Byte) : (ownWrite s n va bs).backdrop = s.backdrop := by
  refine afterClears_backdrop s fun u => ?_
  have hw := vwrite_backdrop u n va bs
  split
  next heq => simpa [heq] using hw
  next heq => exact ownFails_backdrop rfl (by simpa [heq] using hw) n 2 _

@[simp] theorem writeBack_backdrop (r : Nat) : (writeBack s r).backdrop = s.backdrop := by
  unfold writeBack
  split
  · rfl
  · exact ownWrite_backdrop s _ _ _

end

end Sys2Proof.Machine

namespace Sys2Proof.Machine
section
variable (s : State)

/-! ### Eyelet slots and pages (R211, R219 to R223) -/

@[simp] theorem wr64_backdrop (c va v : Nat) : (wr64 s c va v).1.backdrop = s.backdrop := vwrite_backdrop s c va _
@[simp] theorem wrB_backdrop (c va : Nat) (bs : List Byte) : (wrB s c va bs).1.backdrop = s.backdrop := vwrite_backdrop s c va bs
@[simp] theorem writePte_backdrop (c : Nat) (p : Plane) (i : Nat) (e : Pte) : (writePte s c p i e).1.backdrop = s.backdrop := wr64_backdrop s c _ _
@[simp] theorem writeRefs_backdrop (c i n : Nat) : (writeRefs s c i n).1.backdrop = s.backdrop := wr64_backdrop s c _ _
@[simp] theorem writePlane_backdrop (c : Nat) (p : Plane) : (writePlane s c p).1.backdrop = s.backdrop := by simp [writePlane]
@[simp] theorem putRows_backdrop (c : Nat) (p : Plane) (page o : Nat) (rows : List (List Byte)) :
    (putRows s c p page o rows).1.backdrop = s.backdrop := by
  simp [putRows, apply_ite Prod.fst]

@[simp] theorem readingPlane_backdrop {f : State → Plane → M} (hf : ∀ u p, (f u p).1.backdrop = u.backdrop) (c h p : Nat) :
    (readingPlane s c h p f).1.backdrop = s.backdrop := by
  unfold readingPlane
  split <;> simp [hf]

@[simp] theorem touchRows_backdrop (c : Nat) (p : Plane) (page o n : Nat) : (touchRows s c p page o n).backdrop = s.backdrop := by
  unfold touchRows
  dsimp only
  split <;> simp

@[simp] theorem copyRows_backdrop {f : State → List (List Byte) → M} (hf : ∀ u l, (f u l).1.backdrop = u.backdrop) (c : Nat) (p : Plane)
    (old new n : Nat) : (copyRows s c p old new n f).1.backdrop = s.backdrop := by
  unfold copyRows
  split <;> simp [hf]

@[simp] theorem freePage_backdrop (c i : Nat) : (freePage s c i).1.backdrop = s.backdrop := by simp [freePage, State.setPool]
@[simp] theorem dropSlot_backdrop (k : EyeSlot) (pages : List Nat) : (dropSlot s k pages).1.backdrop = s.backdrop := by simp [dropSlot]

/-- A page reserved for a flush is taken. -/
@[simp] theorem flushTake_backdrop (f : Flush) (c : Nat) : (f.take c).1.m.1.backdrop = f.m.1.backdrop := by
  unfold Flush.take
  split <;> simp

/-- A page that is new to the plane is written. -/
theorem flushNew_backdrop {act : State → Nat → M} (ha : ∀ u g, (act u g).1.backdrop = u.backdrop) (f : Flush) (c : Nat) :
    (match f.take c with
      | (f1, none) => { f1 with m := (f1.m.1, some .unavail) }
      | (f1, some g) => { f1 with m := f1.m.next fun s => act s g } : Flush).m.1.backdrop = f.m.1.backdrop := by
  have ht := flushTake_backdrop f c
  split
  next heq => simpa [heq] using ht
  next heq => simpa [heq, ha] using ht

@[simp] theorem flushPage_backdrop (c : Nat) (p : Plane) (f : Flush) (x : Nat × Nat × List (List Byte)) :
    (flushPage c p f x).m.1.backdrop = f.m.1.backdrop := by
  unfold flushPage
  split
  · rfl
  dsimp only
  split
  · exact flushNew_backdrop (fun u g => by simp) f c
  split
  · rfl
  split
  · rfl
  split
  · simp
  · refine flushNew_backdrop (fun u g => copyRows_backdrop u (fun v old => ?_) c p _ _ _) f c
    exact (next_backdrop (fun w => by simp) _).trans (putRows_backdrop v c p _ _ _)

@[simp] theorem flushRows_backdrop (c : Nat) (p : Plane) (res : List Nat) (q0 : Nat) (rows : List (List Byte)) :
    (flushRows s c p res q0 rows).m.1.backdrop = s.backdrop := by
  unfold flushRows
  dsimp only
  split
  · rfl
  · exact List.foldlRecOn (motive := fun f : Flush => f.m.1.backdrop = s.backdrop) _ _ rfl fun f hf x _ => (flushPage_backdrop c p f x).trans hf

@[simp] theorem flushSlot_backdrop (k : EyeSlot) (hi lo : Nat) : (flushSlot s k hi lo).1.backdrop = s.backdrop := by
  refine readingPlane_backdrop s (fun u p => ?_) _ _ _
  split
  · rfl
  · exact (next_backdrop (fun v => by simp) _).trans (flushRows_backdrop u _ p _ _ _)

/-! ### Contexts, rings and completions (R77, R80, R99, R104) -/

@[simp] theorem freeCtx_backdrop (n : Nat) : (freeCtx s n).backdrop = s.backdrop := by simp [freeCtx, putTick_backdrop]
@[simp] theorem settleCtx_backdrop (n : Nat) : (settleCtx s n).backdrop = s.backdrop := by simp [settleCtx]
@[simp] theorem setRingState_backdrop (r st : Nat) : (setRingState s r st).backdrop = s.backdrop := by simp [setRingState]

@[simp] theorem settleRing_backdrop (r : Nat) : (settleRing s r).backdrop = s.backdrop := by
  unfold settleRing
  dsimp only
  split
  · split <;> simp [putTick_backdrop]
  · rfl

@[simp] theorem afterRecord_backdrop (n : Nat) (r : Record) : (afterRecord s n r).backdrop = s.backdrop := by
  unfold afterRecord
  dsimp only
  split <;> simp

@[simp] theorem dropRecord_backdrop (n : Nat) (r : Record) : (dropRecord s n r).backdrop = s.backdrop := by simp [dropRecord]
@[simp] theorem noteEnd_backdrop (e : Entry) (time : Option Nat) : (noteEnd s e time).backdrop = s.backdrop := putTick_backdrop s rfl

@[simp] theorem complete_backdrop (id : Nat) (c : Completion) : (complete s id c).backdrop = s.backdrop := by
  unfold complete
  split
  · rfl
  · simp

@[simp] theorem holdEntry_backdrop (id : Nat) : (holdEntry s id).backdrop = s.backdrop := updEntry_backdrop s id _
@[simp] theorem unpredCommandIn_backdrop (id : Nat) (sc : Scope) : (unpredCommandIn s id sc).backdrop = s.backdrop := by simp [unpredCommandIn]

@[simp] theorem unpredCommand_backdrop (id : Nat) : (unpredCommand s id).backdrop = s.backdrop := by
  unfold unpredCommand
  split <;> simp

@[simp] theorem failEntry_backdrop (id : Nat) (stage : Option Nat) (m : MErr) : (failEntry s id stage m).backdrop = s.backdrop := by
  cases m <;> simp [failEntry]

/-! ### Stages whose arrays change (R24, R156, R363) -/

@[simp] theorem updRun_backdrop (id : Nat) (f : StageRun → StageRun) : (updRun s id f).backdrop = s.backdrop := updEntry_backdrop s id _
@[simp] theorem dropSpace_backdrop (id : Nat) (kind : Held) (key : Nat) : (dropSpace s id kind key).backdrop = s.backdrop := updEntry_backdrop s id _
@[simp] theorem addSpace_backdrop (id : Nat) (x : Space) : (addSpace s id x).backdrop = s.backdrop := updEntry_backdrop s id _
@[simp] theorem sendOne_backdrop (x : Nat × WeltPacket) : (sendOne s x).backdrop = s.backdrop := by simp [sendOne]
@[simp] theorem pumpWelt_backdrop : (pumpWelt s).backdrop = s.backdrop := by simp [pumpWelt]
@[simp] theorem sendWelt_backdrop (id : Nat) (ps : List WeltPacket) : (sendWelt s id ps).backdrop = s.backdrop := by simp [sendWelt]

@[simp] theorem rebuildHalos_backdrop (id : Nat) : (rebuildHalos s id).backdrop = s.backdrop := by
  unfold rebuildHalos
  split
  · rfl
  split
  · rfl
  dsimp only
  split <;> simp

@[simp] theorem releaseReserved_backdrop (id : Nat) : (releaseReserved s id).backdrop = s.backdrop := by
  unfold releaseReserved keepReserved
  split <;> simp [State.setReserved]

@[simp] theorem dropAcquired_backdrop (e : Entry) : (dropAcquired s e).backdrop = s.backdrop := by simp [dropAcquired, dropReserved]
@[simp] theorem stageFail_backdrop (e : Entry) (m : MErr) : (stageFail s e m).backdrop = s.backdrop := by simp [stageFail]

theorem stageAct_backdrop (e : Entry) {m : M} (h : m.1.backdrop = s.backdrop) : (stageAct s e m).backdrop = s.backdrop := by
  obtain ⟨s1, _ | x⟩ := m
  · exact h
  · have h' : s1.backdrop = s.backdrop := h
    cases x <;> simp [stageAct, h']

@[simp] theorem takeSpace_backdrop (id c core : Nat) (kind : Held) (key n : Nat) : (takeSpace s id c core kind key n).1.backdrop = s.backdrop := by
  simp [takeSpace, apply_ite Prod.fst, spillFault]

@[simp] theorem takeSlice_backdrop (e : Entry) (home n : Nat) (kind : Held) (key : Nat) : (takeSlice s e home n kind key).1.backdrop = s.backdrop := by
  simp [takeSlice, takeShares]

@[simp] theorem landSeam_backdrop (e : Entry) (d : Desc) (i c : Nat) : (landSeam s e d i c).1.backdrop = s.backdrop := by simp [landSeam]

@[simp] theorem retakeSpace_backdrop (id : Nat) : (retakeSpace s id).1.backdrop = s.backdrop := by
  unfold retakeSpace
  split
  · rfl
  extract_lets d s1 slice
  have hslice (w : Work) (kind : Held) (k : Nat) (u : State) (x : Partial) : (slice w kind k u x).1.backdrop = u.backdrop := by
    cases w <;> exact takeSlice_backdrop u _ _ _ _ _
  refine (got_backdrop s1 fun w => ?_).trans (updEntry_backdrop s id _)
  refine (next_backdrop (fun u => ?_) _).trans (foldM_backdrop s1 (fun u x => hslice w _ _ u x) _)
  refine (next_backdrop (fun u => ?_) _).trans (foldM_backdrop u (fun u x => hslice w _ _ u x) _)
  simp [apply_ite Prod.fst]

@[simp] theorem rehome_backdrop (id : Nat) : (rehome s id).backdrop = s.backdrop := by
  unfold rehome
  split
  · rfl
  · exact (rebuildHalos_backdrop _ id).trans (stageAct_backdrop s _ (retakeSpace_backdrop s id))

@[simp] theorem rebindArrays_backdrop : (rebindArrays s).backdrop = s.backdrop := by simp [rebindArrays]
@[simp] theorem grantCores_backdrop : (grantCores s).backdrop = s.backdrop := by simp [grantCores, putTick_backdrop]

/-! ### Shadows and power domains (R9, R42, R383 to R385) -/

@[simp] theorem judgeQuotas_backdrop : (judgeQuotas s).backdrop = s.backdrop := by simp [judgeQuotas]
@[simp] theorem applyTck_backdrop (w : Word) : (applyTck s w).backdrop = s.backdrop := by simp [applyTck]
@[simp] theorem restartTel_backdrop (old : Nat) : (restartTel s old).backdrop = s.backdrop := by simp [restartTel]

@[simp] theorem applyShadows_backdrop (keepTck : Bool) : (applyShadows s keepTck).backdrop = s.backdrop := by
  simp [applyShadows, evictRetained]

@[simp] theorem clearCores_backdrop (p : Nat → Bool) : (clearCores s p).backdrop = s.backdrop := by simp [clearCores]

@[simp] theorem flushQuiet_backdrop (k : EyeSlot) : (flushQuiet s k).backdrop = s.backdrop := by
  have hf := flushSlot_backdrop s k 15 0
  unfold flushQuiet
  split
  · rfl
  split
  next heq => simpa [heq] using hf
  next heq => exact ownFails_backdrop rfl (by simpa [heq] using hf) _ _ _

@[simp] theorem cleanLine_backdrop (c : CacheLine) : (cleanLine s c).backdrop = s.backdrop := by simp [cleanLine]
@[simp] theorem loseVaults_backdrop (half : Nat) : (loseVaults s half).backdrop = s.backdrop := by simp [loseVaults]
@[simp] theorem domainOff_backdrop (d : Nat) : (domainOff s d).backdrop = s.backdrop := by simp [domainOff]
@[simp] theorem settleDisagree_backdrop : (settleDisagree s).backdrop = s.backdrop := by simp [settleDisagree]
@[simp] theorem settleDomains_backdrop : (settleDomains s).backdrop = s.backdrop := by simp [settleDomains]

/-! ### The next interval -/

@[simp] theorem armTriggers_backdrop : (armTriggers s).backdrop = s.backdrop := by simp [armTriggers]

@[simp] theorem openInterval_backdrop (t at_ : Nat) : (openInterval s t at_).backdrop = s.backdrop := by
  simp [openInterval, putTick_backdrop]

end

end Sys2Proof.Machine

namespace Sys2Proof.Machine

/-! ### The end of TRAIN (R71, R75, R76, R403, R404, R409) -/

theorem exists_b2n {n : Nat} (h : n < 2) : ∃ b, n = b2n b := by
  interval_cases n
  · exact ⟨false, rfl⟩
  · exact ⟨true, rfl⟩

/-- The registers of a boot that is confirmed do not hold the device state. -/
theorem confirmBoot_devState (s : State) : (confirmBoot s).devState = s.devState := by
  refine congrArg (fld · 2 0) ?_
  unfold confirmBoot
  rw [State.reg_setF_ne _ _ _ _ _ _ (by decide), State.reg_setF_ne _ _ _ _ _ _ (by decide), State.putSec_reg]

theorem confirmBoot_sec (s : State) :
    (confirmBoot s).sec = { s.sec with boot := { s.sec.boot with trial := false, trialUsed := false, fails := 0 } } := by
  simp [confirmBoot]

/-- The boot ends in READY or SAFE, and in SAFE where a unit failed or the BMC asked for it (R75, R76, R409). -/
theorem commitBoot_devState (s : State) (failed : Bool) :
    (commitBoot s failed).devState = stSafe ∨ (commitBoot s failed).devState = stReady ∧ failed = false ∧ s.dev.safeBoot = false := by
  unfold commitBoot
  extract_lets safe s0
  split
  · dsimp only
    rw [enterState_devState _ _ (by split <;> decide)]
    by_cases h : safe = true
    · exact .inl (if_pos h)
    · exact .inr ⟨if_neg h, by simpa [safe] using h⟩
  · exact .inl (enterState_devState _ _ (by decide))

/-- What TRAIN records of the units leaves whether the BMC asked for SAFE. -/
theorem recordUnits_safeBoot (s : State) (cores vaults channels ports awl kat : Nat) :
    (recordUnits (clearTiers s) cores vaults channels ports awl kat).dev.safeBoot = s.dev.safeBoot := by
  have h : (recordUnits (clearTiers s) cores vaults channels ports awl kat).backdrop =
      ((clearTiers s).putDev { s.dev with badCores := cores ||| vaults ||| kat, badVaults := vaults, badPorts := ports }).backdrop := by
    simp [recordUnits, extend, setBytes4, clearTiers]
  exact congrArg (·.2.1.safeBoot) h

/-- A tick that starts: the shadows, the domains and the power limits of edge 0. -/
def tickStarted (s : State) : State :=
  settlePower (settleDomains (applyShadows (s.putTick { s.tick with running := true }) s.inGroup))

theorem execTrainComplete_train {s : State} (h : s.devState = stTrain) (cores vaults channels ports awl kat : Nat) :
    execTrainComplete cores vaults channels ports awl kat s = .next (openInterval (grantCores (tickStarted (confirmBoot
      (commitBoot (recordUnits (clearTiers s) cores vaults channels ports awl kat)
        (decide ((cores ||| vaults ||| channels ||| ports ||| awl ||| kat) ≠ 0)))))) 0 0) :=
  congrArg Host.Outcome.next (if_neg (not_not_intro h))

theorem tickStarted_backdrop (s : State) : (tickStarted s).backdrop = (s.putTick { s.tick with running := true }).backdrop := by
  simp [tickStarted]

theorem tickStarted_stands (s : State) : s.runStandsOrEnds (tickStarted s) := by
  have hrun : s.calm true (s.putTick { s.tick with running := true }) := State.calm.putTick s _ rfl
  have hshadows := State.calm.applyShadows (strict := true) (s.putTick { s.tick with running := true }) s.inGroup
  exact (hrun.trans (hshadows.trans ((State.calm.settleDomains _).trans (State.calm.settlePower _)))).state

/-- The interval that opens at edge 0: its number is 0, and the device state stands unless it is RUN. -/
theorem firstInterval (s : State) : (openInterval s 0 0).tickNum = 0 ∧ s.runStandsOrEnds (openInterval s 0 0) := by
  obtain ⟨holdover, hhold⟩ := exists_b2n (fld_lt (s.reg Reg.CLX_STAT) 59 59)
  have hopen := openInterval_edgeMade (len := s.fldR Reg.TCK_LAST_INTERVAL 58 32) (t := 0) (at_ := 0) s rfl hhold
  exact ⟨hopen.num, hopen.state⟩

/-- A device state other than RUN stands. -/
theorem State.runStandsOrEnds.devState_eq {s t : State} (h : s.runStandsOrEnds t) (hs : s.devState ≠ stRun) : t.devState = s.devState :=
  h.resolve_right fun hrun => hs hrun.1

theorem exec_trainComplete (cores vaults channels ports awl kat : Nat) (s : State) :
    exec (.trainComplete cores vaults channels ports awl kat) s = execTrainComplete cores vaults channels ports awl kat s := by rfl

/-- Settles O15: the state that the boot's commit enters, the boot record that is confirmed and the tick that starts all stand to the end
of TRAIN, as no act of edge 0 changes them. -/
theorem trainEnds : Obligations.TrainEnds := by
  unfold Obligations.TrainEnds
  intro s cores vaults channels ports awl kat htrain
  rw [exec_trainComplete, execTrainComplete_train htrain]
  have hboot := commitBoot_devState (recordUnits (clearTiers s) cores vaults channels ports awl kat)
    (decide ((cores ||| vaults ||| channels ||| ports ||| awl ||| kat) ≠ 0))
  rw [recordUnits_safeBoot] at hboot
  generalize commitBoot _ _ = u at hboot ⊢
  generalize hv : confirmBoot u = v
  have hv' : v.devState = u.devState := hv ▸ confirmBoot_devState u
  obtain ⟨hnum, hopen⟩ := firstInterval (grantCores (tickStarted v))
  have hstate : (openInterval (grantCores (tickStarted v)) 0 0).devState = u.devState := by
    rw [← hv']
    refine (((tickStarted_stands v).trans (State.calm.grantCores _).state).trans hopen).devState_eq ?_
    rcases hboot with h | ⟨h, -⟩ <;> rw [hv', h] <;> decide
  have hback : (openInterval (grantCores (tickStarted v)) 0 0).backdrop = (v.putTick { v.tick with running := true }).backdrop := by
    rw [openInterval_backdrop, grantCores_backdrop, tickStarted_backdrop]
  have hsec : (openInterval (grantCores (tickStarted v)) 0 0).sec = v.sec :=
    (State.backdrop_sec hback).trans (State.putTick_sec v _)
  refine ⟨_, rfl, ?_, fun hfail => ?_, fun hsafe => ?_, State.backdrop_running hback, hnum, ?_, ?_⟩
  · rw [hstate]
    exact hboot.symm.imp_left And.left
  · rw [hstate]
    exact hboot.resolve_right fun h => of_decide_eq_false h.2.1 hfail
  · rw [hstate]
    exact hboot.resolve_right fun h => Bool.eq_false_iff.mp h.2.2 hsafe
  all_goals rw [hsec, ← hv, confirmBoot_sec]

end Sys2Proof.Machine

namespace Sys2Proof.Machine

/-! ### Doorbells (O31) -/

theorem exec_cmdDoorbell (fn r : Nat) (v : Word) (s : State) : exec (.cmdDoorbell fn r v) s = execCmdDoorbell fn r v s := rfl

theorem exec_returnHeadDoorbell (fn n : Nat) (v : Word) (s : State) :
    exec (.returnHeadDoorbell fn n v) s = execReturnHeadDoorbell fn n v s := rfl

theorem mayAct_of_owner {s : State} {fn n : Nat} (h : fn = 0 ∨ (s.fnOn fn = true ∧ s.ctxFn n = fn ∧ s.ctxState n ≠ 0)) :
    s.mayAct fn n = true := by
  rcases h with rfl | ⟨hon, hfn, hopen⟩
  · simp [State.mayAct, State.fnOn]
  · simp [State.mayAct, hon, hfn, hopen]

theorem not_mayAct_of_ne {s : State} {fn n : Nat} (h0 : fn ≠ 0) (hfn : fn ≠ s.ctxFn n) : s.mayAct fn n = false := by
  simp [State.mayAct, h0, hfn]

section
variable {s : State} {fn r n : Nat} {v : Word}

theorem execCmdDoorbell_noContext (hctx : s.ctxOfRing r = none) : execCmdDoorbell fn r v s = .next s := by
  simp [execCmdDoorbell, hctx]

/-- A doorbell that R84 ignores changes nothing. -/
theorem execCmdDoorbell_ignored (hctx : s.ctxOfRing r = some n)
    (h : s.mayAct fn n = false ∨ (s.ring r).state = 0 ∨ (s.ring r).state = 5) : execCmdDoorbell fn r v s = .next s := by
  have hguard : !s.live ∨ !s.mayAct fn n ∨ (s.ring r).state = 0 ∨ (s.ring r).state = 5 := .inr (h.imp_left fun h => by simp [h])
  simp only [execCmdDoorbell, hctx, if_pos hguard]

theorem execCmdDoorbell_recorded (hlive : s.live = true) (hctx : s.ctxOfRing r = some n) (hact : s.mayAct fn n = true)
    (h0 : (s.ring r).state ≠ 0) (h5 : (s.ring r).state ≠ 5) (hcap : (fld v 31 0 + 2 ^ 32 - (s.ring r).head) % 2 ^ 32 ≤ (s.ring r).cap) :
    execCmdDoorbell fn r v s = .next (s.setRing r { s.ring r with
      tail := fld v 31 0, stall := if (s.ring r).stall = 2 then 0 else (s.ring r).stall }) := by
  have hguard : ¬(!s.live ∨ !s.mayAct fn n ∨ (s.ring r).state = 0 ∨ (s.ring r).state = 5) := by simp [hlive, hact, h0, h5]
  simp only [execCmdDoorbell, hctx, if_neg hguard]
  exact congrArg _ (if_neg (Nat.not_lt.mpr hcap))

theorem execReturnHeadDoorbell_recorded (hlive : s.live = true) (hn : n < 4096) (hact : s.mayAct fn n = true) :
    execReturnHeadDoorbell fn n v s = .next (s.setF (Reg.RING_RET_STATUS n) 31 0 (fld v 31 0)) := by
  simp [execReturnHeadDoorbell, hlive, hact, Nat.not_le.mpr hn]

end

/-- Settles O31, by the guard of CMD_DOORBELL (R84) and the bound on the entries that the new tail offers. -/
theorem doorbells : Obligations.Doorbells := by
  unfold Obligations.Doorbells
  intro s r n v hlive
  simp only [exec_cmdDoorbell, exec_returnHeadDoorbell]
  refine ⟨fun hctx => ⟨fun h0 h5 hcap => ⟨fun fn hfn => ?_, fun fn hne hfn => ?_⟩, fun hclosed fn => ?_⟩, fun hctx fn => ?_, fun hn => ?_⟩
  · exact execCmdDoorbell_recorded hlive hctx (mayAct_of_owner hfn) h0 h5 hcap
  · exact execCmdDoorbell_ignored hctx (.inl (not_mayAct_of_ne hne hfn))
  · exact execCmdDoorbell_ignored hctx (.inr hclosed)
  · exact execCmdDoorbell_noContext hctx
  · refine ⟨_, execReturnHeadDoorbell_recorded hlive hn (mayAct_of_owner (.inl rfl)), ?_, ?_, onlyRegs_setReg s _ _⟩
    · rw [State.fldR_setF_same _ _ _ _ _ (by decide) (by decide)]
      exact Nat.mod_eq_of_lt (fld_lt v 31 0)
    · exact State.fldR_setF_disjoint _ _ _ _ _ _ _ (by decide) (by decide) (.inr (by decide))

end Sys2Proof.Machine

namespace Sys2Proof.Machine

/-! ### CONFIG and COMMIT (O40) -/

/-- The state after the register writes of a CONFIG (R93). -/
def configWrites (s : State) (e : Entry) : State :=
  (List.range e.pkt.count).foldl (fun x k =>
    busWrite x (s.ctxFn e.ctx) (wordAt e.pkt.payload (2 * k)).toNat 8 (wordAt e.pkt.payload (2 * k + 1))) s

/-- Only registers were written, and the tick number stands. -/
structure State.onlyWrote (s t : State) : Prop where
  rest : t = s.putRegs t.regs
  tick : t.tickNum = s.tickNum

theorem State.onlyWrote.refl (s : State) : s.onlyWrote s := ⟨rfl, rfl⟩

theorem State.onlyWrote.trans {s t u : State} (h : s.onlyWrote t) (h' : t.onlyWrote u) : s.onlyWrote u :=
  ⟨by rw [h'.rest, h.rest]; rfl, h'.tick.trans h.tick⟩

/-- The tick number is a field that no write reaches (Table 1.7). -/
theorem tckStatus_tick_ro : ((findReg Reg.TCK_STATUS).all fun x => x.1.fields.any fun f => decide (f.hi = 63 ∧ f.lo = 16 ∧ f.acc = .ro)) = true := by
  decide +kernel

/-- A write of a whole register keeps the tick number (R8). -/
theorem tickNum_setReg_written {s : State} {off i j : Nat} {r : RegDef} (hr : findReg off = some (r, i, j)) (v : Word) :
    (s.setReg off (written r.fields (s.reg off) v)).tickNum = s.tickNum := by
  by_cases h : off = Reg.TCK_STATUS
  · have hall := tckStatus_tick_ro
    rw [← h, hr] at hall
    obtain ⟨f, hf, hfield⟩ := List.any_eq_true.mp hall
    obtain ⟨hhi, hlo, hro⟩ := of_decide_eq_true hfield
    have hfld := fld_written_ro (List.all_eq_true.mp regDefs_tidy r (mem_regDefs_of_findReg hr)) hf (s.reg off) v hro
    rw [hhi, hlo] at hfld
    rw [State.tickNum, State.fldR, ← h, State.reg_setReg_same, hfld, h, State.tickNum, State.fldR]
  · rw [State.tickNum, State.fldR, State.reg_setReg_ne _ _ _ _ (Ne.symm h), State.tickNum, State.fldR]

/-- A write of 8 aligned bytes to a reserved offset or to a register without further effect (R436). -/
theorem busWrite_onlyWrote (s : State) (fn : Nat) {off : Nat} (v : Word) (ho : off % 8 = 0) (hw : off < 0x1900000 ∨ 0x1A00000 ≤ off)
    (hp : ∀ g, findReg off = some g → g.1.plain = true) : s.onlyWrote (busWrite s fn off 8 v) := by
  by_cases hs : s.devState < 2
  · rw [busWrite, if_pos hs]
    exact .refl s
  have hexec (t : State) (h : exec (.registerWrite fn off 8 v) s = .next t) : busWrite s fn off 8 v = t := Host.Outcome.next.inj h
  cases hr : findReg off with
  | none =>
    rw [hexec _ (exec_registerWrite_reserved fn v (Nat.not_lt.mp hs) ho hw hr)]
    exact .refl s
  | some g =>
    obtain ⟨r, i, j⟩ := g
    rw [hexec _ (exec_registerWrite_register fn v (Nat.not_lt.mp hs) ho hw hr), regWrite_plain s fn off i j r v (hp _ hr) ho]
    split
    · split
      · exact .refl s
      · exact ⟨rfl, tickNum_setReg_written hr v⟩
    · exact .refl s

theorem configWrites_onlyWrote {s : State} {e : Entry}
    (h : ∀ k, k < e.pkt.count →
      let off := (wordAt e.pkt.payload (2 * k)).toNat
      off % 8 = 0 ∧ (off < 0x1900000 ∨ 0x1A00000 ≤ off) ∧ ∀ g, findReg off = some g → g.1.plain = true) :
    s.onlyWrote (configWrites s e) := by
  refine List.foldlRecOn (List.range e.pkt.count) _ (motive := s.onlyWrote) (.refl s) fun t ht k hk => ht.trans ?_
  obtain ⟨ho, hw, hp⟩ := h k (List.mem_range.mp hk)
  exact busWrite_onlyWrote t _ _ ho hw hp

section
variable {s : State} {id : Nat} {e : Entry} (hruns : s.runs id e)
include hruns

theorem exec_config (hop : e.pkt.op = opcConfig) (hlen : 16 * e.pkt.count ≤ e.pkt.payload.length) :
    exec (.config id) s = .next (finishControl s (configWrites s e) id { status := 0 }) := by
  obtain ⟨-, he, hd, hpart⟩ := hruns
  have hready : s.ready? id opcConfig = some e := by simp [State.ready?, he, hop, hd, hpart]
  change Host.Outcome.next _ = _
  rw [hready]
  simp only [Nat.not_lt.mpr hlen, if_false]
  rfl

theorem exec_commit (hop : e.pkt.op = opcCommit) : exec (.commit id) s = .next (finishControl s s id { status := 0 }) := by
  obtain ⟨-, he, hd, hpart⟩ := hruns
  have hready : s.ready? id opcCommit = some e := by simp [State.ready?, he, hop, hd, hpart]
  change Host.Outcome.next _ = _
  rw [hready]

end

/-- A command without payload that names no draw completes with OK: a record of one entry fits every return ring (R18, R103). -/
theorem finishControl_ok {s0 u : State} {id : Nat} {e : Entry} (he : u.entry id = some e) (hd : e.done = false) (hsh : e.pkt.sh = 0) :
    finishControl s0 u id { status := 0 } = finishWith u e { status := 0 } := by
  rw [finishControl_undrawn _ he (.inl hsh)]
  refine complete_eq he hd ?_
  exact Nat.le_trans (by decide : packetEntries 0 ≤ 16 * 1) (Nat.mul_le_mul_left 16 (Nat.one_le_two_pow))

theorem finishWith_eff (u : State) (e : Entry) (c : Completion) : (finishWith u e c).eff = u.eff := by
  have hnote (x : State) : (noteEnd x e c.time).eff = x.eff := rfl
  unfold finishWith finishEntry
  rw [State.setCtx_eff, hnote]
  split <;> split <;> simp

theorem finishWith_ok_reports (u : State) (e : Entry) : u.reports (finishWith u e { status := 0 }) e (u.okStatus e) := by
  have h := finishWith_reports (s := u) (e := e) (c := { status := 0 }) (by decide)
  simpa [State.statusOf, State.okStatus] using h

theorem State.onlyWrote.fields {s t : State} (h : s.onlyWrote t) :
    t.ctxs = s.ctxs ∧ t.flight = s.flight ∧ t.mem = s.mem ∧ t.rings = s.rings := by
  rw [h.rest]
  exact ⟨rfl, rfl, rfl, rfl⟩

/-- Settles O40: CONFIG folds the writes that REGISTER_WRITE makes, and both commands end as `finishControl` does. -/
theorem configAndCommit : Obligations.ConfigAndCommit := by
  unfold Obligations.ConfigAndCommit
  intro s id e hruns
  have ⟨_, he, hd, _⟩ := hruns
  refine ⟨fun hop hlen => ⟨fun u hu hue => ⟨fun hsh => ?_, fun w hsh hw => ?_⟩, fun hsh hplain => ?_⟩,
    fun hop => ⟨fun hsh => ?_, fun w hsh hw => ?_⟩⟩
  · obtain rfl : u = configWrites s e := hu
    refine ⟨_, by rw [exec_config hruns hop hlen, finishControl_ok hue hd hsh], finishWith_ok_reports _ e, finishWith_entry_same hue,
      finishWith_sameRegs (by rw [hop]; decide), finishWith_eff _ e _, finishWith_mem⟩
  · obtain rfl : u = configWrites s e := hu
    rw [exec_config hruns hop hlen, finishControl_drawn _ hue hsh (by rw [hop]; decide) hw]
  · have hwrote := configWrites_onlyWrote hplain (s := s)
    obtain ⟨hctxs, hflight, hmem, hrings⟩ := hwrote.fields
    have hentry (k : Nat) : (configWrites s e).entry k = s.entry k := by rw [State.entry, hflight, State.entry]
    have hue := (hentry id).trans he
    refine ⟨_, by rw [exec_config hruns hop hlen, finishControl_ok hue hd hsh], ?_, by rw [finishWith_mem, hmem],
      fun k hk => (finishWith_entry_ne hue k hk).trans (hentry k), by rw [finishWith_rings, hrings]⟩
    have hst : (configWrites s e).okStatus e = s.okStatus e := by simp [State.okStatus, State.lateOf, hwrote.tick]
    exact hst ▸ (finishWith_ok_reports _ e).of_ctx (by rw [State.ctx, State.ctx, hctxs]) rfl
  · refine ⟨_, by rw [exec_commit hruns hop, finishControl_ok he hd hsh], finishWith_ok_reports s e,
      finishWith_sameRegs (by rw [hop]; decide), finishWith_eff s e _, finishWith_mem, fun k hk => finishWith_entry_ne he k hk, finishWith_rings⟩
  · rw [exec_commit hruns hop, finishControl_drawn _ he hsh (by rw [hop]; decide) hw]

end Sys2Proof.Machine

namespace Sys2Proof.Machine

/-! ### What accesses and messages leave of the rings' and contexts' registers and of host memory

The counters that accesses and messages advance, the log's and the device state stand outside the blocks of rings and contexts:
`State.posted` holds what the host reads of these. -/

/-- The registers from 0x100000 to 0x5FFFFF, and what stands in host memory. -/
def State.posted (s : State) : (Nat → Word) × List (Nat × Byte) :=
  (fun off => if 0x100000 ≤ off ∧ off < 0x600000 then s.reg off else 0, s.out.hostMem)

theorem State.posted_reg {s t : State} (h : t.posted = s.posted) {off : Nat} (h1 : 0x100000 ≤ off) (h2 : off < 0x600000) :
    t.reg off = s.reg off := by
  have hreg := congrFun (congrArg Prod.fst h) off
  simpa only [State.posted, h1, h2, and_self, if_true] using hreg

theorem State.posted_hostMem {s t : State} (h : t.posted = s.posted) : t.out.hostMem = s.out.hostMem := congrArg Prod.snd h

theorem State.posted_of {s t : State} (hr : ∀ off, 0x100000 ≤ off → off < 0x600000 → t.reg off = s.reg off)
    (hm : t.out.hostMem = s.out.hostMem) :
    t.posted = s.posted := by
  refine Prod.ext (funext fun off => ?_) hm
  by_cases h : 0x100000 ≤ off ∧ off < 0x600000
  · simp only [State.posted, h, and_self, if_true, hr off h.1 h.2]
  · simp only [State.posted, h, if_false]

section
variable {α : Type} (s : State)

@[simp] theorem putMem_posted (m : Mem) : (s.putMem m).posted = s.posted := (rfl)
@[simp] theorem putFree_posted (n : Nat) : (s.putFree n).posted = s.posted := (rfl)
@[simp] theorem putFab_posted (f : Fab) : (s.putFab f).posted = s.posted := (rfl)
@[simp] theorem putRetained_posted (l : List Retained) : (s.putRetained l).posted = s.posted := (rfl)
@[simp] theorem putPrefetched_posted (l : List Prefetched) : (s.putPrefetched l).posted = s.posted := (rfl)
@[simp] theorem putFlight_posted (l : List Entry) : (s.putFlight l).posted = s.posted := (rfl)
@[simp] theorem putSlots_posted (l : List Slot) : (s.putSlots l).posted = s.posted := (rfl)
@[simp] theorem putImages_posted (l : List (Nat × Nat × Nat)) : (s.putImages l).posted = s.posted := (rfl)
@[simp] theorem putKv_posted (k : Kv) : (s.putKv k).posted = s.posted := (rfl)
@[simp] theorem putRings_posted (l : List (Nat × Ring)) : (s.putRings l).posted = s.posted := (rfl)
@[simp] theorem putMig_posted (m : Mig) : (s.putMig m).posted = s.posted := (rfl)
@[simp] theorem putTick_posted (k : Tick) : (s.putTick k).posted = s.posted := (rfl)
@[simp] theorem setCtx_posted (n : Nat) (c : Ctx) : (s.setCtx n c).posted = s.posted := (rfl)
@[simp] theorem setRing_posted (r : Nat) (g : Ring) : (s.setRing r g).posted = s.posted := (rfl)
@[simp] theorem dropEntry_posted (id : Nat) : (s.dropEntry id).posted = s.posted := (rfl)
@[simp] theorem transmit_posted (p : Nat) (m : FabMsg) : (transmit s p m).posted = s.posted := (rfl)

/-! Registers outside. -/

theorem setReg_posted {off : Nat} (h : off < 0x100000 ∨ 0x600000 ≤ off) (w : Word) : (s.setReg off w).posted = s.posted :=
  State.posted_of (fun o h1 h2 => State.reg_setReg_ne s off o w (by omega)) rfl

theorem satF_errReg_posted (u : State) (pa hi lo n : Nat) : (s.satF (u.errReg pa) hi lo n).posted = s.posted := by
  refine setReg_posted s (.inr ?_) _
  unfold State.errReg
  split
  · simp only [Reg.MEM_ERR]
    omega
  · decide

@[simp] theorem addF_cache_posted (p hi lo n : Nat) : (s.addF (Reg.BLK_CACHE p) hi lo n).posted = s.posted :=
  setReg_posted s (.inr (by simp only [Reg.BLK_CACHE]; omega)) _
@[simp] theorem addF_retain_posted (c hi lo n : Nat) : (s.addF (Reg.LPE_RETAIN c) hi lo n).posted = s.posted :=
  setReg_posted s (.inr (by simp only [Reg.LPE_RETAIN]; omega)) _
@[simp] theorem addF_fiCount_posted (i hi lo n : Nat) : (s.addF (Reg.FI_COUNT i) hi lo n).posted = s.posted :=
  setReg_posted s (.inr (by simp only [Reg.FI_COUNT]; omega)) _

@[simp] theorem satF_clx_posted (hi lo n : Nat) : (s.satF Reg.CLX_STAT hi lo n).posted = s.posted := setReg_posted s (.inr (by decide)) _

@[simp] theorem tally_posted (k n : Nat) : (tally s k n).posted = s.posted := State.posted_of (fun off _ _ => tally_reg s k n off) (by simp)

@[simp] theorem signalMsi_posted (fn v : Nat) : (signalMsi s fn v).posted = s.posted :=
  State.posted_of (fun off _ _ => signalMsi_reg s fn v off) (by unfold signalMsi; split <;> rfl)

@[simp] theorem platformEvent_posted (k d : Nat) : (platformEvent s k d).posted = s.posted := by
  refine State.posted_of (fun off _ h => platformEvent_reg s k d off (by simp only [Reg.MGT_STAT]; omega)) ?_
  unfold platformEvent
  split
  · rfl
  · dsimp only
    split <;> rfl

@[simp] theorem logInsert_posted (a : LogArgs) : (logInsert s a).posted = s.posted :=
  State.posted_of (fun off _ h => logInsert_reg s a off (by simp only [Reg.MGT_LOG_STAT]; omega)) (by simp)

@[simp] theorem logError_posted (a : LogArgs) : (logError s a).posted = s.posted := by
  have hmark (u : State) : (markUnwritten u a.sev).posted = u.posted := by unfold markUnwritten; split <;> rfl
  unfold logError
  dsimp only
  split <;> simp [hmark]

@[simp] theorem enterState_posted (d : Nat) : (enterState s d).posted = s.posted := by
  have hstate (u : State) (hi lo v : Nat) : (u.setF Reg.GLB_STATE hi lo v).posted = u.posted := setReg_posted u (.inl (by decide)) _
  unfold enterState
  dsimp only
  rw [platformEvent_posted, hstate, hstate]
  split <;> rfl

@[simp] theorem ite_posted (p : Prop) [Decidable p] (t u : State) :
    (if p then t else u).posted = if p then t.posted else u.posted := apply_ite State.posted p t u

theorem posted_ite_same {s t u : State} {p : Prop} [Decidable p] (h : t.posted = s.posted) (h' : u.posted = s.posted) :
    (if p then t else u).posted = s.posted := by
  rw [ite_posted, h, h', ite_self]

@[simp] theorem foldl_posted {f : State → α → State} (hf : ∀ u a, (f u a).posted = u.posted) (l : List α) :
    (l.foldl f s).posted = s.posted :=
  List.foldlRecOn (motive := fun t : State => t.posted = s.posted) l f rfl fun t ht a _ => (hf t a).trans ht

/-! Accesses of memory (R286 to R293, R297). -/

@[simp] theorem adviseRow_posted (pa : Nat) : (adviseRow s pa).posted = s.posted := by simp [adviseRow, satF_errReg_posted]
@[simp] theorem correctUnit_posted (u : Nat) (ctx : Option Nat) : (correctUnit s u ctx).posted = s.posted := by
  simp [correctUnit, satF_errReg_posted]
@[simp] theorem noteBadUnit_posted (u st : Nat) (ctx : Option Nat) : (noteBadUnit s u st ctx).posted = s.posted := by
  simp [noteBadUnit, satF_errReg_posted]
@[simp] theorem loseLine_posted (ctx : Option Nat) (line : Nat) : (loseLine s ctx line).posted = s.posted := by simp [loseLine]
@[simp] theorem noteUnits_posted (pa n : Nat) (ctx : Option Nat) : (noteUnits s pa n ctx).posted = s.posted := by simp [noteUnits]
@[simp] theorem noteRead_posted (pa n : Nat) (ctx : Option Nat) : (noteRead s pa n ctx).posted = s.posted := by simp [noteRead]
@[simp] theorem noteMerge_posted (pa n : Nat) (ctx : Option Nat) : (noteMerge s pa n ctx).posted = s.posted := by simp [noteMerge]
@[simp] theorem evict_posted (c : CacheLine) : (evict s c).posted = s.posted := by simp [evict]
@[simp] theorem fillLine_posted (line : Nat) (ctx : Option Nat) : (fillLine s line ctx).posted = s.posted := by simp [fillLine]

@[simp] theorem cacheLine_posted (p line : Nat) (write whole : Bool) (ctx : Option Nat) :
    (cacheLine s p line write whole ctx).posted = s.posted := by
  have hroom (o : Option CacheLine) : (match o with
      | some c => evict s c
      | none => s).posted = s.posted := by
    cases o <;> simp
  unfold cacheLine
  split
  · rfl
  split
  · simp
  · dsimp only
    rw [addF_cache_posted, putMem_posted]
    exact posted_ite_same (hroom _) ((fillLine_posted _ _ _).trans (hroom _))

@[simp] theorem touchPhys_posted (p pa n : Nat) (write : Bool) (ctx : Option Nat) : (touchPhys s p pa n write ctx).posted = s.posted := by
  simp [touchPhys]
@[simp] theorem readPhys_posted (p pa n : Nat) (ctx : Option Nat) : (readPhys s p pa n ctx).posted = s.posted := by simp [readPhys]

@[simp] theorem walked_posted (n va : Nat) : (walked s n va).posted = s.posted := by
  unfold walked
  dsimp only
  split <;> simp

@[simp] theorem vtouch_posted (c va n : Nat) : (vtouch s c va n).posted = s.posted := by
  refine foldl_posted s (fun u pc => ?_) _
  split <;> simp

@[simp] theorem dropWhere_posted (hit : Retained → Bool) : (dropWhere s hit).posted = s.posted := by simp [dropWhere]
@[simp] theorem storePhys_posted (p pa : Nat) (bs : List Byte) (ctx : Option Nat) : (storePhys s p pa bs ctx).posted = s.posted := by
  simp [storePhys, dropPagesWritten, physWriteBut]

@[simp] theorem writePieces_posted (s0 : State) (c : Nat) (pcs : List (Nat × Nat)) (bs : List Byte) :
    (writePieces s0 s c pcs bs).posted = s.posted := by
  induction pcs generalizing s bs with
  | nil => rfl
  | cons pc pcs ih =>
    unfold writePieces
    split <;> simp [ih]

@[simp] theorem vwrite_posted (c va : Nat) (bs : List Byte) : (vwrite s c va bs).1.posted = s.posted := writePieces_posted s s c _ bs

@[simp] theorem noteErr_posted (c : Nat) (x : MErr) : (noteErr s c x).posted = s.posted := by
  cases x <;> simp [noteErr]

/-! Fabric messages (R317, R318). -/

@[simp] theorem fiStep_posted (p dir vc ty : Nat) : (fiStep s p dir vc ty).2.posted = s.posted := by
  unfold fiStep
  refine List.foldlRecOn (motive := fun acc : Option Nat × State => acc.2.posted = s.posted) _ _ rfl fun acc h i _ => ?_
  dsimp only
  split
  · exact h
  · rw [apply_ite Prod.snd]
    exact posted_ite_same (by simp [h]) (by simp [h])

@[simp] theorem sendOn_posted (direct : Bool) (p : Nat) (m : FabMsg) : (sendOn s direct p m).posted = s.posted := by
  have h := fiStep_posted s p 0 (bodyVc direct m.body) (bodyType m.body)
  unfold sendOn
  split
  next heq => simpa [heq] using h
  next heq => simpa [heq] using h

@[simp] theorem fabSend_posted (direct : Bool) (dst tag : Nat) (body : FabBody) : (fabSend s direct dst tag body).posted = s.posted := by
  have hseq (k : Nat) : (nextMseq s k).2.posted = s.posted := (rfl)
  unfold fabSend
  dsimp only
  split <;> simp [hseq]

@[simp] theorem abortAll_posted (n : Nat) : (abortAll s n).posted = s.posted := by simp [abortAll, sendAborts, sendRank]

@[simp] theorem releaseCtx_posted (n : Nat) : (releaseCtx s n).posted = s.posted := by simp [releaseCtx]

@[simp] theorem dropRings_posted (n : Nat) : (dropRings s n).posted = s.posted := putRings_posted s _

end

end Sys2Proof.Machine

namespace Sys2Proof.Machine

/-! ### What accesses of the part's own account leave (R20, R22, R80, R82, R373)

A descriptor written back, a ring settled, an unpredictable outcome: each may tear contexts down, and that is all it does to contexts,
to the rings' and contexts' registers and to host memory. -/

/-- A step that only tears contexts down: a torn context keeps its place, its rings read CLOSED, the BUSY of its SAVE ends, and
commands may go. -/
structure State.mayTear (s t : State) : Prop where
  regs : ∀ off, 0x100000 ≤ off → off < 0x600000 → off ≠ Reg.CTX_CMD_STATUS → t.reg off = s.reg off
  idle : s.fldR Reg.CTX_CMD_STATUS 63 63 = 0 → t.fldR Reg.CTX_CMD_STATUS 63 63 = 0
  hostMem : t.out.hostMem = s.out.hostMem
  ctx : ∀ n, t.ctx n = s.ctx n ∨
    ∃ cause, t.ctx n = (s.ctx n).torn cause ∧ ((s.ctx n).saving.isSome = true → t.fldR Reg.CTX_CMD_STATUS 63 63 = 0)
  ring : ∀ r, t.ring r = s.ring r ∨ (t.ring r).state = 0
  flight : t.flight ⊆ s.flight

theorem keepsWork_vtouch (s : State) (c va n : Nat) : s.keepsWork (vtouch s c va n) := by
  refine .foldl _ s fun u pc => ?_
  split
  · exact .ite (keepsWork_walked u c pc.1) ((keepsWork_walked u c pc.1).trans (keepsWork_readPhys ..))
  · exact keepsWork_walked u c pc.1

theorem keepsWork_noteErr (s : State) (c : Nat) (x : MErr) : s.keepsWork (noteErr s c x) := by
  cases x with
  | trans va => exact keepsWork_walked s c va
  | data st va => exact keepsWork_vtouch s c va 1
  | host | wait | unavail => exact .refl s

/-- A context's rings dropped: those of its range read CLOSED. -/
theorem dropRings_ring (s : State) (n r : Nat) :
    (dropRings s n).ring r = if r < (s.ctx n).first ∨ (s.ctx n).first + (s.ctx n).count ≤ r then s.ring r else Ring.closed := by
  have h := spGet_filter_key Ring.closed (fun k => decide (k < (s.ctx n).first ∨ (s.ctx n).first + (s.ctx n).count ≤ k)) s.rings r
  simp only [decide_eq_true_eq] at h
  exact h

@[simp] theorem releaseCtx_rings (s : State) (n : Nat) : (releaseCtx s n).rings = s.rings := by simp [releaseCtx]
theorem releaseCtx_ring (s : State) (n r : Nat) : (releaseCtx s n).ring r = s.ring r := by simp [State.ring]

namespace State.mayTear
variable {s t u : State} {α : Type}

/-- What leaves contexts and what is posted, opens no ring and adds no command. -/
theorem of_posted (hc : t.ctxs = s.ctxs) (hp : t.posted = s.posted) (hr : ∀ r, t.ring r = s.ring r ∨ (t.ring r).state = 0)
    (hf : t.flight ⊆ s.flight) : s.mayTear t where
  regs _ h1 h2 _ := State.posted_reg hp h1 h2
  idle h := (congrArg (fld · 63 63) (State.posted_reg hp (by decide) (by decide))).trans h
  hostMem := State.posted_hostMem hp
  ctx n := .inl (congrArg (spGet Ctx.free · n) hc)
  ring := hr
  flight := hf

theorem of_keepsWork (h : s.keepsWork t) (hp : t.posted = s.posted) : s.mayTear t :=
  of_posted h.ctxs hp (fun r => .inl (congrArg (spGet Ring.closed · r) h.rings)) (h.flight ▸ List.Subset.refl _)

theorem refl (s : State) : s.mayTear s := of_keepsWork (.refl s) rfl

theorem trans (h : s.mayTear t) (h' : t.mayTear u) : s.mayTear u where
  regs off h1 h2 hne := (h'.regs off h1 h2 hne).trans (h.regs off h1 h2 hne)
  idle := h'.idle ∘ h.idle
  hostMem := h'.hostMem.trans h.hostMem
  ctx n := by
    rcases h.ctx n with hs | ⟨a, ha, hbit⟩ <;> rcases h'.ctx n with ht | ⟨b, hb, hbit'⟩
    · exact .inl (ht.trans hs)
    · exact .inr ⟨b, by rw [hb, hs], by rwa [hs] at hbit'⟩
    · exact .inr ⟨a, ht.trans ha, h'.idle ∘ hbit⟩
    · exact .inr ⟨b, by rw [hb, ha]; rfl, h'.idle ∘ hbit⟩
  ring r := by
    rcases h'.ring r with ht | ht
    · rw [ht]
      exact h.ring r
    · exact .inr ht
  flight := List.Subset.trans h'.flight h.flight

theorem ite {p : Prop} [Decidable p] (h : s.mayTear t) (h' : s.mayTear u) : s.mayTear (if p then t else u) := by
  split
  · exact h
  · exact h'

theorem foldl {f : State → α → State} (hf : ∀ u a, State.mayTear u (f u a)) (s : State) (l : List α) : s.mayTear (l.foldl f s) :=
  List.foldlRecOn (motive := s.mayTear) l f (refl s) fun u hu a _ => hu.trans (hf u a)

/-- A context keeps its partition, its function and its ring range. -/
theorem place (h : s.mayTear t) (n : Nat) :
    t.ctxPart n = s.ctxPart n ∧ t.ctxFn n = s.ctxFn n ∧ (t.ctx n).first = (s.ctx n).first ∧ (t.ctx n).count = (s.ctx n).count := by
  rcases h.ctx n with hn | ⟨cause, hn, -⟩ <;> simp [State.ctxPart, State.ctxFn, hn, Ctx.torn]

theorem fldR (h : s.mayTear t) {off : Nat} (h1 : 0x100000 ≤ off) (h2 : off < 0x600000) (hne : off ≠ Reg.CTX_CMD_STATUS) (hi lo : Nat) :
    t.fldR off hi lo = s.fldR off hi lo := congrArg (fld · hi lo) (h.regs off h1 h2 hne)

variable (s)

theorem putMem (m : Mem) : s.mayTear (s.putMem m) := of_keepsWork (keepsWork_putMem s m) (by simp)
theorem putTick (k : Tick) : s.mayTear (s.putTick k) := of_keepsWork (by constructor <;> rfl) (by simp)
theorem vwrite (c va : Nat) (bs : List Byte) : s.mayTear (vwrite s c va bs).1 := of_keepsWork (keepsWork_vwrite s c va bs) (by simp)

/-- A ring that is made to read CLOSED. -/
theorem setRing {r : Nat} {g : Ring} (hg : g.state = 0) : s.mayTear (s.setRing r g) :=
  of_posted rfl (by simp) (fun k => by
    by_cases hk : k = r
    · rw [hk, State.ring_setRing_same]
      exact .inr hg
    · exact .inl (State.ring_setRing_ne s r k g hk)) (List.Subset.refl _)

/-! ### Teardown (R373) -/

theorem releaseCtx (n : Nat) : s.mayTear (releaseCtx s n) :=
  of_posted (by simp [Machine.releaseCtx]) (by simp) (fun r => .inl (releaseCtx_ring s n r)) (List.filter_subset_self _)

theorem dropRings (n : Nat) : s.mayTear (dropRings s n) := by
  refine of_posted (by simp [Machine.dropRings]) (by simp) (fun r => ?_) (by simp [Machine.dropRings])
  rw [dropRings_ring]
  split
  · exact .inl rfl
  · exact .inr rfl

theorem endSaveBusy : s.mayTear (s.setF Reg.CTX_CMD_STATUS 63 63 0) where
  regs off _ _ hne := State.reg_setF_ne s _ _ _ _ _ hne
  idle _ := State.fldR_setF_same s _ 63 63 0 (by decide) (by decide)
  hostMem := by simp
  ctx n := .inl ((keepsWork_setReg s _ _).ctx n)
  ring r := .inl (by simp [State.ring])
  flight := by simp

/-- A context is marked TORN_DOWN, the BUSY of its SAVE ended. -/
theorem setTorn {n : Nat} (cause : Nat) (h : (s.ctx n).saving.isSome = true → s.fldR Reg.CTX_CMD_STATUS 63 63 = 0) :
    s.mayTear (s.setCtx n ((s.ctx n).torn cause)) where
  regs _ _ _ _ := rfl
  idle h := h
  hostMem := rfl
  ctx m := by
    by_cases hm : m = n
    · subst hm
      exact .inr ⟨cause, State.ctx_setCtx_same .., h⟩
    · exact .inl (State.ctx_setCtx_ne s n m _ hm)
  ring _ := .inl rfl
  flight := List.Subset.refl _

theorem endTeardown (n cause : Nat) : s.mayTear (endTeardown s n cause) := by
  unfold Machine.endTeardown
  extract_lets s1 s2 s3
  have h1 : s.mayTear s1 := ite (endSaveBusy s) (refl s)
  have hkept : s.keepsWork s1 := .ite (keepsWork_setReg s _ _) (.refl s)
  have hctx := hkept.ctx n
  have h2 : s1.mayTear s2 := by
    simp only [s2, ← hctx]
    refine setTorn s1 cause fun hs => ?_
    rw [hctx] at hs
    simp only [s1, hs, if_true]
    exact State.fldR_setF_same s _ 63 63 0 (by decide) (by decide)
  have h3 : s2.mayTear s3 := of_keepsWork (keepsWork_signalIf ..) (posted_ite_same (by simp) rfl)
  exact h1.trans (h2.trans (h3.trans (of_keepsWork (keepsWork_logError ..) (by simp))))

theorem teardown (n cause : Nat) : s.mayTear (teardown s n cause) := by
  by_cases h : s.ctxState n = 0 ∨ s.ctxState n = 5
  · rw [teardown_eq_self cause h]
    exact refl s
  · obtain ⟨h0, h5⟩ := not_or.mp h
    rw [teardown_eq s n cause h0 h5]
    exact (of_keepsWork (keepsWork_abortAll s n) (by simp)).trans ((releaseCtx _ n).trans ((dropRings _ n).trans (endTeardown _ n cause)))

/-! ### Unpredictable outcomes and failing accesses (R20 to R22) -/

theorem readyOnTear : s.mayTear (readyOnTear s) :=
  ite (of_posted (by simp) (by simp) (fun r => .inl (by simp)) (by simp)) (refl s)

theorem unpredictable (sc : Scope) : s.mayTear (unpredictable s sc) := by
  have hwrites : s.mayTear ((Config.unpredWrites s.free).foldl (fun s w => unpredWrite s sc w) (s.putFree (s.free + 1))) :=
    (of_keepsWork (keepsWork_putFree s _) (by simp)).trans (foldl (fun u w => ite (vwrite u _ _ _) (refl u)) _ _)
  unfold Machine.unpredictable
  extract_lets k s1 torn s2
  have htears : s.mayTear s2 := hwrites.trans (foldl (fun u n => teardown u n _) s1 torn)
  exact ite htears (htears.trans (readyOnTear _))

variable {s}

theorem ownFails {s0 s1 : State} (h0 : s.mayTear s0) (h1 : s.mayTear s1) (n cause : Nat) (x : MErr) : s.mayTear (ownFails s0 s1 n cause x) := by
  cases x with
  | unavail => exact h0
  | wait => exact h0
  | host => exact h1.trans (unpredictable s1 _)
  | trans va => exact h1.trans (teardown s1 n 1)
  | data st va => exact h1.trans (teardown s1 n cause)

variable (s)

theorem afterClears {f : State → State} (hf : ∀ u, State.mayTear u (f u)) : s.mayTear (afterClears s f) :=
  (putMem s { s.mem with clearing := [] }).trans ((hf _).trans (putMem _ _))

theorem ownWrite (n va : Nat) (bs : List Byte) : s.mayTear (ownWrite s n va bs) := by
  refine afterClears s fun u => ?_
  have hw := vwrite u n va bs
  split
  next heq => rw [heq] at hw; exact hw
  next heq => rw [heq] at hw; exact ownFails (refl u) hw n 2 _

/-! ### Rings that close (R80, R82) -/

theorem writeBack (r : Nat) : s.mayTear (writeBack s r) := by
  unfold Machine.writeBack
  split
  · exact refl s
  · exact ownWrite s _ _ _

theorem closeRingState (r : Nat) : s.mayTear (setRingState s r 0) := ite (refl s) ((setRing s rfl).trans (writeBack _ r))

theorem settleRing (r : Nat) : s.mayTear (settleRing s r) := by
  have hclosed : s.mayTear ((setRingState s r 0).setRing r Ring.closed) := (closeRingState s r).trans (setRing _ rfl)
  unfold Machine.settleRing
  refine ite ?_ (refl s)
  split
  · exact ite (hclosed.trans (putTick _ _)) hclosed
  · exact hclosed

end State.mayTear

end Sys2Proof.Machine

namespace Sys2Proof.Machine

/-! ### A context becomes FREE (R360) -/

section
variable (s : State) (n : Nat)

@[simp] theorem freeCtx_posted : (freeCtx s n).posted = s.posted := by
  unfold freeCtx
  dsimp only
  split <;> simp
@[simp] theorem freeCtx_rings : (freeCtx s n).rings = s.rings := by
  unfold freeCtx
  dsimp only
  split <;> simp [State.setCtx]
@[simp] theorem freeCtx_flight : (freeCtx s n).flight = s.flight := by
  unfold freeCtx
  dsimp only
  split <;> simp [State.setCtx]
@[simp] theorem freeCtx_mem : (freeCtx s n).mem = s.mem := by
  unfold freeCtx
  dsimp only
  split <;> simp [State.setCtx]

theorem freeCtx_ctxs : (freeCtx s n).ctxs = spSet Ctx.free s.ctxs n { Ctx.free with part := (s.ctx n).part, fn := (s.ctx n).fn } := by
  unfold freeCtx
  dsimp only
  split <;> simp [State.setCtx]

theorem freeCtx_ctxState : (freeCtx s n).ctxState n = 0 := by
  rw [State.ctxState, State.ctx, freeCtx_ctxs, spGet_spSet_same]
  rfl
theorem freeCtx_ctx_ne {m : Nat} (h : m ≠ n) : (freeCtx s n).ctx m = s.ctx m := by
  rw [State.ctx, freeCtx_ctxs, spGet_spSet_ne _ _ _ _ _ _ h, State.ctx]

@[simp] theorem settleCtx_posted : (settleCtx s n).posted = s.posted := posted_ite_same (freeCtx_posted s n) rfl
@[simp] theorem settleCtx_flight : (settleCtx s n).flight = s.flight := by unfold settleCtx; dsimp only; split <;> simp
@[simp] theorem settleCtx_rings : (settleCtx s n).rings = s.rings := by unfold settleCtx; dsimp only; split <;> simp

theorem settleCtx_ctx : (settleCtx s n).ctx n = s.ctx n ∨ (settleCtx s n).ctxState n = 0 := by
  unfold settleCtx
  dsimp only
  split
  · exact .inr (freeCtx_ctxState s n)
  · exact .inl rfl

end

/-! ### Records in a return ring in host memory (R102 to R104) -/

/-- The bytes of a list of words. -/
theorem wordsBytes_getElem? (ws : List Word) (i : Nat) {k : Nat} (hk : k < 8) :
    (wordsBytes ws)[8 * i + k]? = ws[i]?.map fun w => BitVec.ofNat 8 (w.toNat / 256 ^ k) := by
  induction ws generalizing i with
  | nil => simp [wordsBytes]
  | cons w ws ih =>
    rw [wordsBytes, List.flatMap_cons]
    cases i with
    | zero =>
      have hk' : k < (leBytes 8 w.toNat).length := by rwa [leBytes_length]
      rw [Nat.mul_zero, Nat.zero_add, List.getElem?_append_left hk', List.getElem?_eq_getElem hk', leBytes_getElem]
      rfl
    | succ i =>
      rw [List.getElem?_append_right (by rw [leBytes_length]; omega), leBytes_length, show 8 * (i + 1) + k - 8 = 8 * i + k by omega]
      exact ih i

theorem wordsBytes_length (ws : List Word) : (wordsBytes ws).length = 8 * ws.length := by
  simp [wordsBytes, List.length_flatMap, leBytes_length, Nat.mul_comm]

/-- What stands in host memory once words are posted there. -/
theorem spGet_postedWord {cells : List (Nat × Byte)} (a : Nat) {ws : List Word} {i k : Nat} (hi : i < ws.length) (hk : k < 8) :
    spGet 0 (storeBytes cells a (wordsBytes ws)) (a + 8 * i + k) = BitVec.ofNat 8 ((ws.getD i 0).toNat / 256 ^ k) := by
  have hlt : 8 * i + k < (wordsBytes ws).length := by rw [wordsBytes_length]; omega
  have hget := wordsBytes_getElem? ws i hk
  rw [List.getElem?_eq_getElem hlt, List.getElem?_eq_getElem hi, Option.map_some, Option.some_inj] at hget
  rw [Nat.add_assoc, spGet_storeBytes cells a _ hlt, hget, List.getD_eq_getElem _ _ hi]

section
variable {s : State} {n : Nat}

/-- Records that the ring could hold stay. -/
theorem purgeRecords_eq_self (h : ∀ x ∈ (s.ctx n).recs, s.oversized n x = false) : purgeRecords s n = s := by
  have hnone : (s.ctx n).recs.filter (s.oversized n) = [] := List.filter_eq_nil_iff.mpr fun x hx => by simp [h x hx]
  unfold purgeRecords
  simp only [hnone, if_true]

/-- Posting into a return ring in host memory never fails. -/
theorem retWrite_host (h : s.fldR (Reg.RING_RET_BASE n) 0 0 = 0) (i : Nat) (bs : List Byte) :
    ∃ m, retWrite s n i bs = (s.putOut { s.out with hostMem := m }, none) := by
  unfold retWrite
  refine List.foldlRecOn (motive := fun acc : State × Option MErr => ∃ m, acc = (s.putOut { s.out with hostMem := m }, none)) _ _
    ⟨s.out.hostMem, rfl⟩ fun acc hacc k _ => ?_
  obtain ⟨m, rfl⟩ := hacc
  exact ⟨_, by simp only [Option.isSome_none, Bool.false_eq_true, if_false, h, if_true]; rfl⟩

/-- One entry is posted as one write. -/
theorem retWrite_host_entry (h : s.fldR (Reg.RING_RET_BASE n) 0 0 = 0) (i : Nat) {bs : List Byte} (hbs : bs.length = 64) :
    retWrite s n i bs = (hostWrite s (s.fldR (Reg.RING_RET_BASE n) 63 6 * 64 + 64 * (i % s.retCap n)) bs, none) := by
  have hlen : ceilDiv bs.length 64 = 1 := by rw [hbs]; rfl
  unfold retWrite
  simp [hlen, h, List.range_one, List.take_of_length_le (Nat.le_of_eq hbs)]

/-- The header of a record, its last word with the PHASE bit (Table 3.12). -/
def recordHeader (s : State) (n : Nat) (r : Record) : List Word :=
  r.words ++ [BitVec.ofNat 64 ((1 - s.fldR (Reg.RING_RET_STATUS n) 63 32 / s.retCap n % 2) * 2 ^ 63)]

/-- Where the header of the next record goes. -/
def State.tailEntry (s : State) (n : Nat) : Nat :=
  s.fldR (Reg.RING_RET_BASE n) 63 6 * 64 + 64 * (s.fldR (Reg.RING_RET_STATUS n) 63 32 % s.retCap n)

/-- A record written to host memory: its payload first, its header last. -/
theorem writeRecord_host (r : Record) (h : s.fldR (Reg.RING_RET_BASE n) 0 0 = 0) (hw : r.words.length = 7) :
    ∃ m, writeRecord s n r = afterRecord (recordWritten (s.putOut { s.out with
      hostMem := storeBytes m (s.tailEntry n) (wordsBytes (recordHeader s n r)) }) n r) n r := by
  obtain ⟨m, hm⟩ := retWrite_host h (s.fldR (Reg.RING_RET_STATUS n) 63 32 + 1) r.payload
  have hlen : (wordsBytes (recordHeader s n r)).length = 64 := by simp [wordsBytes_length, recordHeader, hw]
  have hhdr := retWrite_host_entry (s := s.putOut { s.out with hostMem := m }) (n := n) h (s.fldR (Reg.RING_RET_STATUS n) 63 32) hlen
  refine ⟨m, ?_⟩
  unfold writeRecord
  dsimp only
  rw [hm]
  dsimp only
  unfold recordHeader at hhdr
  rw [hhdr]
  rfl

theorem signalRet_posted (u : State) : (signalRet u n).posted = u.posted := by simp [signalRet]
theorem signalRet_recs (u : State) : ((signalRet u n).ctx n).recs = (u.ctx n).recs := by simp [signalRet]

theorem recordWritten_posted (u : State) (r : Record) : (recordWritten u n r).posted =
    (u.setF (Reg.RING_RET_STATUS n) 63 32 (u.fldR (Reg.RING_RET_STATUS n) 63 32 + packetEntries r.payload.length)).posted := by
  unfold recordWritten
  extract_lets tail s1 c s2 st k s3 th
  have h3 : s3.posted = s1.posted := by simp [s3, s2]
  exact posted_ite_same ((signalRet_posted s3).trans h3) h3

theorem recordWritten_recs (u : State) (r : Record) : ((recordWritten u n r).ctx n).recs = (u.ctx n).recs.drop 1 := by
  unfold recordWritten
  extract_lets tail s1 c s2 st k s3 th
  have h3 : (s3.ctx n).recs = c.recs.drop 1 := by simp [s3, s2]
  have hc : c = u.ctx n := (keepsWork_setReg u _ _).ctx n
  rw [← hc, ← h3]
  split
  · exact signalRet_recs s3
  · rfl

theorem entry_eq_none_of_subset {u v : State} {id : Nat} (hf : v.flight ⊆ u.flight) (h : u.entry id = none) : v.entry id = none :=
  List.find?_eq_none.mpr fun e he => List.find?_eq_none.mp h e (hf he)

/-- A record that tears nothing down leaves what is posted, frees its entry, and leaves an OPEN context the same records (R98, R360). -/
theorem afterRecord_untorn (hn : n < 4096) (u : State) {r : Record} (h : r.tear = none) :
    (afterRecord u n r).fldR (Reg.RING_RET_STATUS n) 63 32 = u.fldR (Reg.RING_RET_STATUS n) 63 32 ∧
    (afterRecord u n r).out.hostMem = u.out.hostMem ∧
    ((afterRecord u n r).ctxState n = 1 → ((afterRecord u n r).ctx n).recs = (u.ctx n).recs) ∧
    (afterRecord u n r).entry r.entry = none := by
  have heq : afterRecord u n r = settleCtx (settleRing (u.dropEntry r.entry) r.ring) n := by simp only [afterRecord, h]
  have hset := State.mayTear.settleRing (u.dropEntry r.entry) r.ring
  generalize settleRing (u.dropEntry r.entry) r.ring = v at heq hset
  rw [heq]
  have hposted := settleCtx_posted v n
  refine ⟨?_, ?_, fun hopen => ?_, ?_⟩
  · rw [State.fldR, State.posted_reg hposted (by simp only [Reg.RING_RET_STATUS]; omega) (by simp only [Reg.RING_RET_STATUS]; omega)]
    exact hset.fldR (by simp only [Reg.RING_RET_STATUS]; omega) (by simp only [Reg.RING_RET_STATUS]; omega)
      (by simp only [Reg.RING_RET_STATUS, Reg.CTX_CMD_STATUS]; omega) 63 32
  · exact (State.posted_hostMem hposted).trans hset.hostMem
  · rcases settleCtx_ctx v n with hn | h0
    · rw [State.ctxState, hn] at hopen
      rw [hn]
      rcases hset.ctx n with hv | ⟨cause, hv, -⟩
      · rw [hv]
        rfl
      · rw [hv] at hopen
        exact absurd hopen (by simp [Ctx.torn])
    · rw [h0] at hopen
      exact absurd hopen (by decide)
  · refine entry_eq_none_of_subset ?_ (entry_dropEntry u r.entry)
    rw [settleCtx_flight]
    exact hset.flight

end

/-- A record written in full (R103, R104). -/
theorem writeRecord_posts {s : State} {n : Nat} {r : Record} {rest : List Record} (hn : n < 4096) (hrecs : (s.ctx n).recs = r :: rest)
    (hbase : s.fldR (Reg.RING_RET_BASE n) 0 0 = 0) (hwords : r.words.length = 7) (htear : r.tear = none) :
    (writeRecord s n r).fldR (Reg.RING_RET_STATUS n) 63 32 =
      (s.fldR (Reg.RING_RET_STATUS n) 63 32 + packetEntries r.payload.length) % 2 ^ 32 ∧
    (∀ i k, i < 8 → k < 8 → spGet 0 (writeRecord s n r).out.hostMem (s.tailEntry n + 8 * i + k) =
      BitVec.ofNat 8 (((recordHeader s n r).getD i 0).toNat / 256 ^ k)) ∧
    ((writeRecord s n r).ctxState n = 1 → ((writeRecord s n r).ctx n).recs = rest) ∧ (writeRecord s n r).entry r.entry = none := by
  obtain ⟨m, heq⟩ := writeRecord_host r hbase hwords
  have hlen : (recordHeader s n r).length = 8 := by simp [recordHeader, hwords]
  obtain ⟨htail, hhost, hleft, hentry⟩ := afterRecord_untorn hn (recordWritten (s.putOut { s.out with
    hostMem := storeBytes m (s.tailEntry n) (wordsBytes (recordHeader s n r)) }) n r) htear
  have hposted := recordWritten_posted (n := n) (s.putOut { s.out with
    hostMem := storeBytes m (s.tailEntry n) (wordsBytes (recordHeader s n r)) }) r
  rw [heq]
  refine ⟨?_, fun i k hi hk => ?_, fun hopen => ?_, hentry⟩
  · rw [htail, State.fldR, State.posted_reg hposted (by simp only [Reg.RING_RET_STATUS]; omega) (by simp only [Reg.RING_RET_STATUS]; omega),
      ← State.fldR, State.fldR_setF_same _ _ _ _ _ (by decide) (by decide), State.putOut_fldR]
  · rw [hhost, State.posted_hostMem hposted, State.setF_out]
    exact spGet_postedWord _ (by omega) hk
  · rw [hleft hopen, recordWritten_recs]
    exact congrArg (List.drop 1) hrecs

/-- The last byte of a record's header holds PHASE in its top bit. -/
theorem phase_byte (x : Nat) : (BitVec.ofNat 8 ((BitVec.ofNat 64 ((1 - x % 2) * 2 ^ 63)).toNat / 256 ^ 7)).toNat = 128 * (1 - x % 2) := by
  rcases Nat.mod_two_eq_zero_or_one x with h | h <;> rw [h] <;> rfl

/-- Settles O37: posting to host memory cannot fail, and what follows the record tears contexts down at most. -/
theorem recordsWritten : Obligations.RecordsWritten := by
  intro s n rec rest hlive hopen hn
  refine ⟨fun hrecs hfit => ⟨fun hwait => ?_, fun hen hroom hbase hwords htear => ?_⟩, fun hcount htimeout => ?_⟩
  · simp [exec, execRecordWrite, hlive, hopen, purgeRecords_eq_self hfit, hrecs, hwait]
  · have hexec : exec (.recordWrite n) s = .next (writeRecord s n rec) := by
      simp [exec, execRecordWrite, hlive, hopen, purgeRecords_eq_self hfit, hrecs, hen, Nat.not_lt.mpr hroom]
    obtain ⟨htail, hbytes, hleft, hentry⟩ := writeRecord_posts hn hrecs hbase hwords htear
    refine ⟨_, hexec, htail, fun i k hi hk => ?_, ?_, hleft, hentry⟩
    · have hbyte := hbytes i k (by omega) hk
      rw [recordHeader, List.getD_append _ _ _ _ (by omega)] at hbyte
      exact hbyte
    · have hlast := hbytes 7 7 (by omega) (by omega)
      rw [recordHeader, List.getD_append_right _ _ _ _ (by omega), hwords] at hlast
      exact (congrArg BitVec.toNat hlast).trans (phase_byte _)
  · have hexec : exec (.returnIrqTimeout n) s = .next (signalRet s n) := by
      simp [exec, execReturnIrqTimeout, hlive, htimeout, Nat.ne_of_gt hcount]
    refine ⟨_, hexec, by simp [signalRet], fun hv => ?_, fun hv => ?_⟩
    · have hv' : (s.setCtx n { s.ctx n with unsignalled := 0 }).msixOpen (s.ctxFn n) (s.fldR (Reg.RING_RET_CFG n) 42 32) = true := hv
      simp only [signalRet, signalMsi, hv', if_true]
      rfl
    · have hv' : (s.setCtx n { s.ctx n with unsignalled := 0 }).msixOpen (s.ctxFn n) (s.fldR (Reg.RING_RET_CFG n) 42 32) = false := hv
      simp only [signalRet, signalMsi, hv', Bool.false_eq_true, if_false]
      exact ⟨congrArg MsixEntry.pend (spGet_spSet_same ..), rfl⟩

end Sys2Proof.Machine

namespace Sys2Proof.Machine

/-! ### Discards of closed streams leave contexts (R26, R82) -/

namespace State.worked
variable {id : Nat} {loose : Bool} (s : State)

theorem wr64 (c va v : Nat) : s.worked id loose (wr64 s c va v).1 := vwrite s c va _

theorem readingPlane (c h p : Nat) {f : State → Plane → M} (hf : ∀ u pl, State.worked id loose u (f u pl).1) :
    s.worked id loose (readingPlane s c h p f).1 := by
  unfold Machine.readingPlane
  split
  · exact refl s
  · exact trans (trans (vtouch s c _ _) (vtouch _ c _ _)) (hf _ _)

theorem threeWords (c a b d v w x : Nat) : s.worked id loose
    ((Machine.wr64 s c a v).next fun u => (Machine.wr64 u c b w).next fun u => Machine.wr64 u c d x).1 :=
  (wr64 s c a v).next fun u => (wr64 u c b w).next fun u => wr64 u c d x

theorem freePage (c i : Nat) : s.worked id loose (freePage s c i).1 := (wr64 s c _ _).next fun _ => same

theorem putKv (k : Kv) : s.worked id loose (s.putKv k) := same

theorem dropSlot (k : EyeSlot) (pages : List Nat) : s.worked id loose (dropSlot s k pages).1 :=
  (putKv s _).trans (foldM (fun u i => freePage u k.ctx i) _ _)

theorem lowerPage (c i : Nat) : s.worked id loose (lowerPage s c i).1 := by
  refine reading fun u n => ?_
  split
  · exact freePage u c i
  · exact wr64 u c _ _

theorem dropPages (c h pn k : Nat) : s.worked id loose (dropPages s c h pn k).1 := by
  refine readingPlane s c h pn fun u p => foldM (fun v i => reading fun v e => ?_) u _
  split
  · exact refl v
  · exact (lowerPage v c _).next fun v => wr64 v c _ _

theorem freeList (c fuel h : Nat) : s.worked id loose (freeList s c fuel h).1 := by
  induction fuel generalizing s h with
  | zero => exact refl s
  | succ fuel ih =>
    unfold Machine.freeList
    split
    · exact refl s
    · exact refl s
    extract_lets kept m par
    have hm : s.worked id loose m.1 :=
      ((vtouch s c _ 24).trans (foldM (fun u p => dropPages u c h p _) _ _)).next fun u => wr64 u c _ _
    clear_value m
    split
    · exact hm
    split
    · extract_lets kids m1
      have hm1 : s.worked id loose m1.1 := hm.trans (trans (vtouch _ c _ 24) (wr64 _ c _ _))
      clear_value m1
      split
      · exact hm1
      · exact hm1.trans (ih _ _)
    · exact hm
    · exact hm

theorem discardList (c h : Nat) : s.worked id loose (discardList s c h).1 := by
  unfold Machine.discardList
  split
  · exact refl s
  · exact (foldM (fun u k => readingPlane u c _ _ fun v p => (dropSlot v k _).next fun w => threeWords w c _ _ _ _ _ _) s _).next
      fun u => freeList u c 66 h

theorem discardStream (c sh kh : Nat) : s.worked id loose (discardStream s c sh kh).1 := by
  refine next ?_ fun u => discardList u c kh
  split
  · exact refl s
  refine reading fun u e => trans ?_ (threeWords _ c _ _ _ _ _ _)
  refine ite (ite same (refl u)) (ite same (ite ?_ (ite same (refl u))))
  exact trans (t := derefSnapshot u c e.core e.slot sh) same same

end State.worked

/-- A discard at an edge leaves every context its partition: it tears contexts down at most. -/
theorem discardDueAt_ctxPart (s : State) (x : Nat × Nat × Nat) (m : Nat) : (discardDueAt s x).ctxPart m = s.ctxPart m := by
  have hd := (State.worked.discardStream (id := 0) (loose := true) s x.1 x.2.1 x.2.2).ctxs
  unfold discardDueAt
  split
  next u heq =>
    rw [heq] at hd
    exact congrArg (fun l => (spGet Ctx.free l m).part) hd
  next x' _ =>
    have h0 : s.mayTear (s.putTick { s.tick with discards := s.tick.discards ++ [x] }) := .putTick s _
    have h1 := State.mayTear.of_keepsWork (keepsWork_noteErr s x.1 x') (noteErr_posted s x.1 x')
    exact ((State.mayTear.ownFails h0 h1 _ _ _).place m).1

end Sys2Proof.Machine

namespace Sys2Proof.Machine

/-! ### CTX_CMD_STATUS (Table 14.2) -/

theorem State.onlyRegs.keepsWork {s t : State} {l : List Nat} (h : s.onlyRegs t l) : s.keepsWork t := by
  rw [h.1]
  constructor <;> rfl

section
variable (s : State) (op n res : Nat)

theorem ctxResult_onlyRegs : s.onlyRegs (ctxResult s op n res) [Reg.CTX_CMD_STATUS] :=
  ((onlyRegs_setF s _ _ _ _).setF _ _ _).setF _ _ _

theorem keepsWork_ctxResult : s.keepsWork (ctxResult s op n res) := (ctxResult_onlyRegs s op n res).keepsWork

@[simp] theorem ctxResult_mem : (ctxResult s op n res).mem = s.mem := by simp [ctxResult]
@[simp] theorem ctxResult_rings : (ctxResult s op n res).rings = s.rings := by simp [ctxResult]
@[simp] theorem ctxResult_flight : (ctxResult s op n res).flight = s.flight := by simp [ctxResult]
@[simp] theorem ctxResult_ctx (m : Nat) : (ctxResult s op n res).ctx m = s.ctx m := (keepsWork_ctxResult s op n res).ctx m
@[simp] theorem ctxResult_ring (r : Nat) : (ctxResult s op n res).ring r = s.ring r := by simp [State.ring]
@[simp] theorem ctxResult_effReg (off : Nat) : (ctxResult s op n res).effReg off = s.effReg off :=
  congrArg (spGet (regReset off) · off) (keepsWork_ctxResult s op n res).eff
@[simp] theorem ctxResult_effF (off hi lo : Nat) : (ctxResult s op n res).effF off hi lo = s.effF off hi lo :=
  congrArg (fld · hi lo) (ctxResult_effReg s op n res off)
@[simp] theorem ctxResult_reg_ne {off : Nat} (h : off ≠ Reg.CTX_CMD_STATUS) : (ctxResult s op n res).reg off = s.reg off :=
  (ctxResult_onlyRegs s op n res).2 off (by simpa using h)
@[simp] theorem ctxResult_devState : (ctxResult s op n res).devState = s.devState :=
  congrArg (fld · 2 0) (ctxResult_reg_ne s op n res (by decide))

theorem ctxResult_result (h : res < 16) : (ctxResult s op n res).fldR Reg.CTX_CMD_STATUS 43 40 = res := by
  rw [ctxResult, State.fldR_setF_same _ _ _ _ _ (by decide) (by decide)]
  exact Nat.mod_eq_of_lt h
theorem ctxResult_context (h : n < 4096) : (ctxResult s op n res).fldR Reg.CTX_CMD_STATUS 55 44 = n := by
  rw [ctxResult, State.fldR_setF_disjoint _ _ _ _ _ _ _ (by decide) (by decide) (by decide),
    State.fldR_setF_same _ _ _ _ _ (by decide) (by decide)]
  exact Nat.mod_eq_of_lt h
theorem ctxResult_operation (h : op < 16) : (ctxResult s op n res).fldR Reg.CTX_CMD_STATUS 59 56 = op := by
  rw [ctxResult, State.fldR_setF_disjoint _ _ _ _ _ _ _ (by decide) (by decide) (by decide),
    State.fldR_setF_disjoint _ _ _ _ _ _ _ (by decide) (by decide) (by decide), State.fldR_setF_same _ _ _ _ _ (by decide) (by decide)]
  exact Nat.mod_eq_of_lt h
theorem ctxResult_busy : (ctxResult s op n res).fldR Reg.CTX_CMD_STATUS 63 63 = s.fldR Reg.CTX_CMD_STATUS 63 63 := by
  rw [ctxResult, State.fldR_setF_disjoint _ _ _ _ _ _ _ (by decide) (by decide) (by decide),
    State.fldR_setF_disjoint _ _ _ _ _ _ _ (by decide) (by decide) (by decide),
    State.fldR_setF_disjoint _ _ _ _ _ _ _ (by decide) (by decide) (by decide)]

end

/-! ### CTX_OPEN (R358, R359) -/

section
variable {s : State} {p n count first : Nat}

theorem exec_ctxOpen (h : s.live = true) (hn : n < 4096) :
    exec (.ctxOpen 0 p n count first) s = .next (ctxResult (if s.openResult 0 p n count first = resOk then openCtx s p n count first else s)
      opOpen n (s.openResult 0 p n count first)) := by
  simp [exec, execCtxOpen, h, Nat.not_le.mpr hn, State.openPart]

theorem rangeTaken_eq_false (h : ∀ m ∈ s.openCtxs, first + count ≤ (s.ctx m).first ∨ (s.ctx m).first + (s.ctx m).count ≤ first) :
    s.rangeTaken first count = false := by
  refine List.any_eq_false.mpr fun m hm => ?_
  have hm' := h m hm
  simp only [overlaps, Bool.and_eq_true, decide_eq_true_eq]
  omega

theorem openResult_ok (hlive : s.live = true) (hbusy : s.ctxBusy = false) (hfree : s.ctxState n = 0) (hdef : (s.part p).defined = true)
    (happlying : s.fldR Reg.HOL_STATUS 10 10 = 0) (hfull : s.hol.pendFull = none) (hfrag : s.hol.pendFrag = none ∨ s.hol.draining = false)
    (hroom : (s.openCtxs.filter fun m => decide (s.ctxPart m = p)).length < (s.part p).maxCtx) (hlast : first + count ≤ 262144)
    (hapart : ∀ m ∈ s.openCtxs, first + count ≤ (s.ctx m).first ∨ (s.ctx m).first + (s.ctx m).count ≤ first) :
    s.openResult 0 p n count first = resOk := by
  have hstate : s.devState = stReady ∨ s.devState = stRun ∨ s.devState = stSafe := by
    obtain ⟨h4, h6⟩ : 4 ≤ s.devState ∧ s.devState ≤ 6 := of_decide_eq_true hlive
    generalize s.devState = d at h4 h6 ⊢
    interval_cases d <;> simp
  have hwaits : ¬(s.fldR Reg.HOL_STATUS 10 10 = 1 ∨ s.hol.pendFull.isSome ∨
      (s.hol.draining && s.hol.pendFrag.any fun i => decide (i.header.target = p))) := by
    rcases hfrag with h | h <;> simp [happlying, hfull, h]
  unfold State.openResult
  rw [if_neg (by simp [hbusy]), if_neg (by simp [hfree])]
  simp only [State.openPart, if_true]
  rw [if_neg (by simp [hdef]), if_neg (not_not_intro (by simpa using hstate)), if_neg hwaits, if_neg (Nat.not_le.mpr hroom),
    if_neg (by simp [rangeTaken_eq_false hapart, hlast])]

end

end Sys2Proof.Machine

namespace Sys2Proof.Machine

/-! ### What OPEN sets (R359) -/

section
variable (s : State)

theorem State.effReg_setBoth (off o : Nat) (w : Word) : (s.setBoth off w).effReg o = if o = off then w else s.effReg o := by
  split
  next h => rw [h]; exact State.effReg_setEff_same ..
  next h => exact State.effReg_setEff_ne _ _ _ _ h

theorem State.reg_setBoth (off o : Nat) (w : Word) : (s.setBoth off w).reg o = if o = off then w else s.reg o := State.reg_setReg s off o w

/-- Registers put at reset are at reset and in force; the others stand. -/
theorem foldl_setReset (l : List Nat) (off : Nat) :
    (l.foldl (fun u o => u.setBoth o (regReset o)) s).reg off = (if off ∈ l then regReset off else s.reg off) ∧
    (l.foldl (fun u o => u.setBoth o (regReset o)) s).effReg off = (if off ∈ l then regReset off else s.effReg off) := by
  induction l generalizing s with
  | nil => simp
  | cons o l ih =>
    obtain ⟨hreg, heff⟩ := ih (s.setBoth o (regReset o))
    rw [List.foldl_cons, hreg, heff, State.reg_setBoth, State.effReg_setBoth]
    by_cases h : off = o
    · subst h
      simp
    · simp [h]

theorem foldl_setReset_same {α : Type} {f : State → α} (hf : ∀ u o w, f (State.setBoth u o w) = f u) (l : List Nat) :
    f (l.foldl (fun u o => u.setBoth o (regReset o)) s) = f s :=
  List.foldlRecOn (motive := fun u : State => f u = f s) l _ rfl fun u hu o _ => (hf u o _).trans hu

variable (n cls : Nat)

/-- The registers that OPEN puts at reset. -/
def openedAtReset : List Nat :=
  [Reg.CTX_CORES n, Reg.CTX_PT_ROOT n, Reg.CTX_SPILL n, Reg.CTX_SAVE n, Reg.CTX_STATE_TBL n, Reg.CTX_KEY_TBL n, Reg.TCK_CTX_BUDGET n,
    Reg.RING_RET_STATUS n, Reg.KV_CTX_CFG n]

theorem openRegs_eq : openRegs s n cls =
    ((((openedAtReset n).foldl (fun u o => u.setBoth o (regReset o)) (dropWhere s fun r => decide (r.ctx = n))).setBoth (Reg.CTX_CFG n)
      (setFld 0 61 61 cls)).setF (Reg.RING_RET_CFG n) 63 63 0).setPool n (0, []) := (rfl)

section
variable (x : Nat × List Nat) (off : Nat)

@[simp] theorem State.setPool_reg : (s.setPool n x).reg off = s.reg off := (rfl)
@[simp] theorem State.setPool_fldR (hi lo : Nat) : (s.setPool n x).fldR off hi lo = s.fldR off hi lo := (rfl)
@[simp] theorem State.setPool_effReg : (s.setPool n x).effReg off = s.effReg off := (rfl)
@[simp] theorem State.setPool_ctxs : (s.setPool n x).ctxs = s.ctxs := (rfl)
@[simp] theorem State.setPool_rings : (s.setPool n x).rings = s.rings := (rfl)
@[simp] theorem State.setPool_flight : (s.setPool n x).flight = s.flight := (rfl)
@[simp] theorem State.setPool_mem : (s.setPool n x).mem = s.mem := (rfl)

end

theorem openRegs_atReset {off : Nat} (hmem : off ∈ openedAtReset n) (hcfg : off ≠ Reg.CTX_CFG n) (hret : off ≠ Reg.RING_RET_CFG n) :
    (openRegs s n cls).reg off = regReset off ∧ (openRegs s n cls).effReg off = regReset off := by
  obtain ⟨hreg, heff⟩ := foldl_setReset (dropWhere s fun r => decide (r.ctx = n)) (openedAtReset n) off
  rw [if_pos hmem] at hreg heff
  rw [openRegs_eq, State.setPool_reg, State.reg_setF_ne _ _ _ _ _ _ hret, State.reg_setBoth, if_neg hcfg, State.setPool_effReg,
    State.setF_effReg, State.effReg_setBoth, if_neg hcfg]
  exact ⟨hreg, heff⟩

theorem openRegs_class : (openRegs s n cls).effF (Reg.CTX_CFG n) 61 61 = cls % 2 := by
  rw [openRegs_eq, State.effF, State.setPool_effReg, State.setF_effReg, State.effReg_setBoth, if_pos rfl,
    fld_setFld_same _ _ _ _ (by decide) (by decide)]
  rfl

theorem openRegs_returnRing : (openRegs s n cls).fldR (Reg.RING_RET_CFG n) 63 63 = 0 := by
  rw [openRegs_eq, State.setPool_fldR, State.fldR_setF_same _ _ _ _ _ (by decide) (by decide)]
  rfl

theorem le_of_mem_openedAtReset {off : Nat} (h : off ∈ openedAtReset n) : 0x100000 ≤ off := by
  revert off
  simp only [openedAtReset, List.forall_mem_cons, Reg.CTX_CORES, Reg.CTX_PT_ROOT, Reg.CTX_SPILL, Reg.CTX_SAVE, Reg.CTX_STATE_TBL,
    Reg.CTX_KEY_TBL, Reg.TCK_CTX_BUDGET, Reg.RING_RET_STATUS, Reg.KV_CTX_CFG]
  refine ⟨?_, ?_, ?_, ?_, ?_, ?_, ?_, ?_, ?_, fun _ h => absurd h List.not_mem_nil⟩ <;> omega

theorem openRegs_device : s.runStandsOrEnds (openRegs s n cls) := by
  have hdrop : s.runStandsOrEnds (dropWhere s fun r => decide (r.ctx = n)) := (State.calm.dropWhere (strict := false) s _).state
  have hglb : Reg.GLB_STATE ∉ openedAtReset n := fun h => absurd (le_of_mem_openedAtReset n h) (by decide)
  have hret : Reg.GLB_STATE ≠ Reg.RING_RET_CFG n := by simp only [Reg.GLB_STATE, Reg.RING_RET_CFG]; omega
  have hcfg : Reg.GLB_STATE ≠ Reg.CTX_CFG n := by simp only [Reg.GLB_STATE, Reg.CTX_CFG]; omega
  refine hdrop.trans (State.runStandsOrEnds_of_reg ?_)
  rw [openRegs_eq, State.setPool_reg, State.reg_setF_ne _ _ _ _ _ _ hret, State.reg_setBoth, if_neg hcfg, (foldl_setReset _ _ _).1, if_neg hglb]

/-! What OPEN's registers leave. -/

theorem dropWhere_mem (hit : Retained → Bool) : (dropWhere s hit).mem = s.mem :=
  List.foldlRecOn (motive := fun u : State => u.mem = s.mem) _ _ rfl fun _ hu _ _ => hu

theorem openRegs_ctxs : (openRegs s n cls).ctxs = s.ctxs := by
  rw [openRegs_eq, State.setPool_ctxs, State.setF_ctxs, State.setBoth_ctxs, foldl_setReset_same (f := State.ctxs) _ (fun _ _ _ => rfl),
    (keepsWork_dropWhere s _).ctxs]
theorem openRegs_rings : (openRegs s n cls).rings = s.rings := by
  rw [openRegs_eq, State.setPool_rings, State.setF_rings, State.setBoth_rings, foldl_setReset_same (f := State.rings) _ (fun _ _ _ => rfl),
    (keepsWork_dropWhere s _).rings]
theorem openRegs_flight : (openRegs s n cls).flight = s.flight := by
  rw [openRegs_eq, State.setPool_flight, State.setF_flight, State.setBoth_flight,
    foldl_setReset_same (f := State.flight) _ (fun _ _ _ => rfl), (keepsWork_dropWhere s _).flight]
theorem openRegs_mem : (openRegs s n cls).mem = s.mem := by
  rw [openRegs_eq, State.setPool_mem, State.setF_mem, State.setBoth_mem, foldl_setReset_same (f := State.mem) _ (fun _ _ _ => rfl),
    dropWhere_mem]

/-! ### READY becomes RUN with the first open context (Table 0.6) -/

@[simp] theorem runOnOpen_ctxs : (runOnOpen s).ctxs = s.ctxs := by unfold runOnOpen; split <;> simp
@[simp] theorem runOnOpen_rings : (runOnOpen s).rings = s.rings := by unfold runOnOpen; split <;> simp
@[simp] theorem runOnOpen_flight : (runOnOpen s).flight = s.flight := by unfold runOnOpen; split <;> simp
@[simp] theorem runOnOpen_mem : (runOnOpen s).mem = s.mem := by unfold runOnOpen; split <;> simp
@[simp] theorem runOnOpen_effReg (off : Nat) : (runOnOpen s).effReg off = s.effReg off := by unfold runOnOpen; split <;> simp
@[simp] theorem runOnOpen_posted : (runOnOpen s).posted = s.posted := posted_ite_same (by simp) rfl

theorem runOnOpen_devState (h : s.openCtxs ≠ []) : (runOnOpen s).devState = if s.devState = stReady then stRun else s.devState := by
  unfold runOnOpen
  by_cases hs : s.devState = stReady
  · rw [if_pos ⟨hs, h⟩, if_pos hs, enterState_devState s _ (by decide)]
  · rw [if_neg (fun h' => hs h'.1), if_neg hs]

end

/-! ### Discards due of the context (R82) -/

section
variable (s : State)

theorem applyDiscards_ctxPart (hit : Nat → Bool) (m : Nat) : (applyDiscards s hit).ctxPart m = s.ctxPart m :=
  List.foldlRecOn (motive := fun u : State => u.ctxPart m = s.ctxPart m) _ _ rfl fun u hu x _ => (discardDueAt_ctxPart u x m).trans hu

/-- With none due, nothing but the list of discards is rewritten. -/
theorem applyDiscards_none {hit : Nat → Bool} (h : ∀ x ∈ s.tick.discards, hit x.1 = false) :
    applyDiscards s hit = s.putTick { s.tick with discards := s.tick.discards.filter fun x => !hit x.1 } := by
  have hnone : (s.tick.discards.filter fun x => hit x.1) = [] := List.filter_eq_nil_iff.mpr fun x hx => by simp [h x hx]
  unfold applyDiscards
  rw [hnone]
  rfl

end

end Sys2Proof.Machine

namespace Sys2Proof.Machine

/-! ### A context opened (R358, R359) -/

section
variable (s : State) (p n count first : Nat)

/-- A context as OPEN makes it (Table 14.14). -/
def openedCtx : Ctx := { Ctx.free with state := 1, part := p, fn := (s.part p).fn, first := first, count := count, idle := 256 }

theorem openCtx_eq : openCtx s p n count first =
    runOnOpen ((openRegs (applyDiscards s fun m => decide (m = n)) n (s.part p).frag.defClass).setCtx n (openedCtx s p count first)) := (rfl)

theorem openCtx_ctx_same : (openCtx s p n count first).ctx n = openedCtx s p count first := by
  rw [openCtx_eq, State.ctx, runOnOpen_ctxs]
  exact State.ctx_setCtx_same ..

theorem openCtx_ctx_ne {m : Nat} (h : m ≠ n) : (openCtx s p n count first).ctx m = (applyDiscards s fun m => decide (m = n)).ctx m := by
  rw [openCtx_eq, State.ctx, runOnOpen_ctxs, ← State.ctx, State.ctx_setCtx_ne _ _ _ _ h, State.ctx, openRegs_ctxs, State.ctx]

/-- The registers of the opened context. -/
theorem openCtx_reg {off : Nat} (h1 : 0x100000 ≤ off) (h2 : off < 0x600000) : (openCtx s p n count first).reg off =
    (openRegs (applyDiscards s fun m => decide (m = n)) n (s.part p).frag.defClass).reg off := by
  rw [openCtx_eq, State.posted_reg (runOnOpen_posted _) h1 h2, State.setCtx_reg]

theorem openCtx_effReg (off : Nat) : (openCtx s p n count first).effReg off =
    (openRegs (applyDiscards s fun m => decide (m = n)) n (s.part p).frag.defClass).effReg off := by
  rw [openCtx_eq, runOnOpen_effReg, State.setCtx_effReg]

/-- READY becomes RUN, and every other state with contexts stands: the discards may have ended RUN, which the open context takes up again. -/
theorem openCtx_devState :
    (openCtx s p n count first).devState = if s.devState = stReady then stRun else s.devState := by
  have hopen : ((openRegs (applyDiscards s fun m => decide (m = n)) n (s.part p).frag.defClass).setCtx n
      (openedCtx s p count first)).openCtxs ≠ [] := by
    refine List.ne_nil_of_mem (mem_openCtxs (n := n) ?_)
    rw [State.ctxState, State.ctx_setCtx_same]
    rfl
  have hdev : s.runStandsOrEnds (openRegs (applyDiscards s fun m => decide (m = n)) n (s.part p).frag.defClass) :=
    (State.calm.applyDiscards (strict := false) s _).state.trans (openRegs_device _ n _)
  rw [openCtx_eq, runOnOpen_devState _ hopen, State.setCtx_devState]
  rcases hdev with h | ⟨hrun, hready⟩
  · rw [h]
  · rw [hready, hrun]
    rfl

end

/-- The address registers that OPEN resets lie in the blocks of rings, ticks and contexts. -/
theorem addressRegister_place {n off : Nat} (hn : n < 4096) (h : off ∈ [Reg.CTX_CORES n, Reg.CTX_PT_ROOT n, Reg.CTX_SAVE n,
    Reg.CTX_STATE_TBL n, Reg.CTX_KEY_TBL n, Reg.TCK_CTX_BUDGET n]) :
    off ∈ openedAtReset n ∧ 0x100000 ≤ off ∧ off < 0x600000 ∧ off ≠ Reg.CTX_CFG n ∧
      off ≠ Reg.RING_RET_CFG n ∧ off ≠ Reg.CTX_CMD_STATUS := by
  have hmem : off ∈ openedAtReset n := by
    revert off
    simp [openedAtReset]
  refine ⟨hmem, ?_⟩
  clear hmem
  simp only [List.mem_cons, List.not_mem_nil, or_false, Reg.CTX_CORES, Reg.CTX_PT_ROOT, Reg.CTX_SAVE, Reg.CTX_STATE_TBL, Reg.CTX_KEY_TBL,
    Reg.TCK_CTX_BUDGET] at h
  simp only [Reg.CTX_CFG, Reg.RING_RET_CFG, Reg.CTX_CMD_STATUS]
  omega

/-- An OPEN that passes its checks (R359). -/
theorem ctxOpen_opens {s : State} {p n count first : Nat} (hlive : s.live = true) (hn : n < 4096)
    (hok : s.openResult 0 p n count first = resOk) :
    ∃ t, exec (.ctxOpen 0 p n count first) s = .next t ∧ t.ctxState n = 1 ∧ t.ctxPart n = p ∧ t.ctxFn n = (s.part p).fn ∧
      (t.ctx n).first = first ∧ (t.ctx n).count = count ∧ (t.ctx n).recs = [] ∧
      (∀ off ∈ [Reg.CTX_CORES n, Reg.CTX_PT_ROOT n, Reg.CTX_SAVE n, Reg.CTX_STATE_TBL n, Reg.CTX_KEY_TBL n,
        Reg.TCK_CTX_BUDGET n], t.reg off = regReset off ∧ t.effReg off = regReset off) ∧
      t.effF (Reg.CTX_CFG n) 61 61 = (s.part p).frag.defClass % 2 ∧ t.fldR (Reg.RING_RET_CFG n) 63 63 = 0 ∧
      t.devState = (if s.devState = stReady then stRun else s.devState) ∧ t.fldR Reg.CTX_CMD_STATUS 43 40 = resOk ∧
      t.fldR Reg.CTX_CMD_STATUS 55 44 = n ∧ (∀ m, m ≠ n → t.ctxPart m = s.ctxPart m) ∧
      ((∀ x ∈ s.tick.discards, x.1 ≠ n) → s.sameMemory t ∧ t.rings = s.rings ∧ t.flight = s.flight ∧
        ∀ m, m ≠ n → t.ctx m = s.ctx m) := by
  have hctx : (ctxResult (openCtx s p n count first) opOpen n resOk).ctx n = openedCtx s p count first := by
    rw [ctxResult_ctx, openCtx_ctx_same]
  refine ⟨ctxResult (openCtx s p n count first) opOpen n resOk, by rw [exec_ctxOpen hlive hn, hok, if_pos rfl],
    ?_, ?_, ?_, ?_, ?_, ?_, fun off hoff => ?_,
    ?_, ?_, ?_, ctxResult_result _ _ _ _ (by decide), ctxResult_context _ _ _ _ hn, fun m hm => ?_, fun hnone => ?_⟩
  · rw [State.ctxState, hctx]
    rfl
  · rw [State.ctxPart, hctx]
    rfl
  · rw [State.ctxFn, hctx]
    rfl
  · rw [hctx]
    rfl
  · rw [hctx]
    rfl
  · rw [hctx]
    rfl
  · obtain ⟨hmem, h1, h2, hcfg, hret, hcmd⟩ := addressRegister_place hn hoff
    rw [ctxResult_reg_ne _ _ _ _ hcmd, ctxResult_effReg, openCtx_reg s p n count first h1 h2, openCtx_effReg]
    exact openRegs_atReset _ n _ hmem hcfg hret
  · rw [ctxResult_effF, State.effF, openCtx_effReg]
    exact openRegs_class _ n _
  · rw [State.fldR, ctxResult_reg_ne _ _ _ _ (by simp only [Reg.RING_RET_CFG, Reg.CTX_CMD_STATUS]; omega),
      openCtx_reg s p n count first (by simp only [Reg.RING_RET_CFG]; omega) (by simp only [Reg.RING_RET_CFG]; omega)]
    exact openRegs_returnRing _ n _
  · rw [ctxResult_devState, openCtx_devState s p n count first]
  · rw [State.ctxPart, ctxResult_ctx, openCtx_ctx_ne s p n count first hm]
    exact applyDiscards_ctxPart s _ m
  · have hdisc := applyDiscards_none (s := s) (hit := fun m => decide (m = n)) fun x hx => by simpa using hnone x hx
    refine ⟨sameMemory_of_mem ?_, ?_, ?_, fun m hm => ?_⟩
    · rw [ctxResult_mem, openCtx_eq, runOnOpen_mem, State.setCtx_mem, openRegs_mem, hdisc, State.putTick_mem]
    · rw [ctxResult_rings, openCtx_eq, runOnOpen_rings, State.setCtx_rings, openRegs_rings, hdisc, State.putTick_rings]
    · rw [ctxResult_flight, openCtx_eq, runOnOpen_flight, State.setCtx_flight, openRegs_flight, hdisc, State.putTick_flight]
    · rw [ctxResult_ctx, openCtx_ctx_ne s p n count first hm, hdisc]
      rfl

end Sys2Proof.Machine

namespace Sys2Proof.Machine

/-! ### OPEN refused (R358) -/

section
variable {s : State} {p n count first : Nat}

theorem openResult_rings (h : s.openResult 0 p n 0 0 = resOk) (hlast : 262144 < first + count) :
    s.openResult 0 p n count first = resRings := by
  unfold State.openResult at h ⊢
  simp only [State.openPart, if_true] at h ⊢
  split at h
  · exact absurd h (by decide)
  split at h
  · exact absurd h (by decide)
  split at h
  · exact absurd h (by decide)
  split at h
  · exact absurd h (by decide)
  split at h
  · exact absurd h (by decide)
  split at h
  · exact absurd h (by decide)
  next hbusy hfree hdef hstate hwaits hroom =>
    rw [if_neg hbusy, if_neg hfree, if_neg hdef, if_neg hstate, if_neg hwaits, if_neg hroom, if_pos (.inl hlast)]

/-- An OPEN that its checks refuse records the result, and nothing else. -/
theorem ctxOpen_refused (hlive : s.live = true) (hn : n < 4096) {res : Nat} (h : s.openResult 0 p n count first = res) (hres : res ≠ resOk)
    (hlt : res < 16) :
    ∃ t, exec (.ctxOpen 0 p n count first) s = .next t ∧ t.fldR Reg.CTX_CMD_STATUS 43 40 = res ∧
      t.fldR Reg.CTX_CMD_STATUS 59 56 = opOpen ∧ s.onlyRegs t [Reg.CTX_CMD_STATUS] :=
  ⟨ctxResult s opOpen n res, by rw [exec_ctxOpen hlive hn, h, if_neg hres], ctxResult_result _ _ _ _ hlt, ctxResult_operation _ _ _ _ (by decide),
    ctxResult_onlyRegs ..⟩

end

/-! ### Rings that close (R82) -/

section
variable (s : State)

theorem setRingState_eq_self {r st : Nat} (h : (s.ring r).state = st) : setRingState s r st = s := if_pos h

theorem closeRing_eq_self {r : Nat} (h : (s.ring r).state = 0) : closeRing s r = s := if_pos (.inl h)

/-- A ring closed, or closing, stays so while another closes; the one that closes reads CLOSED or CLOSING. -/
theorem closeRing_state (r k : Nat) (h : k = r ∨ (s.ring k).state = 0 ∨ (s.ring k).state = 5) :
    ((closeRing s r).ring k).state = 0 ∨ ((closeRing s r).ring k).state = 5 := by
  unfold closeRing
  dsimp only
  split
  next hshut =>
    rcases h with rfl | h
    · exact hshut
    · exact h
  next =>
    have htear := (State.mayTear.writeBack
      (s.setRing r { s.ring r with state := 5, fetched := none, discardDue := (s.ring r).stream.isSome }) r).trans (.settleRing _ r)
    rcases htear.ring k with hk | hk
    · rw [hk]
      by_cases hkr : k = r
      · rw [hkr, State.ring_setRing_same]
        exact .inr rfl
      · rw [State.ring_setRing_ne _ _ _ _ hkr]
        exact h.resolve_left hkr
    · exact .inl hk

theorem foldl_closeRing_state (l : List Nat) (k : Nat) (h : k ∈ l ∨ (s.ring k).state = 0 ∨ (s.ring k).state = 5) :
    ((l.foldl closeRing s).ring k).state = 0 ∨ ((l.foldl closeRing s).ring k).state = 5 := by
  induction l generalizing s with
  | nil => exact h.resolve_left List.not_mem_nil
  | cons r l ih =>
    refine ih (closeRing s r) ?_
    by_cases hk : k ∈ l
    · exact .inl hk
    · exact .inr (closeRing_state s r k (h.imp_left fun h' => (List.mem_cons.mp h').resolve_right hk))

theorem foldl_closeRing_eq_self (l : List Nat) (h : ∀ r ∈ l, (s.ring r).state = 0) : l.foldl closeRing s = s :=
  List.foldlRecOn (motive := fun u : State => u = s) l _ rfl fun u hu r hr => by rw [hu]; exact closeRing_eq_self s (h r hr)

theorem mem_ringRange {r first count : Nat} : r ∈ ringRange first count ↔ first ≤ r ∧ r < first + count := by
  simp only [ringRange, List.mem_map, List.mem_range]
  constructor
  · rintro ⟨i, hi, rfl⟩
    omega
  · intro h
    exact ⟨r - first, by omega, by omega⟩

end

/-! ### CTX_CLOSE (R82, R360) -/

section
variable {s : State} {n : Nat}

theorem opRefusal_physical (hbusy : s.ctxBusy = false) (hopen : s.ctxState n ≠ 0) : s.opRefusal 0 n = resOk := by
  simp [State.opRefusal, hbusy, hopen, mayAct_of_owner (.inl rfl)]

theorem exec_ctxClose (hlive : s.live = true) (hn : n < 4096) (hbusy : s.ctxBusy = false) (hopen : s.ctxState n = 1)
    (hclosing : (s.ctx n).closing = false) : exec (.ctxClose 0 n) s = .next (ctxResult (closeCtx s n) opClose n resOk) := by
  simp [exec, execCtxClose, hlive, Nat.not_le.mpr hn, opRefusal_physical hbusy (by rw [hopen]; decide), hopen, hclosing]

theorem closeCtx_ring {r : Nat} (h1 : (s.ctx n).first ≤ r) (h2 : r < (s.ctx n).first + (s.ctx n).count) :
    ((closeCtx s n).ring r).state = 0 ∨ ((closeCtx s n).ring r).state = 5 := by
  unfold closeCtx
  rw [State.ring, settleCtx_rings]
  exact foldl_closeRing_state _ _ r (.inl (mem_ringRange.mpr ⟨h1, h2⟩))

/-- With every ring CLOSED, no command and no record waiting the context is FREE at once. -/
theorem closeCtx_idle (hclosed : ∀ r, (s.ctx n).first ≤ r → r < (s.ctx n).first + (s.ctx n).count → (s.ring r).state = 0)
    (hflight : s.ctxFlight n = []) (hrecs : (s.ctx n).recs = []) :
    closeCtx s n = freeCtx (s.setCtx n { s.ctx n with closing := true }) n := by
  have hall : ∀ r ∈ ringRange (s.ctx n).first (s.ctx n).count, ((s.setCtx n { s.ctx n with closing := true }).ring r).state = 0 :=
    fun r hr => hclosed r (mem_ringRange.mp hr).1 (mem_ringRange.mp hr).2
  unfold closeCtx
  dsimp only
  rw [foldl_closeRing_eq_self _ _ hall]
  refine if_pos ⟨?_, ?_, hflight, ?_⟩
  · rw [State.ctx_setCtx_same]
  · rw [State.ctx_setCtx_same]
    exact List.all_eq_true.mpr fun r hr => decide_eq_true (hall r hr)
  · rw [State.ctx_setCtx_same]
    exact hrecs

theorem freeCtx_devState (hrun : s.devState = stRun) (hlast : (freeCtx s n).openCtxs = []) : (freeCtx s n).devState = stReady := by
  have hopen : ((s.putTick { s.tick with gone := (n, (s.ctx n).used, (s.ctx n).deferred) :: s.tick.gone.filter fun x => decide (x.1 ≠ n) }).setCtx n
      { Ctx.free with part := (s.ctx n).part, fn := (s.ctx n).fn }).openCtxs = [] := by
    rw [State.openCtxs, freeCtx_ctxs] at hlast
    exact hlast
  unfold freeCtx
  dsimp only
  rw [if_pos ⟨hrun, hopen⟩, enterState_devState _ _ (by decide)]

/-- A CTX_CLOSE of an OPEN context (R360). -/
theorem ctxClose_closes (hlive : s.live = true) (hn : n < 4096) (hbusy : s.ctxBusy = false) (hopen : s.ctxState n = 1)
    (hclosing : (s.ctx n).closing = false) :
    ∃ t, exec (.ctxClose 0 n) s = .next t ∧ t.fldR Reg.CTX_CMD_STATUS 43 40 = resOk ∧ t.fldR Reg.CTX_CMD_STATUS 59 56 = opClose ∧
      (∀ r, (s.ctx n).first ≤ r → r < (s.ctx n).first + (s.ctx n).count → (t.ring r).state = 0 ∨ (t.ring r).state = 5) ∧
      ((∀ r, (s.ctx n).first ≤ r → r < (s.ctx n).first + (s.ctx n).count → (s.ring r).state = 0) → s.ctxFlight n = [] →
        (s.ctx n).recs = [] → t.ctxState n = 0 ∧ s.sameMemory t ∧ t.rings = s.rings ∧ t.flight = s.flight ∧
          (∀ m, m ≠ n → t.ctx m = s.ctx m) ∧ (s.devState = stRun → t.openCtxs = [] → t.devState = stReady)) := by
  refine ⟨_, exec_ctxClose hlive hn hbusy hopen hclosing, ctxResult_result _ _ _ _ (by decide), ctxResult_operation _ _ _ _ (by decide),
    fun r h1 h2 => ?_, fun hclosed hflight hrecs => ?_⟩
  · rw [ctxResult_ring]
    exact closeCtx_ring h1 h2
  · rw [closeCtx_idle hclosed hflight hrecs]
    refine ⟨?_, sameMemory_of_mem ?_, ?_, ?_, fun m hm => ?_, fun hrun hlast => ?_⟩
    · rw [State.ctxState, ctxResult_ctx]
      exact freeCtx_ctxState _ n
    · rw [ctxResult_mem, freeCtx_mem, State.setCtx_mem]
    · rw [ctxResult_rings, freeCtx_rings, State.setCtx_rings]
    · rw [ctxResult_flight, freeCtx_flight, State.setCtx_flight]
    · rw [ctxResult_ctx, freeCtx_ctx_ne _ n hm, State.ctx_setCtx_ne _ _ _ _ hm]
    · rw [State.openCtxs, (keepsWork_ctxResult _ _ _ _).ctxs] at hlast
      rw [ctxResult_devState]
      exact freeCtx_devState hrun hlast

end

/-! ### CTX_TEARDOWN (R373) -/

section
variable (s : State)

theorem fiStep_mem (p dir vc ty : Nat) : (fiStep s p dir vc ty).2.mem = s.mem := by
  unfold fiStep
  refine List.foldlRecOn (motive := fun acc : Option Nat × State => acc.2.mem = s.mem) _ _ rfl fun acc h i _ => ?_
  dsimp only
  split
  · exact h
  · rw [apply_ite Prod.snd, apply_ite State.mem]
    simp [h]

theorem sendOn_mem (direct : Bool) (p : Nat) (m : FabMsg) : (sendOn s direct p m).mem = s.mem := by
  have h := fiStep_mem s p 0 (bodyVc direct m.body) (bodyType m.body)
  have hsent (u : State) (m : FabMsg) : (transmit u p m).mem = u.mem := (rfl)
  have hheld (u : State) (l : List (Nat × Nat × FabMsg)) : (l.foldl (fun s h => transmit s p h.2.2) u).mem = u.mem :=
    List.foldlRecOn (motive := fun v : State => v.mem = u.mem) l _ rfl fun v hv x _ => (hsent v _).trans hv
  unfold sendOn
  split
  next u heq =>
    rw [heq] at h
    exact (hheld _ _).trans h
  next u heq =>
    rw [heq] at h
    dsimp only
    split
    · exact h
    · split <;> exact h

theorem fabSend_mem (direct : Bool) (dst tag : Nat) (body : FabBody) : (fabSend s direct dst tag body).mem = s.mem := by
  unfold fabSend
  dsimp only
  split
  · exact sendOn_mem _ direct _ _
  · rfl

theorem abortAll_mem (n : Nat) : (abortAll s n).mem = s.mem := by
  refine List.foldlRecOn (motive := fun u : State => u.mem = s.mem) _ _ rfl fun u hu e _ => Eq.trans ?_ hu
  refine List.foldlRecOn (motive := fun v : State => v.mem = u.mem) _ _ rfl fun v hv r _ => Eq.trans ?_ hv
  split
  · rfl
  · exact fabSend_mem v _ _ _ _

theorem endTeardown_mem (n cause : Nat) : (endTeardown s n cause).mem = s.mem := by
  unfold endTeardown
  extract_lets s1 s2 s3
  have h1 : s1.mem = s.mem := by simp only [s1]; split <;> simp
  have h3 : s3.mem = s2.mem := by simp only [s3]; split <;> simp
  rw [logError_mem, h3, ← h1]
  exact State.setCtx_mem ..

end

end Sys2Proof.Machine

namespace Sys2Proof.Machine

section
variable {s : State} {n : Nat}

/-- The state between a teardown's release and its end. -/
def released (s : State) (n : Nat) : State := dropRings (releaseCtx (abortAll s n) n) n

theorem released_ctx (m : Nat) : (released s n).ctx m = s.ctx m := by
  rw [released, State.ctx, dropRings_releaseCtx_ctxs, (keepsWork_abortAll s n).ctxs, State.ctx]

theorem released_flight : (released s n).flight = s.flight.filter fun e => decide (e.ctx ≠ n) := by
  have h : (released s n).flight = (abortAll s n).flight.filter fun e => decide (e.ctx ≠ n) := (rfl)
  rw [h, (keepsWork_abortAll s n).flight]

theorem released_slots : (released s n).slots = s.slots.filter fun x => decide (x.ctx ≠ n) := by
  have h : (released s n).slots = (abortAll s n).slots.filter fun x => decide (x.ctx ≠ n) := (rfl)
  rw [h, (keepsWork_abortAll s n).slots]

theorem released_kv : ∀ k ∈ (released s n).kv.slots, k.ctx ≠ n := by
  have h : (released s n).kv.slots = (abortAll s n).kv.slots.filter fun k => decide (k.ctx ≠ n) := (rfl)
  rw [h]
  exact fun k hk => of_decide_eq_true (List.mem_filter.mp hk).2

theorem released_ring (r : Nat) : (released s n).ring r =
    if r < (s.ctx n).first ∨ (s.ctx n).first + (s.ctx n).count ≤ r then s.ring r else Ring.closed := by
  have hctx : (releaseCtx (abortAll s n) n).ctx n = s.ctx n := by
    rw [← (keepsWork_abortAll s n).ctx n]
    simp [State.ctx, releaseCtx]
  rw [released, dropRings_ring, releaseCtx_ring, hctx, State.ring, (keepsWork_abortAll s n).rings, State.ring]

theorem released_sameMemory : s.sameMemory (released s n) := by
  have hmem := abortAll_mem s n
  simp [State.sameMemory, State.byteAt, released, dropRings, releaseCtx, hmem]

/-- A CTX_TEARDOWN of an OPEN context (R373). -/
theorem ctxTeardown_tears (hlive : s.live = true) (hn : n < 4096) (hbusy : s.ctxBusy = false) (hopen : s.ctxState n = 1) :
    ∃ t, exec (.ctxTeardown 0 n) s = .next t ∧ t.ctxState n = 5 ∧ (t.ctx n).cause = 3 ∧ (t.ctx n).recs = [] ∧
      t.fldR Reg.CTX_CMD_STATUS 43 40 = resOk ∧ t.flight = s.flight.filter (fun e => decide (e.ctx ≠ n)) ∧
      t.slots = s.slots.filter (fun x => decide (x.ctx ≠ n)) ∧ (∀ k ∈ t.kv.slots, k.ctx ≠ n) ∧
      (∀ r, (s.ctx n).first ≤ r → r < (s.ctx n).first + (s.ctx n).count → (t.ring r).state = 0) ∧
      (∀ r, r < (s.ctx n).first ∨ (s.ctx n).first + (s.ctx n).count ≤ r → t.ring r = s.ring r) ∧
      (∀ m, m ≠ n → t.ctx m = s.ctx m) ∧ s.sameMemory t := by
  have hexec : exec (.ctxTeardown 0 n) s = .next (ctxResult (teardown s n 3) opTeardown n resOk) := by
    simp [exec, execCtxTeardown, hlive, Nat.not_le.mpr hn, hopen, hbusy, mayAct_of_owner (.inl rfl)]
  have heq : teardown s n 3 = endTeardown (released s n) n 3 := teardown_eq s n 3 (by rw [hopen]; decide) (by rw [hopen]; decide)
  have hend := (keepsWork_endTeardown (released s n) n 3).trans (keepsWork_ctxResult _ opTeardown n resOk)
  have hmem : (ctxResult (endTeardown (released s n) n 3) opTeardown n resOk).mem = (released s n).mem := by
    rw [ctxResult_mem, endTeardown_mem]
  rw [heq] at hexec
  refine ⟨_, hexec, ?_⟩
  generalize hv : endTeardown (released s n) n 3 = v at hend hmem
  have hctx : (ctxResult v opTeardown n resOk).ctx n = ((released s n).ctx n).torn 3 := by rw [hend.ctx, State.ctx_setCtx_same]
  have hring (r : Nat) : (ctxResult v opTeardown n resOk).ring r =
      if r < (s.ctx n).first ∨ (s.ctx n).first + (s.ctx n).count ≤ r then s.ring r else Ring.closed := by
    rw [← released_ring, State.ring, hend.rings, State.setCtx_rings, State.ring]
  refine ⟨?_, ?_, ?_, ctxResult_result _ _ _ _ (by decide), ?_, ?_, ?_,
    fun r h1 h2 => ?_, fun r hr => ?_, fun m hm => ?_, ?_⟩
  · rw [State.ctxState, hctx]
    rfl
  · rw [hctx]
    rfl
  · rw [hctx]
    rfl
  · rw [hend.flight, State.setCtx_flight, released_flight]
  · rw [hend.slots, State.setCtx_slots, released_slots]
  · rw [hend.kv, State.setCtx_kv]
    exact released_kv
  · rw [hring, if_neg (by omega)]
    rfl
  · rw [hring, if_pos hr]
  · rw [hend.ctx, State.ctx_setCtx_ne _ _ _ _ hm, released_ctx]
  · obtain ⟨hcells, herrs⟩ := released_sameMemory (s := s) (n := n)
    exact ⟨fun pa => (congrArg (fun m : Mem => spGet 0 m.cells pa) hmem).trans (hcells pa), (congrArg Mem.errs hmem).trans herrs⟩

end

/-- Settles O27: OPEN sets the context's registers after the discards due of it, CLOSE settles the context behind its rings, TEARDOWN
releases its work. -/
theorem contextsOpenAndEnd : Obligations.ContextsOpenAndEnd := by
  refine ⟨fun s p n count first hlive hn => ⟨?_, fun res hres => ?_⟩, fun s n hlive hn hbusy hopen => ⟨?_, ?_⟩⟩
  · intro hbusy hfree hdef happlying hfull hfrag hroom hlast hapart
    exact ctxOpen_opens hlive hn (openResult_ok hlive hbusy hfree hdef happlying hfull hfrag hroom hlast hapart)
  · rcases hres with ⟨rfl, hbusy⟩ | ⟨rfl, hbusy, hstate⟩ | ⟨rfl, hbusy, hfree, hdef⟩ | ⟨rfl, hok, hlast⟩
    · exact ctxOpen_refused hlive hn (by simp [State.openResult, hbusy]) (by decide) (by decide)
    · exact ctxOpen_refused hlive hn (by simp [State.openResult, hbusy, hstate]) (by decide) (by decide)
    · exact ctxOpen_refused hlive hn (by simp [State.openResult, State.openPart, hbusy, hfree, hdef]) (by decide) (by decide)
    · exact ctxOpen_refused hlive hn (openResult_rings hok hlast) (by decide) (by decide)
  · exact ctxClose_closes hlive hn hbusy hopen
  · exact ctxTeardown_tears hlive hn hbusy hopen

end Sys2Proof.Machine

namespace Sys2Proof.Machine

/-! ### Reads of a memory that stands still

In a memory without errors, whose cached lines keep no older contents of a write under them, the accounting of a read moves lines in and out
of the cache and changes neither a byte nor an error (R287, R288, R292). -/

/-- No error, and no line with older contents under it. -/
def Mem.calmed (m : Mem) : Prop := m.errs = [] ∧ ∀ c ∈ m.cache, c.bad = false ∧ c.errs = [] ∧ c.under = []

theorem Mem.still.calmed {m : Mem} (h : m.still) : m.calmed := by
  obtain ⟨hsound, -, hunder⟩ := h
  simp only [Mem.sound, Bool.and_eq_true, decide_eq_true_eq, List.all_eq_true, Bool.not_eq_true'] at hsound
  exact ⟨hsound.1, fun c hc => ⟨(hsound.2 c hc).1, (hsound.2 c hc).2, hunder c hc⟩⟩

theorem Mem.calmed.sound {m : Mem} (h : m.calmed) : m.sound = true := by
  simp only [Mem.sound, Bool.and_eq_true, decide_eq_true_eq, List.all_eq_true, Bool.not_eq_true']
  exact ⟨h.1, fun c hc => ⟨(h.2 c hc).1, (h.2 c hc).2.1⟩⟩

/-- From a memory that stands still, every byte and error as before, and it stands still. -/
def State.readsAlike (s t : State) : Prop := s.mem.calmed → t.mem.cells = s.mem.cells ∧ t.mem.calmed

namespace State.readsAlike
variable {s t u : State} {α : Type}

theorem refl (s : State) : s.readsAlike s := fun h => ⟨rfl, h⟩

theorem trans (h : s.readsAlike t) (h' : t.readsAlike u) : s.readsAlike u := fun hs =>
  ⟨(h' (h hs).2).1.trans (h hs).1, (h' (h hs).2).2⟩

theorem foldl {f : State → α → State} (hf : ∀ u a, State.readsAlike u (f u a)) (s : State) (l : List α) : s.readsAlike (l.foldl f s) :=
  List.foldlRecOn (motive := s.readsAlike) l f (refl s) fun u hu a _ => hu.trans (hf u a)

theorem of_mem (h : t.mem = s.mem) : s.readsAlike t := fun hs => by rw [h]; exact ⟨rfl, hs⟩

/-- The cache may change as long as its lines are sound. -/
theorem putCache {l : List CacheLine} (hl : s.mem.calmed → ∀ c ∈ l, c.bad = false ∧ c.errs = [] ∧ c.under = []) :
    s.readsAlike (s.putMem { s.mem with cache := l }) := fun hs => ⟨rfl, hs.1, hl hs⟩

theorem sameMemory (h : s.readsAlike t) (hs : s.mem.still) : s.sameMemory t := by
  obtain ⟨hcells, herrs, -⟩ := h hs.calmed
  exact ⟨fun pa => congrArg (spGet 0 · pa) hcells, herrs.trans hs.calmed.1.symm⟩

variable (s)

theorem noteRead (pa n : Nat) (ctx : Option Nat) : s.readsAlike (noteRead s pa n ctx) := fun hs => by
  have hunits : noteUnits s pa n ctx = s := if_pos (.inr hs.sound)
  have hlines : s.badLines pa n = [] := if_pos (.inr (List.all_eq_true.mpr fun c hc => by simp [(hs.2 c hc).1]))
  rw [Machine.noteRead, hunits, hlines]
  exact ⟨rfl, hs⟩

theorem evict {c : CacheLine} (hc : c ∈ s.mem.cache) : s.readsAlike (evict s c) := fun hs => by
  obtain ⟨hbad, herrs, hunder⟩ := hs.2 c hc
  have hrest : ∀ d ∈ s.mem.cache.filter fun d => decide (d.line ≠ c.line), d.bad = false ∧ d.errs = [] ∧ d.under = [] :=
    fun d hd => hs.2 d (List.mem_filter.mp hd).1
  unfold Machine.evict
  dsimp only
  rw [if_neg (by simp [hbad])]
  split
  · exact ⟨rfl, by simp [hs.1, herrs], hrest⟩
  · rw [hunder]
    exact ⟨rfl, hs.1, hrest⟩

theorem cacheLine (p line : Nat) (write : Bool) (ctx : Option Nat) (whole : Bool) : s.readsAlike (cacheLine s p line write whole ctx) := by
  unfold Machine.cacheLine
  split
  · exact refl s
  split
  next c hfind =>
    refine trans (putCache fun hs d hd => ?_) (of_mem (State.addF_mem ..))
    obtain ⟨hbad, herrs, hunder⟩ := hs.2 c (List.mem_of_find?_eq_some hfind)
    rcases List.mem_cons.mp hd with rfl | hd
    · exact ⟨by simp [hbad], by simp [herrs], hunder⟩
    · exact hs.2 d (List.mem_filter.mp hd).1
  next =>
    extract_lets ways mine way s1 s2 came
    have h1 : s.readsAlike s1 := by
      simp only [s1]
      split
      next c hfind => exact evict s (List.mem_of_find?_eq_some hfind)
      next => exact refl s
    have h2 : s1.readsAlike s2 := by
      simp only [s2]
      split
      · exact refl s1
      · exact fun hs => by rw [fillLine, if_pos hs.1]; exact ⟨rfl, hs⟩
    refine ((h1.trans h2).trans (putCache fun hs d hd => ?_)).trans (of_mem (State.addF_mem ..))
    rcases List.mem_cons.mp hd with rfl | hd
    · exact ⟨rfl, by simp [came, hs.1], rfl⟩
    · exact hs.2 d hd

theorem readPhys (p pa n : Nat) (ctx : Option Nat) : s.readsAlike (readPhys s p pa n ctx) := by
  refine trans (foldl (fun u line => ?_) s _) (noteRead _ pa n ctx)
  have hcount : u.readsAlike (u.putMem { u.mem with
      counts := spSet 0 u.mem.counts (line / 4096) (satAdd 16 (spGet 0 u.mem.counts (line / 4096)) 1) }) := fun hs => ⟨rfl, hs⟩
  dsimp only
  split
  · exact hcount.trans (cacheLine _ p line _ ctx _)
  · exact hcount

theorem walked (n va : Nat) : s.readsAlike (walked s n va) := by
  have hreads : s.readsAlike ((s.walk n va).foldl (fun t ea => Machine.readPhys t (s.ctxPart n) ea 8 (some n)) s) :=
    foldl (fun u ea => readPhys u _ ea 8 _) s _
  unfold Machine.walked
  dsimp only
  split
  · split
    · exact hreads.trans fun hs => ⟨rfl, hs⟩
    · exact hreads
  · exact hreads

theorem vtouch (c va n : Nat) : s.readsAlike (vtouch s c va n) := by
  refine foldl (fun u pc => ?_) s _
  split
  · split
    · exact walked u c pc.1
    · exact (walked u c pc.1).trans (readPhys _ _ _ _ _)
  · exact walked u c pc.1

end State.readsAlike

end Sys2Proof.Machine

namespace Sys2Proof.Machine

/-! ### Accesses where no frame is being cleared (R289) -/

theorem afterClears_of_clear {s : State} (h : s.mem.clearing = []) (f : State → State) :
    afterClears s f = (f s).putMem { (f s).mem with clearing := [] } := by
  have hself : s.putMem { s.mem with clearing := [] } = s := by rw [← h]; rfl
  unfold afterClears
  simp only [hself, h]

/-! ### CTX_SAVE (R368) -/

section
variable {s : State} {n : Nat}

theorem ctxSave_saves (discard : Bool) (hlive : s.live = true) (hn : n < 4096) (hbusy : s.ctxBusy = false) (hopen : s.ctxState n = 1)
    (hclosing : (s.ctx n).closing = false) (hreach : s.saveUnavail n (s.saveHandles n) = false) :
    ∃ t, exec (.ctxSave 0 n discard) s = .next t ∧ t.ctx n = { s.ctx n with state := 2, saving := some discard } ∧
      t.fldR Reg.CTX_CMD_STATUS 63 63 = 1 ∧ t.fldR Reg.CTX_CMD_STATUS 59 56 = opSave ∧
      t.fldR Reg.CTX_CMD_STATUS 55 44 = n ∧ (∀ m, m ≠ n → t.ctx m = s.ctx m) ∧
      (s.putCtxs t.ctxs).onlyRegs t [Reg.CTX_CMD_STATUS] := by
  have hexec : exec (.ctxSave 0 n discard) s =
      .next ((ctxResult (s.setCtx n { s.ctx n with state := 2, saving := some discard }) opSave n resOk).setF Reg.CTX_CMD_STATUS 63 63 1) := by
    simp [exec, execCtxSave, hlive, Nat.not_le.mpr hn, opRefusal_physical hbusy (n := n) (by rw [hopen]; decide), hopen, hclosing, hreach]
  have honly := (ctxResult_onlyRegs (s.setCtx n { s.ctx n with state := 2, saving := some discard }) opSave n resOk).setF 63 63 1
  refine ⟨_, hexec, ?_, ?_, ?_, ?_, fun m hm => ?_, ?_⟩
  · rw [honly.keepsWork.ctx, State.ctx_setCtx_same]
  · exact State.fldR_setF_same _ _ _ _ _ (by decide) (by decide)
  · rw [State.fldR_setF_disjoint _ _ _ _ _ _ _ (by decide) (by decide) (by decide), ctxResult_operation _ _ _ _ (by decide)]
  · rw [State.fldR_setF_disjoint _ _ _ _ _ _ _ (by decide) (by decide) (by decide), ctxResult_context _ _ _ _ hn]
  · rw [honly.keepsWork.ctx, State.ctx_setCtx_ne _ _ _ _ hm]
  · rw [honly.keepsWork.ctxs]
    exact honly

/-! ### The image written (R368, R369) -/

theorem dropWhere_none {hit : Retained → Bool} (h : ∀ r ∈ s.retained, hit r = false) : dropWhere s hit = s := by
  have hnone : s.retained.filter hit = [] := List.filter_eq_nil_iff.mpr fun r hr => by simp [h r hr]
  have hall : (s.retained.filter fun r => !hit r) = s.retained := List.filter_eq_self.mpr fun r hr => by simp [h r hr]
  unfold dropWhere
  rw [hnone, hall]
  rfl

theorem preempt_none (h : s.ctxFlight n = []) : preempt s n = s := by
  unfold preempt
  rw [h]
  rfl

/-- The save of a quiet context that holds no command, slot or retained range is the write of its image. -/
theorem exec_saveImageWrite {discard : Bool} (hlive : s.live = true) (hsaving : (s.ctx n).saving = some discard) (hquiet : s.quiet n = true)
    (hflight : s.ctxFlight n = []) (hslots : s.ctxSlots n = []) (hretained : ∀ r ∈ s.retained, r.ctx ≠ n)
    (hreach : s.saveUnavail n (s.saveHandles n) = false) (hclear : s.mem.clearing = []) :
    exec (.saveImageWrite n) s = .next ((writeImage s s n discard).putMem { (writeImage s s n discard).mem with clearing := [] }) := by
  have hpre : (if discard = true then preempt s n else s) = s := by rw [preempt_none hflight, ite_self]
  have hnow : saveNow s n discard = writeImage s s n discard := by
    unfold saveNow
    dsimp only
    rw [hpre, hsaving, hslots, if_neg (by simp)]
    exact congrArg (writeImage s · n discard) (dropWhere_none fun r hr => by simpa using hretained r hr)
  simp only [exec, execSaveImageWrite, hsaving]
  rw [if_neg (by simp [hlive, hquiet]), if_neg (by simp [hreach]), afterClears_of_clear hclear, hnow]

/-- An image larger than the save area. -/
theorem saveImage_tooLarge {discard : Bool} {bs : List Byte} (himage : saveImage s n discard = .ok bs) (h : s.saveSize n < bs.length) :
    writeImage s s n discard = endSave s n resSaveArea := by
  unfold writeImage
  rw [himage]
  exact if_pos h

theorem saveImage_fits {discard : Bool} {bs : List Byte} (himage : saveImage s n discard = .ok bs) (h : bs.length ≤ s.saveSize n)
    (hok : (vwrite s n (s.saveBase n) bs).2 = none) : writeImage s s n discard = saved (vwrite s n (s.saveBase n) bs).1 n := by
  unfold writeImage
  rw [himage]
  dsimp only
  rw [if_neg (Nat.not_lt.mpr h)]
  split
  next heq => rw [heq]
  next heq =>
    rw [heq] at hok
    exact absurd hok (by simp)

theorem endSave_onlyRegs (res : Nat) :
    (s.setCtx n { s.ctx n with state := 1, saving := none }).onlyRegs (endSave s n res) [Reg.CTX_CMD_STATUS] :=
  (((onlyRegs_setF _ _ _ _ _).setF _ _ _).setF _ _ _).setF _ _ _

/-- A SAVE that ends without an image (R369). -/
theorem endSave_ends {res : Nat} (hres : res < 16) :
    let t := (endSave s n res).putMem { (endSave s n res).mem with clearing := [] }
    t.ctx n = { s.ctx n with state := 1, saving := none } ∧ t.fldR Reg.CTX_CMD_STATUS 63 63 = 0 ∧ t.fldR Reg.CTX_CMD_STATUS 43 40 = res ∧
      s.sameMemory t ∧ t.rings = s.rings ∧ t.flight = s.flight := by
  have hwork := (endSave_onlyRegs (s := s) (n := n) res).keepsWork
  have hmem : (endSave s n res).mem = s.mem := by simp [endSave]
  intro t
  have hreg (hi lo : Nat) : t.fldR Reg.CTX_CMD_STATUS hi lo = (endSave s n res).fldR Reg.CTX_CMD_STATUS hi lo := State.putMem_fldR ..
  refine ⟨?_, ?_, ?_, ?_, ?_, ?_⟩
  · rw [State.putMem_ctx]
    exact (hwork.ctx n).trans (State.ctx_setCtx_same ..)
  · rw [hreg, endSave, ctxResult_busy, State.fldR_setF_same _ _ _ _ _ (by decide) (by decide)]
    rfl
  · rw [hreg, endSave, ctxResult_result _ _ _ _ hres]
  · simp [t, State.sameMemory, State.byteAt, hmem]
  · rw [State.putMem_rings, hwork.rings, State.setCtx_rings]
  · rw [State.putMem_flight, hwork.flight, State.setCtx_flight]

end

end Sys2Proof.Machine

namespace Sys2Proof.Machine

/-! ### The context SAVED (R368 step 5) -/

section
variable (s : State) (n : Nat)

theorem closeSaved_mayTear : s.mayTear (closeSaved s n) :=
  (State.mayTear.foldl (fun u r => .closeRingState u r) s _).trans (.dropRings _ n)

/-- Every ring of the range reads CLOSED. -/
theorem closeSaved_ring {r : Nat} (h1 : (s.ctx n).first ≤ r) (h2 : r < (s.ctx n).first + (s.ctx n).count) :
    ((closeSaved s n).ring r).state = 0 := by
  have htear := State.mayTear.foldl (fun u r => .closeRingState u r) s
    ((s.rings.filter fun r => decide ((s.ctx n).first ≤ r.1 ∧ r.1 < (s.ctx n).first + (s.ctx n).count)).map (·.1))
  obtain ⟨-, -, hfirst, hcount⟩ := htear.place n
  unfold closeSaved
  rw [dropRings_ring, hfirst, hcount, if_neg (by omega)]
  rfl

/-- Rings that read CLOSED are not written back. -/
theorem closeSaved_closed (h : ∀ r, (s.ctx n).first ≤ r → r < (s.ctx n).first + (s.ctx n).count → (s.ring r).state = 0) :
    closeSaved s n = dropRings s n := by
  have hself : ((s.rings.filter fun r => decide ((s.ctx n).first ≤ r.1 ∧ r.1 < (s.ctx n).first + (s.ctx n).count)).map (·.1)).foldl
      (fun s r => setRingState s r 0) s = s := by
    refine List.foldlRecOn (motive := fun u : State => u = s) _ _ rfl fun u hu r hr => ?_
    obtain ⟨x, hx, rfl⟩ := List.mem_map.mp hr
    have hin := of_decide_eq_true (List.mem_filter.mp hx).2
    rw [hu]
    exact setRingState_eq_self s (h x.1 hin.1 hin.2)
  unfold closeSaved
  rw [hself]

/-- The state in which `saved` marks the context: its work released, its rings closed. -/
def quitted : State := closeSaved (releaseCtx s n) n

variable {s n}

theorem saved_eq (h : s.ctxFlight n = []) : saved s n = if (quitted s n).ctxState n ≠ 2 then quitted s n
    else ctxResult (((quitted s n).setCtx n { (quitted s n).ctx n with state := 3, saving := none, recs := [], unsignalled := 0 }).setF
      Reg.CTX_CMD_STATUS 63 63 0) opSave n resOk := by
  have hkept (u : State) : u.putPrefetched (u.prefetched.filter fun x => !([] : List Nat).contains x.id) = u :=
    congrArg u.putPrefetched (List.filter_eq_self.mpr fun _ _ => rfl)
  unfold saved
  simp only [h, List.map_nil, List.foldl_nil, hkept]
  rfl

theorem quitted_mayTear : s.mayTear (quitted s n) := (State.mayTear.releaseCtx s n).trans (closeSaved_mayTear _ n)

theorem quitted_ring {r : Nat} (h1 : (s.ctx n).first ≤ r) (h2 : r < (s.ctx n).first + (s.ctx n).count) :
    ((quitted s n).ring r).state = 0 := by
  have hctx : (releaseCtx s n).ctx n = s.ctx n := by simp [State.ctx, releaseCtx]
  exact closeSaved_ring _ n (by rwa [hctx]) (by rwa [hctx])

theorem quitted_closed (h : ∀ r, (s.ctx n).first ≤ r → r < (s.ctx n).first + (s.ctx n).count → (s.ring r).state = 0) :
    (quitted s n).ctxs = s.ctxs ∧ ∀ pa, (quitted s n).byteAt pa = s.byteAt pa := by
  have hctx : (releaseCtx s n).ctx n = s.ctx n := by simp [State.ctx, releaseCtx]
  have hdrop : closeSaved (releaseCtx s n) n = dropRings (releaseCtx s n) n := by
    refine closeSaved_closed _ n fun r h1 h2 => ?_
    rw [releaseCtx_ring]
    exact h r (by rwa [hctx] at h1) (by rwa [hctx] at h2)
  rw [quitted, hdrop]
  exact ⟨dropRings_releaseCtx_ctxs s n, fun pa => by simp [State.byteAt, dropRings, releaseCtx]⟩

/-- The end of a SAVE whose image is written: SAVED, or TORN_DOWN where a descriptor could not be written back. -/
theorem saved_ends (hflight : s.ctxFlight n = []) (hstate : s.ctxState n = 2) (hsaving : (s.ctx n).saving.isSome = true) :
    ((saved s n).ctxState n = 3 ∨ (saved s n).ctxState n = 5) ∧ ((saved s n).ctx n).saving = none ∧ ((saved s n).ctx n).recs = [] ∧
      (saved s n).fldR Reg.CTX_CMD_STATUS 63 63 = 0 ∧
      ∀ r, (s.ctx n).first ≤ r → r < (s.ctx n).first + (s.ctx n).count → ((saved s n).ring r).state = 0 := by
  rw [saved_eq hflight]
  rcases (quitted_mayTear (s := s) (n := n)).ctx n with hctx | ⟨cause, hctx, hidle⟩
  · have h2 : (quitted s n).ctxState n = 2 := by rw [State.ctxState, hctx]; exact hstate
    rw [if_neg (not_not_intro h2)]
    have hsaved : (ctxResult (((quitted s n).setCtx n { (quitted s n).ctx n with state := 3, saving := none, recs := [], unsignalled := 0 }).setF
        Reg.CTX_CMD_STATUS 63 63 0) opSave n resOk).ctx n =
        { (quitted s n).ctx n with state := 3, saving := none, recs := [], unsignalled := 0 } := by
      rw [ctxResult_ctx, (onlyRegs_setF _ _ _ _ _).keepsWork.ctx, State.ctx_setCtx_same]
    refine ⟨.inl ?_, ?_, ?_, ?_, fun r h1 h2 => ?_⟩
    · rw [State.ctxState, hsaved]
    · rw [hsaved]
    · rw [hsaved]
    · rw [ctxResult_busy, State.fldR_setF_same _ _ _ _ _ (by decide) (by decide)]
      rfl
    · rw [ctxResult_ring, State.setF_ring, State.setCtx_ring]
      exact quitted_ring h1 h2
  · have h5 : (quitted s n).ctxState n = 5 := by rw [State.ctxState, hctx]; rfl
    rw [if_pos (by rw [h5]; decide)]
    refine ⟨.inr h5, ?_, ?_, hidle hsaving, fun r h1 h2 => quitted_ring h1 h2⟩
    · rw [hctx]
      rfl
    · rw [hctx]
      rfl

/-- With every ring CLOSED already the context is SAVED, and memory and the other contexts stand. -/
theorem saved_closed (hflight : s.ctxFlight n = []) (hstate : s.ctxState n = 2)
    (hclosed : ∀ r, (s.ctx n).first ≤ r → r < (s.ctx n).first + (s.ctx n).count → (s.ring r).state = 0) :
    (saved s n).ctxState n = 3 ∧ (saved s n).fldR Reg.CTX_CMD_STATUS 43 40 = resOk ∧
      (∀ pa, (saved s n).byteAt pa = s.byteAt pa) ∧ ∀ m, m ≠ n → (saved s n).ctx m = s.ctx m := by
  obtain ⟨hctxs, hbytes⟩ := quitted_closed hclosed
  have hctx (m : Nat) : (quitted s n).ctx m = s.ctx m := congrArg (spGet Ctx.free · m) hctxs
  have h2 : (quitted s n).ctxState n = 2 := by rw [State.ctxState, hctx]; exact hstate
  rw [saved_eq hflight, if_neg (not_not_intro h2)]
  refine ⟨?_, ctxResult_result _ _ _ _ (by decide), fun pa => ?_, fun m hm => ?_⟩
  · rw [State.ctxState, ctxResult_ctx, (onlyRegs_setF _ _ _ _ _).keepsWork.ctx, State.ctx_setCtx_same]
  · rw [State.byteAt, ctxResult_mem, State.setF_mem, State.setCtx_mem]
    exact hbytes pa
  · rw [ctxResult_ctx, (onlyRegs_setF _ _ _ _ _).keepsWork.ctx, State.ctx_setCtx_ne _ _ _ _ hm, hctx]

end

end Sys2Proof.Machine

namespace Sys2Proof.Machine

/-! ### SAVE_IMAGE_WRITE (R368 to R370) -/

section
variable {s : State} {n : Nat} {discard : Bool} {bs : List Byte}

/-- The image written and the context SAVED, or TORN_DOWN. -/
theorem saveImageWrite_saves (hexec : exec (.saveImageWrite n) s =
      .next ((writeImage s s n discard).putMem { (writeImage s s n discard).mem with clearing := [] }))
    (hsaving : (s.ctx n).saving = some discard) (hstate : s.ctxState n = 2) (hflight : s.ctxFlight n = [])
    (himage : saveImage s n discard = .ok bs) (hfits : bs.length ≤ s.saveSize n) (hok : (vwrite s n (s.saveBase n) bs).2 = none) :
    ∃ t, exec (.saveImageWrite n) s = .next t ∧ (t.ctxState n = 3 ∨ t.ctxState n = 5) ∧ (t.ctx n).saving = none ∧
      (t.ctx n).recs = [] ∧ t.fldR Reg.CTX_CMD_STATUS 63 63 = 0 ∧
      (∀ r, (s.ctx n).first ≤ r → r < (s.ctx n).first + (s.ctx n).count → (t.ring r).state = 0) ∧
      ((∀ r, (s.ctx n).first ≤ r → r < (s.ctx n).first + (s.ctx n).count → (s.ring r).state = 0) →
        t.ctxState n = 3 ∧ t.fldR Reg.CTX_CMD_STATUS 43 40 = resOk ∧
        (∀ pa, t.byteAt pa = (vwrite s n (s.saveBase n) bs).1.byteAt pa) ∧ ∀ m, m ≠ n → t.ctx m = s.ctx m) := by
  have hwork := keepsWork_vwrite s n (s.saveBase n) bs
  rw [saveImage_fits himage hfits hok] at hexec
  have hctx := hwork.ctx n
  have hnone : (vwrite s n (s.saveBase n) bs).1.ctxFlight n = [] := by rw [State.ctxFlight, hwork.flight]; exact hflight
  have hsave : (vwrite s n (s.saveBase n) bs).1.ctxState n = 2 := by rw [State.ctxState, hctx]; exact hstate
  obtain ⟨hends, hnosave, hnorecs, hidle, hrings⟩ := saved_ends hnone hsave (by rw [hctx, hsaving]; rfl)
  rw [hctx] at hrings
  refine ⟨_, hexec, ?_⟩
  simp only [State.ctxState, State.putMem_ctx, State.putMem_fldR, State.putMem_ring, State.byteAt, State.putMem_mem]
  refine ⟨hends, hnosave, hnorecs, hidle, hrings, fun hclosed => ?_⟩
  obtain ⟨h3, hres, hbytes, hothers⟩ := saved_closed hnone hsave fun r h1 h2 => by
    rw [hctx] at h1 h2
    rw [State.ring, hwork.rings]
    exact hclosed r h1 h2
  exact ⟨h3, hres, hbytes, fun m hm => (hothers m hm).trans (hwork.ctx m)⟩

end

/-! ### CTX_RESTORE (R371, R372) -/

section
variable {s : State} {n : Nat}

theorem exec_ctxRestore (hlive : s.live = true) (hn : n < 4096) (hbusy : s.ctxBusy = false) (hopen : s.ctxState n = 1)
    (hclosing : (s.ctx n).closing = false)
    (hclosed : ∀ r, (s.ctx n).first ≤ r → r < (s.ctx n).first + (s.ctx n).count → (s.ring r).state = 0) (hflight : s.ctxFlight n = [])
    (hreach : s.saveUnavail n [] = false) (hclear : s.mem.clearing = []) :
    exec (.ctxRestore 0 n) s = .next ((restoreCtx s n).putMem { (restoreCtx s n).mem with clearing := [] }) := by
  have hrings : ∀ r ∈ ringRange (s.ctx n).first (s.ctx n).count, (s.ring r).state = 0 :=
    fun r hr => hclosed r (mem_ringRange.mp hr).1 (mem_ringRange.mp hr).2
  simp only [exec, execCtxRestore]
  rw [if_neg (by simp [hlive, hn]), if_neg (not_not_intro (opRefusal_physical hbusy (by rw [hopen]; decide))),
    if_neg (by simpa [hopen, hflight] using hrings), if_neg (by simp [hclosing]), if_neg (by simp [hreach]), afterClears_of_clear hclear]

/-! A restore refused: its reads are accounted, its result recorded. -/

theorem restore_refused (va len res : Nat) (hres : res < 16) :
    let u := ctxResult (vtouch s n va len) opRestore n res
    let t := u.putMem { u.mem with clearing := [] }
    t.fldR Reg.CTX_CMD_STATUS 43 40 = res ∧ s.sameWork t ∧ (s.mem.still → s.sameMemory t) := by
  intro u t
  have hwork : s.keepsWork t :=
    (keepsWork_vtouch s n va len).trans ((keepsWork_ctxResult _ opRestore n res).trans (keepsWork_putMem _ _))
  have hmem : u.mem = (vtouch s n va len).mem := ctxResult_mem ..
  refine ⟨?_, ⟨hwork.ctxs, hwork.rings, hwork.flight, hwork.slots, hwork.images, hwork.kv⟩, fun hstill => ?_⟩
  · rw [State.putMem_fldR]
    exact ctxResult_result _ _ _ _ hres
  · obtain ⟨hcells, herrs⟩ := (State.readsAlike.vtouch s n va len).sameMemory hstill
    simp only [State.sameMemory, State.byteAt, t, State.putMem_mem, hmem]
    exact ⟨hcells, herrs⟩

theorem restoreCtx_noImage (h : readImage? s n = .ok none) :
    restoreCtx s n = ctxResult (vtouch s n (s.saveBase n) 64) opRestore n resFormat := by
  unfold restoreCtx
  rw [h]

theorem restoreCtx_otherRings {bs : List Byte} {i : Img} (h : readImage? s n = .ok (some bs)) (hi : readImg bs = some i)
    (hcount : i.rings.length ≠ (s.ctx n).count) :
    restoreCtx s n = ctxResult (vtouch s n (s.saveBase n) bs.length) opRestore n resState := by
  have hres : s.restoreResult n i = resState := if_pos hcount
  unfold restoreCtx
  simp only [h, hi, hres]
  exact if_pos (by decide)

/-! An image with CLOSED rings, no slot and no command. -/

/-- The records of an image, as they come back (R370). -/
def restoredRecs (u : State) (n : Nat) (l : List Record) : List Record :=
  l.zipIdx.map fun x => { absRecord (u.ctx n).first x.1 with entry := u.nextId + x.2 }

/-- The state before the records come back: the budget and the class in force. -/
def restoredRegs (u : State) (n : Nat) (i : Img) : State :=
  (((u.setCtx n { u.ctx n with restoreParked := 0 }).putNextId (u.nextId + i.rings.length + 1)).setBoth (Reg.TCK_CTX_BUDGET n)
    (setFld 0 39 0 i.budget)).setBoth (Reg.CTX_CFG n) (setFld 0 61 61 i.cls)

/-- The records join those that wait. -/
def restoredAll (u : State) (n : Nat) (l : List Record) : State :=
  (u.setCtx n { u.ctx n with recs := (u.ctx n).recs ++ restoredRecs u n l }).putNextId (u.nextId + (restoredRecs u n l).length)

theorem foldM_ok {α : Type} {f : State → α → M} (u : State) (l : List α) (h : ∀ a ∈ l, f u a = (u, none)) : foldM f u l = (u, none) := by
  unfold foldM
  exact List.foldlRecOn (motive := fun m : M => m = (u, none)) l _ rfl fun m hm a ha => by rw [hm]; exact h a ha

theorem restoreSlots_nil (u : State) : restoreSlots u n [] = (u, none) := (rfl)

theorem restoreAll_eq {i : Img} (hslots : i.slots = []) (hcmds : i.cmds = []) (hrings : ∀ x ∈ i.rings, x.state = 0) (u : State) :
    restoreAll u n i = (purgeRecords (restoredAll (restoredRegs u n i) n i.recs) n, none) := by
  have hclosed (base : Nat) (v : State) : foldM (restoreRing n base) v i.rings.zipIdx = (v, none) :=
    foldM_ok v _ fun x hx => if_pos (hrings x.1 (List.fst_mem_of_mem_zipIdx hx))
  have hnext (v : State) (f : State → M) : M.next (v, none) f = f v := (rfl)
  have hnone (v : State) : foldM (readmit n) v [] = (v, none) := (rfl)
  unfold restoreAll
  simp only [hslots, hcmds, restoreSlots_nil, hnext, hclosed, hnone]
  rfl

end

end Sys2Proof.Machine

namespace Sys2Proof.Machine

section
variable {s u : State} {n : Nat} {i : Img}

theorem restoredRecs_length (l : List Record) : (restoredRecs u n l).length = l.length := by simp [restoredRecs]

theorem restoredRecs_payload (l : List Record) (k : Nat) : (restoredRecs u n l)[k]?.map (·.payload) = l[k]?.map (·.payload) := by
  simp only [restoredRecs, List.getElem?_map, List.getElem?_zipIdx, Option.map_map]
  rfl

theorem restoredRegs_ctx : (restoredRegs u n i).ctx n = { u.ctx n with restoreParked := 0 } := by
  rw [restoredRegs, State.setBoth_ctx, State.setBoth_ctx, State.putNextId_ctx, State.ctx_setCtx_same]

theorem restoredRegs_budget : (restoredRegs u n i).effF (Reg.TCK_CTX_BUDGET n) 39 0 = i.budget % 2 ^ 40 := by
  have hne : Reg.TCK_CTX_BUDGET n ≠ Reg.CTX_CFG n := by simp only [Reg.TCK_CTX_BUDGET, Reg.CTX_CFG]; omega
  rw [restoredRegs, State.effF, State.effReg_setBoth, if_neg hne, State.effReg_setBoth, if_pos rfl,
    fld_setFld_same _ _ _ _ (by decide) (by decide)]

theorem restoredRegs_class : (restoredRegs u n i).effF (Reg.CTX_CFG n) 61 61 = i.cls % 2 := by
  rw [restoredRegs, State.effF, State.effReg_setBoth, if_pos rfl, fld_setFld_same _ _ _ _ (by decide) (by decide)]
  rfl

theorem restoredRegs_retCap : (restoredRegs u n i).retCap n = u.retCap n := by
  have hcfg : Reg.RING_RET_CFG n ≠ Reg.CTX_CFG n := by simp only [Reg.RING_RET_CFG, Reg.CTX_CFG]; omega
  have hbudget : Reg.RING_RET_CFG n ≠ Reg.TCK_CTX_BUDGET n := by simp only [Reg.RING_RET_CFG, Reg.TCK_CTX_BUDGET]; omega
  rw [State.retCap, State.fldR, restoredRegs, State.reg_setBoth, if_neg hcfg, State.reg_setBoth, if_neg hbudget, State.putNextId_reg,
    State.setCtx_reg, State.retCap, State.fldR]

theorem restoredAll_ctx (l : List Record) :
    (restoredAll u n l).ctx n = { u.ctx n with recs := (u.ctx n).recs ++ restoredRecs u n l } := by
  simp only [restoredAll, State.putNextId_ctx, State.ctx_setCtx_same]

theorem restoredAll_retCap (l : List Record) : (restoredAll u n l).retCap n = u.retCap n := by
  simp only [restoredAll, State.retCap, State.putNextId_fldR, State.setCtx_fldR]

theorem restoredAll_effF (l : List Record) (off hi lo : Nat) : (restoredAll u n l).effF off hi lo = u.effF off hi lo := by
  rw [restoredAll, State.putNextId_effF, State.setCtx_effF]

theorem restored_rings (l : List Record) : (restoredAll (restoredRegs u n i) n l).rings = u.rings := by
  rw [restoredAll, State.putNextId_rings, State.setCtx_rings, restoredRegs, State.setBoth_rings, State.setBoth_rings, State.putNextId_rings,
    State.setCtx_rings]
theorem restored_flight (l : List Record) : (restoredAll (restoredRegs u n i) n l).flight = u.flight := by
  rw [restoredAll, State.putNextId_flight, State.setCtx_flight, restoredRegs, State.setBoth_flight, State.setBoth_flight,
    State.putNextId_flight, State.setCtx_flight]
theorem restored_slots (l : List Record) : (restoredAll (restoredRegs u n i) n l).slots = u.slots := by
  rw [restoredAll, State.putNextId_slots, State.setCtx_slots, restoredRegs, State.setBoth_slots, State.setBoth_slots, State.putNextId_slots,
    State.setCtx_slots]

/-- Records that the return ring could hold still fit it. -/
theorem restored_fits (hn : n < 4096) (hp : u.posted = s.posted) (hc : u.ctx n = s.ctx n)
    (hfit : ∀ r ∈ (s.ctx n).recs ++ i.recs, s.oversized n r = false) :
    ∀ x ∈ ((restoredAll (restoredRegs u n i) n i.recs).ctx n).recs, (restoredAll (restoredRegs u n i) n i.recs).oversized n x = false := by
  have hcap : (restoredAll (restoredRegs u n i) n i.recs).retCap n = s.retCap n := by
    rw [restoredAll_retCap, restoredRegs_retCap, State.retCap, State.fldR,
      State.posted_reg hp (by simp only [Reg.RING_RET_CFG]; omega) (by simp only [Reg.RING_RET_CFG]; omega), State.retCap, State.fldR]
  intro x hx
  rw [restoredAll_ctx, restoredRegs_ctx, hc] at hx
  have hsize (y : Record) (hy : y ∈ (s.ctx n).recs ++ i.recs) (hp : x.payload = y.payload) :
      (restoredAll (restoredRegs u n i) n i.recs).oversized n x = false := by
    rw [State.oversized, hcap, hp]
    exact hfit y hy
  rcases List.mem_append.mp hx with hx | hx
  · exact hsize x (List.mem_append_left _ hx) rfl
  · obtain ⟨y, hy, rfl⟩ := List.mem_map.mp hx
    exact hsize y.1 (List.mem_append_right _ (List.fst_mem_of_mem_zipIdx hy)) rfl

/-- A RESTORE of an image with CLOSED rings, no slot and no command. -/
theorem restoreCtx_ok {bs : List Byte} (hn : n < 4096) (h : readImage? s n = .ok (some bs)) (hi : readImg bs = some i)
    (hres : s.restoreResult n i = resOk) (hslots : i.slots = []) (hcmds : i.cmds = []) (hrings : ∀ x ∈ i.rings, x.state = 0)
    (hreach : s.saveUnavail n (i.rings.map (·.sh)) = false) (hfit : ∀ r ∈ (s.ctx n).recs ++ i.recs, s.oversized n r = false) :
    restoreCtx s n =
      ctxResult (restoredAll (restoredRegs (vtouch s n (s.saveBase n) bs.length) n i) n i.recs) opRestore n resOk := by
  have hall : restoreAll (vtouch s n (s.saveBase n) bs.length) n i =
      (restoredAll (restoredRegs (vtouch s n (s.saveBase n) bs.length) n i) n i.recs, none) := by
    rw [restoreAll_eq hslots hcmds hrings,
      purgeRecords_eq_self (restored_fits hn (vtouch_posted ..) ((keepsWork_vtouch ..).ctx n) hfit)]
  have hhandles : i.slots.map (·.handle) ++ i.rings.map (·.sh) = i.rings.map (·.sh) := by rw [hslots]; rfl
  unfold restoreCtx
  simp only [h, hi, hres, hhandles, hreach, hall, hcmds]
  rfl

theorem ctxRestore_restores {bs : List Byte} (hexec : exec (.ctxRestore 0 n) s =
      .next ((restoreCtx s n).putMem { (restoreCtx s n).mem with clearing := [] }))
    (heq : restoreCtx s n =
      ctxResult (restoredAll (restoredRegs (vtouch s n (s.saveBase n) bs.length) n i) n i.recs) opRestore n resOk)
    (hopen : s.ctxState n = 1) :
    ∃ t, exec (.ctxRestore 0 n) s = .next t ∧ t.fldR Reg.CTX_CMD_STATUS 43 40 = resOk ∧ t.ctxState n = 1 ∧
      (t.ctx n).restoreParked = 0 ∧ t.effF (Reg.TCK_CTX_BUDGET n) 39 0 = i.budget % 2 ^ 40 ∧
      t.effF (Reg.CTX_CFG n) 61 61 = i.cls % 2 ∧ (t.ctx n).recs.length = (s.ctx n).recs.length + i.recs.length ∧
      (∀ k, k < i.recs.length → ((t.ctx n).recs[(s.ctx n).recs.length + k]?.map (·.payload)) = i.recs[k]?.map (·.payload)) ∧
      t.rings = s.rings ∧ t.flight = s.flight ∧ t.slots = s.slots := by
  rw [heq] at hexec
  have hwork := keepsWork_vtouch s n (s.saveBase n) bs.length
  refine ⟨_, hexec, ?_⟩
  generalize vtouch s n (s.saveBase n) bs.length = u at hwork
  have hctx : ((ctxResult (restoredAll (restoredRegs u n i) n i.recs) opRestore n resOk).putMem
      { (ctxResult (restoredAll (restoredRegs u n i) n i.recs) opRestore n resOk).mem with clearing := [] }).ctx n =
      { s.ctx n with restoreParked := 0, recs := (s.ctx n).recs ++ restoredRecs (restoredRegs u n i) n i.recs } := by
    rw [State.putMem_ctx, ctxResult_ctx, restoredAll_ctx, restoredRegs_ctx, hwork.ctx n]
  refine ⟨?_, ?_, ?_, ?_, ?_, ?_, fun k _ => ?_, ?_, ?_, ?_⟩
  · rw [State.putMem_fldR, ctxResult_result _ _ _ _ (by decide)]
  · rw [State.ctxState, hctx]
    exact hopen
  · rw [hctx]
  · rw [State.putMem_effF, ctxResult_effF, restoredAll_effF, restoredRegs_budget]
  · rw [State.putMem_effF, ctxResult_effF, restoredAll_effF, restoredRegs_class]
  · rw [hctx, List.length_append, restoredRecs_length]
  · rw [hctx, List.getElem?_append_right (Nat.le_add_right ..), Nat.add_sub_cancel_left, restoredRecs_payload]
  · rw [State.putMem_rings, ctxResult_rings, restored_rings, hwork.rings]
  · rw [State.putMem_flight, ctxResult_flight, restored_flight, hwork.flight]
  · rw [State.putMem_slots, (keepsWork_ctxResult ..).slots, restored_slots, hwork.slots]

end

/-- Settles O28: the write of an image ends its SAVE behind the rings that read CLOSED; a RESTORE reads all it needs first. -/
theorem contextsSavedAndRestored : Obligations.ContextsSavedAndRestored := by
  refine ⟨fun s n discard hlive hn => ⟨?_, ?_⟩, fun s n hlive hn hbusy hopen hclosing hclosed hflight hreach hclear => ?_⟩
  · intro hbusy hopen hclosing hreach
    exact ctxSave_saves discard hlive hn hbusy hopen hclosing hreach
  · intro bs hsaving hstate hquiet hflight hslots hretained hreach hclear himage
    have hexec := exec_saveImageWrite hlive hsaving hquiet hflight hslots hretained hreach hclear
    refine ⟨saveImageWrite_saves hexec hsaving hstate hflight himage, fun hlarge => ?_⟩
    rw [saveImage_tooLarge himage hlarge] at hexec
    exact ⟨_, hexec, endSave_ends (by decide)⟩
  · have hexec := exec_ctxRestore hlive hn hbusy hopen hclosing hclosed hflight hreach hclear
    refine ⟨?_, fun hnone => ?_, fun bs i himage hi hcount => ?_⟩
    · intro bs i himage hi hres hslots hcmds hrings hreach' hfit
      exact ctxRestore_restores hexec (restoreCtx_ok hn himage hi hres hslots hcmds hrings hreach' hfit) hopen
    · rw [restoreCtx_noImage hnone] at hexec
      exact ⟨_, hexec, restore_refused _ 64 resFormat (by decide)⟩
    · rw [restoreCtx_otherRings himage hi hcount] at hexec
      exact ⟨_, hexec, restore_refused _ bs.length resState (by decide)⟩

end Sys2Proof.Machine

namespace Sys2Proof.Machine

/-! ### A ring opened by a context whose own read moves its page table (O32) -/

/-- The state of `farEventState` with its context OPEN, holding ring 0, and nothing in flight. -/
def farRingState : State :=
  { farEventState with flight := [], ctxs := [(farRoot, { Ctx.free with state := 1, part := 2, count := 1 })] }

/-- The state of a ring after a step. -/
def ringStateAfter (c : Instr) (s : State) (r : Nat) : Option Nat := match exec c s with
  | .next t => some (t.ring r).state
  | _ => none

theorem ringStateAfter_of_next {c : Instr} {s t : State} (h : exec c s = .next t) (r : Nat) :
    ringStateAfter c s r = some (t.ring r).state := by
  rw [ringStateAfter, h]

theorem farRingState_ready : farRingState.live = true ∧ farRingState.ctxOfRing 0 = some farRoot ∧ farRingState.ctxState farRoot = 1 ∧
    (farRingState.ring 0).state = 0 ∧ farRingState.fldR Reg.RING_CTL_STATUS 1 1 = 0 := by decide +kernel

theorem farRingState_still : farRingState.mem.still := farEventState_still

theorem farRingState_canStore : farRingState.canStore farRoot (farRingState.descVa farRoot 0 + 32) 16 := by
  unfold State.canStore
  decide +kernel

theorem farRingState_reads : vread farRingState farRoot (farRingState.descVa farRoot 0) 32 = .ok (List.replicate 32 0) :=
  eq_ok_of_toOption (by decide +kernel)

/-- The hit of the descriptor's read counts in the root of the context's page table: the write-back of the descriptor no longer finds
it, and tears the context down with its ring. -/
theorem farRingState_closed : ringStateAfter (.ringOpen 0 0 1) farRingState 0 = some 0 := by decide +kernel

/-- Refutes O32: no bound of the statement keeps the context's number below 4096. -/
theorem not_ringsOpenAndClose : ¬ Obligations.RingsOpenAndClose := by
  unfold Obligations.RingsOpenAndClose
  intro h
  obtain ⟨hlive, hctx, hopen, hclosed, hctl⟩ := farRingState_ready
  obtain ⟨hrange, -⟩ := h farRingState 0 farRoot hlive
  obtain ⟨hringOpen, -⟩ := hrange hctx hopen farRingState_canStore
  obtain ⟨t, hexec, hstate, -⟩ := hringOpen _ hclosed hctl farRingState_still farRingState_reads
  have hafter := ringStateAfter_of_next hexec 0
  rw [farRingState_closed, hstate] at hafter
  exact absurd hafter (by decide +kernel)

end Sys2Proof.Machine

namespace Sys2Proof.Machine

/-! ### A WAIT whose own read moves its page table (O36) -/

/-- A WAIT for 1 of the counter at address 0, which its threshold 0 lets through. -/
def farWait : Packet := ⟨[BitVec.ofNat 64 (opcWait * 2 ^ 56), 0, 0, 1, 0, 0], [], 0⟩

/-- Its ring, WAITING, with room for one command in flight. -/
def farWaitRing : Ring :=
  { Ring.closed with owner := farRoot, state := 3, w1 := BitVec.ofNat 64 (2 ^ 50), fetched := some farWait }

/-- The state of `farEventState` with its context OPEN, holding that ring and a budget, and nothing in flight. -/
def farWaitState : State :=
  { farEventState with
      flight := []
      ctxs := [(farRoot, { Ctx.free with state := 1, part := 2, count := 1 })]
      rings := [(0, farWaitRing)]
      eff := [(Reg.TCK_CTX_BUDGET farRoot, 1)] }

theorem farWaitState_ready : farWaitState.live = true ∧ (farWaitState.ring 0).fetched = some farWait ∧
    farWaitState.ctxOfRing 0 = some farRoot ∧ farWait.op = opcWait ∧ packetBad (farWaitState.ring 0) farWait = false ∧
    (farWaitState.ring 0).descVa % 64 = 0 := by decide +kernel

theorem farWaitState_waiting : (farWaitState.ring 0).state = 3 ∧ farWaitState.ctxState farRoot = 1 ∧
    (farWaitState.ctx farRoot).saving = none ∧ farWait.sh = 0 ∧ farWait.kh = 0 ∧ farWaitState.entry farWaitState.nextId = none := by
  decide +kernel

theorem farWaitState_mayAdmit :
    (farWaitState.setRing 0 { farWaitState.ring 0 with state := (farWaitState.ring 0).base }).mayAdmit 0 farRoot farWait = true := by
  decide +kernel

theorem farWaitState_still : farWaitState.mem.still := farEventState_still

theorem farWaitState_canStore : farWaitState.canStore farRoot ((farWaitState.ring 0).descVa + 32) 16 := by
  unfold State.canStore
  decide +kernel

theorem farWaitState_met : waitMet farWaitState farRoot farWait = .ok true := eq_ok_of_toOption (by decide +kernel)

/-- The hit of the counter's read counts in the root of the context's page table: the write-back that lets the ring fetch again no longer
finds the descriptor, and tears the context down with its ring. -/
theorem farWaitState_closed : ringStateAfter (.wait 0) farWaitState 0 = some 0 := by decide +kernel

/-- Refutes O36: no bound of the statement keeps the context's number below 4096. -/
theorem not_waitsTested : ¬ Obligations.WaitsTested := by
  unfold Obligations.WaitsTested
  intro h
  obtain ⟨hlive, hfetched, hctx, hop, hbad, haligned⟩ := farWaitState_ready
  obtain ⟨hstate, hopen, hsaving, hsh, hkh, hentry⟩ := farWaitState_waiting
  obtain ⟨hwait, -⟩ := h farWaitState 0 farRoot farWait hlive farWaitState_still
  obtain ⟨-, hmet⟩ := hwait hfetched hctx hop hbad farWaitState_canStore haligned
  obtain ⟨t, -, hexec, hbase, -⟩ :=
    hmet hstate hopen hsaving farWaitState_met farWaitState_mayAdmit hsh hkh hentry _ (.inl rfl)
  have hafter := ringStateAfter_of_next hexec 0
  rw [farWaitState_closed, hbase] at hafter
  exact absurd hafter (by decide +kernel)

end Sys2Proof.Machine

namespace Sys2Proof.Machine

/-! ### A MATMUL whose own claim moves its page table (O54) -/

/-- A context number, far above the 4,096 contexts, whose CTX_PT_ROOT would stand at 0x803010, the offset of LPE_FILL of core 0. -/
def farFeed : Nat := 0xC0C0

/-- A MATMUL of that context on array 0: one INT8 x at 0x3000 times one INT8 w at 0x4000, as A64 to 0x5000. -/
def farMatmul : Entry :=
  { farStore with
    ctx := farFeed
    pkt := ⟨[BitVec.ofNat 64 (opcMatmul * 2 ^ 56 + 2 ^ 52), 0, 0, BitVec.ofNat 64 (2 ^ 39 + 1), 0],
      natBytes [opcMatmul * 2 ^ 56, 0x3000, 0x5000, 2 ^ 39 + 2 ^ 14 + 0x80, 2 ^ 39 + 6 * 2 ^ 27, 0, 0x4000, 0], 0⟩
    run := { StageRun.idle with started := true, arrays := [0], items := 1, anchors := [0] } }

/-- The part in RUN with its stage in progress: other bytes have been fetched ahead on array 0, and LPE_FILL of core 0 has counted
2^17 - 1 misses. -/
def farMatmulRegs : State :=
  (({ State.reset with
      flight := [farMatmul]
      hol := { State.reset.hol with cur := builtIn, verified := true }
      tick := { State.reset.tick with lcCores := 1 }
      prefetched := [⟨0, 8, 0, 0, 0, 0, false⟩]
      pwr := { State.reset.pwr with on := 2 ^ 30 - 1, ready := 2 ^ 30 - 1, volts := 4800 } }).setReg Reg.GLB_STATE
    (BitVec.ofNat 64 stRun)).setReg (Reg.LPE_FILL 0) 0x1FFFF#64

/-- The same with a page table at 0x1_0000, where the context's root stands, that maps its first GiB to 0x4000_0000, and a 1 at the
address of the output. -/
def farMatmulState : State :=
  physWrite (physWrite (physWrite farMatmulRegs 0x10000 (leBytes 8 (2 ^ 63 + 0x20000)))
    0x20000 (leBytes 8 (2 ^ 63 + 2 ^ 62 + 2 ^ 61 + 0x40000000))) 0x40005000 [1]

theorem farMatmulState_runs : farMatmulState.runs 7 farMatmul := by
  unfold State.runs
  decide +kernel

theorem farMatmulState_still : farMatmulState.mem.still := by
  unfold Mem.still
  decide +kernel

theorem farMatmulState_canStore : farMatmulState.canStore farFeed 0x5000 8 := by
  unfold State.canStore
  decide +kernel

theorem farMatmulState_mayClaim : farMatmulState.mayClaim farMatmul 0 = true := by decide +kernel

/-- A value that is given and passes a test. -/
theorem exists_ok_of_any {α : Type} {x : Except MErr α} {q : α → Bool} (h : x.toOption.any q = true) : ∃ a, x = .ok a ∧ q a = true := by
  cases x with
  | error _ => cases h
  | ok a => exact ⟨a, rfl, h⟩

/-- The one element of a list of length 1. -/
theorem exists_singleton_of_all {α : Type} {l : List α} {q : α → Bool} (h : (decide (l.length = 1) && l.all q) = true) :
    ∃ a, l = [a] ∧ q a = true := by
  obtain ⟨hlen, hall⟩ := Bool.and_eq_true_iff.mp h
  obtain ⟨a, rfl⟩ := List.length_eq_one_iff.mp (of_decide_eq_true hlen)
  exact ⟨a, rfl, by simpa using hall⟩

/-- The stage draws its random words under this key. -/
def farMatmulKey : Key := ⟨0, 0, 0, 0⟩

theorem farMatmulState_key : keyOf farMatmulState farMatmul = .ok farMatmulKey := eq_ok_of_toOption (by decide +kernel)

/-- A product is of one item, whose one pass can be summed. -/
def isOneItem (p : Prod) : Bool :=
  decide (p.slices = 1 ∧ p.kOuter = false ∧ p.order ≠ 3 ∧ p.tiles = [⟨0, 0, 0⟩]) &&
    (decide ((p.passes ⟨0, 0, 0⟩).length = 1) && (p.passes ⟨0, 0, 0⟩).all fun q =>
      (mmSums farMatmulState farMatmul farMatmul.desc p (p.ent 0) q).toOption.any fun _ => true)

/-- Its one sum converts to the code 0. -/
def sumsToZero (p : Prod) : Bool :=
  (p.sums farMatmulState farMatmulKey (farMatmul.run.anchors.getD 0 0) ⟨0, 0, 0⟩ 0 0).toOption.any fun o =>
    (mmConvert farMatmulState farMatmul farMatmul.desc farMatmulKey (farMatmul.run.anchors.getD 0 0) 0 [0] 0 o.pt.vals).toOption.any
      fun l => decide (l.length = 1) && l.all fun cv => decide (cv.code = 0)

theorem farMatmulState_prod : ∃ p, stageProd farMatmulState farMatmul farMatmul.desc = .ok p ∧ (isOneItem p && sumsToZero p) = true :=
  exists_ok_of_any (by decide +kernel)

/-- The byte at a physical address after a step. -/
def byteAfter (c : Instr) (s : State) (pa : Nat) : Option Byte := match exec c s with
  | .next t => some (t.byteAt pa)
  | _ => none

theorem byteAfter_of_next {c : Instr} {s t : State} (h : exec c s = .next t) (pa : Nat) : byteAfter c s pa = some (t.byteAt pa) := by
  rw [byteAfter, h]

/-- The claim discards what was fetched ahead and counts a miss, in the root of the context's page table: x no longer translates, and
nothing is stored. -/
theorem farMatmulState_unstored : byteAfter (.matmul 7 0) farMatmulState 0x40005000 = some 1 := by decide +kernel

theorem farMatmulState_output : ∃ l, translate farMatmulState farFeed 0x5000 true = .ok l ∧ decide (l.pa = 0x40005000) = true :=
  exists_ok_of_any (by decide +kernel)

/-- Refutes O54: no bound of the statement keeps the context's number below 4096. The MATMUL of context `farFeed` multiplies 0 by 0, but
its output, where a 1 stands, is not stored. -/
theorem not_stageResults : ¬ Obligations.StageResults := by
  unfold Obligations.StageResults
  intro h
  obtain ⟨-, hmatmul, -⟩ := h
  obtain ⟨p, hp, hone⟩ := farMatmulState_prod
  obtain ⟨hitem, hsums⟩ := Bool.and_eq_true_iff.mp hone
  obtain ⟨hshape, hpasses⟩ := Bool.and_eq_true_iff.mp hitem
  obtain ⟨hslices, houter, horder, htiles⟩ := of_decide_eq_true hshape
  obtain ⟨q, hq, hmm⟩ := exists_singleton_of_all hpasses
  obtain ⟨l, hl, -⟩ := exists_ok_of_any hmm
  obtain ⟨o, ho, hconvert⟩ := exists_ok_of_any hsums
  obtain ⟨cvs, hcvs, hcodes⟩ := exists_ok_of_any hconvert
  obtain ⟨cv, rfl, hcode⟩ := exists_singleton_of_all hcodes
  obtain ⟨t, hexec, hstored, -⟩ := hmatmul farMatmulState 7 0 farMatmul farMatmulKey p q o cv farMatmulState_runs farMatmulState_still
    rfl (by decide +kernel) (by decide +kernel) rfl rfl rfl rfl rfl rfl (by decide +kernel) farMatmulState_mayClaim
    (by decide +kernel) (by decide +kernel) (by decide +kernel) (by decide +kernel) farMatmulState_key hp hslices houter horder htiles hq
    ⟨l, hl⟩ ho hcvs farMatmulState_canStore (by decide +kernel)
  obtain ⟨y, hy, hpa⟩ := farMatmulState_output
  have hbyte := hstored 0 y (by decide +kernel) hy
  have hafter := byteAfter_of_next hexec 0x40005000
  rw [farMatmulState_unstored, ← of_decide_eq_true hpa, hbyte, of_decide_eq_true hcode] at hafter
  exact absurd hafter (by decide)

end Sys2Proof.Machine

namespace Sys2Proof.Machine

/-! ### Registers in which no access counts (R171, R286 to R293)

Accesses of memory count in LPE_RETAIN of a core and in registers of the controllers, the cache and the log, which all lie above the
cores' blocks. Every other register reads as before. -/

/-- A register below the controllers' blocks that is LPE_RETAIN of no core. -/
def uncounted (off : Nat) : Prop := off < Reg.MEM_CFG 0 ∧ ∀ core, off ≠ Reg.LPE_RETAIN core

theorem uncounted_SEQ_WELT {core : Nat} (h : core < 64) : uncounted (Reg.SEQ_WELT core) := by
  refine ⟨?_, fun k => ?_⟩ <;> simp only [Reg.SEQ_WELT, Reg.MEM_CFG, Reg.LPE_RETAIN] <;> omega

theorem errReg_ge (s : State) (pa : Nat) : Reg.MEM_CFG 0 ≤ s.errReg pa := by
  unfold State.errReg
  split
  · simp only [Reg.MEM_CFG, Reg.MEM_ERR]
    omega
  · decide

/-- No register but those that accesses count in has changed. -/
def State.counted (s t : State) : Prop := ∀ off, uncounted off → t.reg off = s.reg off

namespace State.counted
variable {s t u : State} {α : Type}

theorem refl (s : State) : s.counted s := fun _ _ => rfl

theorem trans (h : s.counted t) (h' : t.counted u) : s.counted u := fun off ho => (h' off ho).trans (h off ho)

theorem ite {p : Prop} [Decidable p] (h : s.counted t) (h' : s.counted u) : s.counted (if p then t else u) := by
  split
  · exact h
  · exact h'

theorem foldl {f : State → α → State} (hf : ∀ u a, State.counted u (f u a)) (s : State) (l : List α) : s.counted (l.foldl f s) :=
  List.foldlRecOn (motive := s.counted) l f (refl s) fun u hu a _ => hu.trans (hf u a)

/-- What changes no register. -/
theorem of_regs (h : t.regs = s.regs) : s.counted t := fun off _ => congrArg (spGet (regReset off) · off) h

variable (s)

theorem putMem (m : Mem) : s.counted (s.putMem m) := of_regs rfl
theorem putFree (n : Nat) : s.counted (s.putFree n) := of_regs rfl
theorem putRetained (l : List Retained) : s.counted (s.putRetained l) := of_regs rfl

/-- A register above the cores' blocks. -/
theorem setReg {off : Nat} (h : Reg.MEM_CFG 0 ≤ off) (w : Word) : s.counted (s.setReg off w) := fun _ ho =>
  State.reg_setReg_ne s off _ w (Nat.ne_of_lt (Nat.lt_of_lt_of_le ho.1 h))

theorem addF {off : Nat} (h : Reg.MEM_CFG 0 ≤ off) (hi lo n : Nat) : s.counted (s.addF off hi lo n) := setReg s h _

theorem satF_errReg (u : State) (pa hi lo n : Nat) : s.counted (s.satF (u.errReg pa) hi lo n) := setReg s (errReg_ge u pa) _

theorem addF_cache (p hi lo n : Nat) : s.counted (s.addF (Reg.BLK_CACHE p) hi lo n) :=
  addF s (by simp only [Reg.MEM_CFG, Reg.BLK_CACHE]; omega) hi lo n

theorem addF_retain (core hi lo n : Nat) : s.counted (s.addF (Reg.LPE_RETAIN core) hi lo n) := fun _ ho =>
  State.reg_addF_ne s _ hi lo n _ (ho.2 core)

theorem tally (k n : Nat) : s.counted (tally s k n) := of_regs (tally_regs s k n)

theorem logError (a : LogArgs) : s.counted (logError s a) := fun off ho =>
  logError_reg s a off (Nat.ne_of_lt (Nat.lt_trans ho.1 (by decide))) (Nat.ne_of_lt (Nat.lt_trans ho.1 (by decide)))

/-! Accesses of memory. -/

theorem adviseRow (pa : Nat) : s.counted (adviseRow s pa) := (satF_errReg s s pa _ _ _).trans (logError _ _)

theorem correctUnit (u : Nat) (ctx : Option Nat) : s.counted (correctUnit s u ctx) := by
  have h (m : Mem) (k : Nat) (a : LogArgs) :
      s.counted (Machine.logError (Machine.tally ((s.putMem m).satF ((s.putMem m).errReg u) 63 48 1) k 1) a) :=
    trans (satF_errReg (s.putMem m) _ u _ _ _) ((tally _ _ _).trans (logError _ _))
  exact ite ((h _ _ _).trans (adviseRow _ u)) (h _ _ _)

theorem noteBadUnit (u status : Nat) (ctx : Option Nat) : s.counted (noteBadUnit s u status ctx) := by
  have h (hi lo k : Nat) : s.counted (Machine.tally (s.satF (s.errReg u) hi lo 1) k 1) := (satF_errReg s s u hi lo 1).trans (tally _ _ _)
  unfold Machine.noteBadUnit
  exact (ite (h _ _ _) (h _ _ _)).trans ((satF_errReg _ _ u _ _ _).trans (logError _ _))

theorem loseLine (ctx : Option Nat) (line : Nat) : s.counted (loseLine s ctx line) := by
  unfold Machine.loseLine
  dsimp only
  exact ((putMem s _).trans (putFree _ _)).trans (logError _ _)

theorem noteUnits (pa n : Nat) (ctx : Option Nat) : s.counted (noteUnits s pa n ctx) :=
  ite (refl s) (foldl (fun t u => ite (refl t) (ite (noteBadUnit t u _ ctx) (ite (correctUnit t u ctx) (refl t)))) s _)

theorem noteRead (pa n : Nat) (ctx : Option Nat) : s.counted (noteRead s pa n ctx) :=
  (noteUnits s pa n ctx).trans (foldl (fun t l => loseLine t ctx l) _ _)

theorem noteMerge (pa n : Nat) (ctx : Option Nat) : s.counted (noteMerge s pa n ctx) :=
  ite (refl s) (foldl (fun t u => noteRead t u 1 ctx) s _)

theorem evict (c : CacheLine) : s.counted (evict s c) := ite (loseLine s none c.line) (ite (putMem s _) (putMem s _))

theorem fillLine (line : Nat) (ctx : Option Nat) : s.counted (fillLine s line ctx) :=
  ite (refl s) (foldl (fun t u => ite (correctUnit t u ctx) (refl t)) s _)

theorem cacheLine (p line : Nat) (write whole : Bool) (ctx : Option Nat) : s.counted (cacheLine s p line write whole ctx) := by
  unfold Machine.cacheLine
  refine ite (refl s) ?_
  split
  · exact (putMem s _).trans (addF_cache _ _ _ _ _)
  · extract_lets ways mine way s1 s2 came
    have h1 : s.counted s1 := by
      simp only [s1]
      split
      · exact evict s _
      · exact refl s
    have h2 : s1.counted s2 := ite (refl s1) (fillLine s1 line ctx)
    exact (h1.trans h2).trans ((putMem s2 _).trans (addF_cache _ _ _ _ _))

theorem touchPhys (p pa n : Nat) (write : Bool) (ctx : Option Nat) : s.counted (touchPhys s p pa n write ctx) :=
  foldl (fun t _ => ite ((putMem t _).trans (cacheLine _ p _ _ _ ctx)) (putMem t _)) s _

theorem readPhys (p pa n : Nat) (ctx : Option Nat) : s.counted (readPhys s p pa n ctx) :=
  (touchPhys s p pa n false ctx).trans (noteRead _ pa n ctx)

theorem walked (n va : Nat) : s.counted (walked s n va) := by
  have h : s.counted ((s.walk n va).foldl (fun t ea => Machine.readPhys t (s.ctxPart n) ea 8 (some n)) s) :=
    foldl (fun t ea => readPhys t _ ea 8 _) s _
  unfold Machine.walked
  dsimp only
  split
  · exact ite (h.trans (putMem _ _)) h
  · exact h

theorem dropWhere (hit : Retained → Bool) : s.counted (dropWhere s hit) := by
  have hcount (t : State) (r : Retained) : t.counted (t.addF (Reg.LPE_RETAIN r.core) 31 0 1) := addF_retain t r.core 31 0 1
  unfold Machine.dropWhere
  exact (putRetained s _).trans (foldl hcount _ _)

theorem storePhys (p pa : Nat) (bs : List Byte) (ctx : Option Nat) : s.counted (storePhys s p pa bs ctx) := by
  unfold Machine.storePhys
  dsimp only
  exact (((dropWhere s _).trans (touchPhys _ p pa _ true ctx)).trans (noteMerge _ _ _ _)).trans (putMem _ _)

theorem writePieces (s0 : State) (c : Nat) (pcs : List (Nat × Nat)) (bs : List Byte) : s.counted (writePieces s0 s c pcs bs) := by
  induction pcs generalizing s bs with
  | nil => exact refl s
  | cons pc pcs ih =>
    unfold Machine.writePieces
    split
    · exact walked s c pc.1
    · exact ite (refl s) (((walked s c pc.1).trans (storePhys _ _ _ _ _)).trans (ih _ _))

theorem vwrite (c va : Nat) (bs : List Byte) : s.counted (vwrite s c va bs).1 := writePieces s s c _ bs

/-! Pages given back, and the end of a command. -/

theorem freePage (c i : Nat) : s.counted (freePage s c i).1 := by
  have hwrite := vwrite s c (s.poolVa c i + 8) (leBytes 8 ((s.pool c).2.headD (2 ^ 32 - 1)))
  unfold Machine.freePage M.next
  dsimp only
  split
  · exact hwrite
  · exact hwrite.trans (of_regs rfl)

theorem releaseReserved (id : Nat) : s.counted (releaseReserved s id) := by
  unfold Machine.releaseReserved keepReserved
  split
  · exact refl s
  · exact trans (t := s.setReserved id _ _) (of_regs rfl) (foldl (fun t g => freePage t _ g) _ _)

theorem finishWith (e : Entry) (c : Completion) : s.counted (finishWith s e c) := by
  have hcount : s.counted (if e.pkt.op = opcCollective then s.addF Reg.CLX_COLL_STAT 63 32 1 else s) :=
    ite (addF s (by decide) _ _ _) (refl s)
  have hlate (u : State) : u.counted (if s.lateOf e then Machine.tally u (telPart e.part telLate) 1 else u) := ite (tally u _ _) (refl u)
  have hentry (u : State) : u.counted (u.updEntry e.id Entry.finished) := of_regs rfl
  exact (hcount.trans ((hentry _).trans (hlate _))).trans (of_regs rfl)

end State.counted

end Sys2Proof.Machine

namespace Sys2Proof.Machine

/-! ### The packets of a command (R162, R163) -/

/-- A command's packets, whether each has been sent or waits for a credit. -/
def Entry.packets (e : Entry) : List WeltPacket := e.run.welt.map fun q => { q with sent := true }

theorem Entry.packets_seq (e : Entry) : e.packets.map (·.seq) = e.run.welt.map (·.seq) := List.map_map

/-- Every command holds the packets it held. -/
def State.samePackets (s t : State) : Prop := ∀ k, (t.entry k).map Entry.packets = (s.entry k).map Entry.packets

section
variable {s t u : State}

theorem State.samePackets.refl (s : State) : s.samePackets s := fun _ => rfl

/-- What changes no command. -/
theorem State.samePackets.of_flight (h : t.flight = s.flight) : s.samePackets t := fun k => by rw [State.entry, h, State.entry]

theorem State.samePackets.trans (h : s.samePackets t) (h' : t.samePackets u) : s.samePackets u := fun k => (h' k).trans (h k)

variable (s)

theorem updEntry_samePackets (id : Nat) {f : Entry → Entry} (hid : ∀ x, (f x).id = x.id) (hf : ∀ x, (f x).packets = x.packets) :
    s.samePackets (s.updEntry id f) := fun k => by
  rw [State.entry_updEntry s id k hid]
  cases s.entry k with
  | none => rfl
  | some x =>
    simp only [Option.map_some]
    split
    · rw [hf]
    · rfl

theorem Entry.markSent_packets (n : Nat) (x : Entry) : (x.markSent n).packets = x.packets := by
  refine List.map_map.trans (List.map_congr_left fun q _ => ?_)
  simp only [Function.comp_apply]
  split <;> rfl

theorem sendOne_samePackets (x : Nat × WeltPacket) : s.samePackets (sendOne s x) := by
  unfold sendOne
  split
  · exact .refl s
  · exact (State.samePackets.of_flight (State.addF_flight s _ _ _ _)).trans
      (updEntry_samePackets _ x.1 (f := Entry.markSent x.2.seq) (fun _ => rfl) (Entry.markSent_packets _))

/-- Sending what has credits loses no packet and adds none. -/
theorem pumpWelt_samePackets : s.samePackets (pumpWelt s) :=
  List.foldlRecOn (motive := s.samePackets) _ sendOne (.refl s) fun u hu x _ => hu.trans (sendOne_samePackets u x)

theorem sendOne_mem (x : Nat × WeltPacket) : (sendOne s x).mem = s.mem := by
  unfold sendOne
  split
  · rfl
  · rw [updRun, State.updEntry_mem, State.addF_mem]

theorem pumpWelt_mem : (pumpWelt s).mem = s.mem :=
  List.foldlRecOn (motive := fun u : State => u.mem = s.mem) _ sendOne rfl fun u hu x _ => (sendOne_mem u x).trans hu

variable (id c core key n : Nat) (kind : Held)

theorem addSpace_samePackets (x : Space) : s.samePackets (addSpace s id x) := updEntry_samePackets s id (fun _ => rfl) fun _ => rfl

theorem takeSpace_samePackets : s.samePackets (takeSpace s id c core kind key n).1 := by
  unfold takeSpace
  split
  · exact .refl s
  split
  · exact addSpace_samePackets s id _
  split
  · exact addSpace_samePackets s id _
  · exact .refl s

theorem takePlace_samePackets (pl : Place) (size : Nat) : s.samePackets (takePlace s id c core pl size kind key n).1 := by
  unfold takePlace
  split
  · exact addSpace_samePackets s id _
  · exact takeSpace_samePackets s id c core key n kind

theorem flightOnly_takePlace (pl : Place) (size : Nat) : s.flightOnly (takePlace s id c core pl size kind key n).1 := by
  unfold takePlace
  split
  · rfl
  · exact flightOnly_takeSpace s id c core kind key n

end

/-! ### A packet accepted (R162, R163) -/

/-- A command with packet p acknowledged. -/
def Entry.acknowledged (p : WeltPacket) (x : Entry) : Entry :=
  { x with run := { x.run with welt := x.run.welt.filter fun q => decide (q.seq ≠ p.seq) } }

/-- A command with packet p acknowledged and on its second hop. -/
def Entry.passedOn (p : WeltPacket) (x : Entry) : Entry :=
  { x with run := { x.run with
      welt := (x.run.welt.filter fun q => decide (q.seq ≠ p.seq)) ++ [{ p with src := p.dst, dst := p.final, fails := 0, sent := false }] } }

/-- A packet at its final array acknowledged, and a halo placed there. -/
def haloTaken (s : State) (e : Entry) (p : WeltPacket) : M :=
  let s1 := s.updEntry e.id (Entry.acknowledged p)
  if (e.descAt p.stage).op = opcScan then (s1, none) else takePlace s1 e.id e.ctx p.final .halo haloArea .halo p.stage p.length

section
variable {s t : State} {e : Entry} {p : WeltPacket}

theorem acceptPacket_onWay (h : p.dst ≠ p.final) : acceptPacket s e p = (pumpWelt (s.updEntry e.id (Entry.passedOn p)), none) := if_pos h

theorem acceptPacket_final (h : p.dst = p.final) : acceptPacket s e p = (haloTaken s e p).next fun u => (pumpWelt u, none) :=
  if_neg (not_not_intro h)

variable (s e p)

/-- A seam's packet takes no place, a halo takes its own. -/
theorem haloTaken_cases : haloTaken s e p = (s.updEntry e.id (Entry.acknowledged p), none) ∨
    haloTaken s e p = takePlace (s.updEntry e.id (Entry.acknowledged p)) e.id e.ctx p.final .halo haloArea .halo p.stage p.length :=
  (ite_eq_or_eq _ _ _)

theorem haloTaken_worked : s.worked e.id false (haloTaken s e p).1 := by
  have hack : s.worked e.id false (s.updEntry e.id (Entry.acknowledged p)) := .updSame s
  rcases haloTaken_cases s e p with h | h
  · rw [h]
    exact hack
  · rw [h]
    exact hack.trans (.takePlace _ _ _ _ _ _ _ _)

theorem haloTaken_flightOnly : s.flightOnly (haloTaken s e p).1 := by
  have hack : s.flightOnly (s.updEntry e.id (Entry.acknowledged p)) := flightOnly_updEntry s _ _
  rcases haloTaken_cases s e p with h | h
  · rw [h]
    exact hack
  · rw [h]
    exact hack.trans (flightOnly_takePlace _ _ _ _ _ _ _ _ _)

theorem haloTaken_samePackets : (s.updEntry e.id (Entry.acknowledged p)).samePackets (haloTaken s e p).1 := by
  rcases haloTaken_cases s e p with h | h
  · rw [h]
    exact .refl _
  · rw [h]
    exact takePlace_samePackets _ _ _ _ _ _ _ _ _

/-- The stage goes on, and the other commands with it. -/
theorem acceptPacket_worked : s.worked e.id false (acceptPacket s e p).1 := by
  by_cases h : p.dst = p.final
  · rw [acceptPacket_final h]
    exact (haloTaken_worked s e p).next fun u => .pumpWelt u
  · rw [acceptPacket_onWay h]
    exact .trans (.updSame s) (.pumpWelt _)

variable {s e p}

theorem acceptPacket_mem (h : acceptPacket s e p = (t, none)) : t.mem = s.mem := by
  by_cases hp : p.dst = p.final
  · rw [acceptPacket_final hp] at h
    obtain rfl : pumpWelt (haloTaken s e p).1 = t := congrArg Prod.fst (M.next_ok h).2
    rw [pumpWelt_mem, haloTaken_flightOnly, State.putFlight_mem]
  · rw [acceptPacket_onWay hp] at h
    obtain rfl : pumpWelt (s.updEntry e.id (Entry.passedOn p)) = t := congrArg Prod.fst h
    rw [pumpWelt_mem, State.updEntry_mem]

/-- The packets that a command holds once one of them has been accepted. -/
theorem acceptPacket_packets (he : s.entry e.id = some e) (h : acceptPacket s e p = (t, none)) :
    (t.entry e.id).map Entry.packets =
      some (if p.dst = p.final then (e.acknowledged p).packets else (e.passedOn p).packets) := by
  by_cases hp : p.dst = p.final
  · rw [acceptPacket_final hp] at h
    obtain rfl : pumpWelt (haloTaken s e p).1 = t := congrArg Prod.fst (M.next_ok h).2
    rw [if_pos hp, pumpWelt_samePackets, haloTaken_samePackets,
      State.entry_updEntry_same (f := Entry.acknowledged p) (fun _ => rfl) he]
    rfl
  · rw [acceptPacket_onWay hp] at h
    obtain rfl : pumpWelt (s.updEntry e.id (Entry.passedOn p)) = t := congrArg Prod.fst h
    rw [if_neg hp, pumpWelt_samePackets,
      State.entry_updEntry_same (f := Entry.passedOn p) (fun _ => rfl) he]
    rfl

/-- The number of a packet at its final array is no longer outstanding; every other one still is. -/
theorem acknowledged_seq {x : Entry} (h : x.packets = (e.acknowledged p).packets) (n : Nat) :
    n ∈ x.run.welt.map (·.seq) ↔ n ∈ e.run.welt.map (·.seq) ∧ n ≠ p.seq := by
  have hwelt : (e.acknowledged p).run.welt = e.run.welt.filter fun q => decide (q.seq ≠ p.seq) := rfl
  rw [← x.packets_seq, h, Entry.packets_seq, hwelt]
  simp only [List.mem_map, List.mem_filter, decide_eq_true_eq]
  constructor
  · rintro ⟨q, ⟨hq, hseq⟩, rfl⟩
    exact ⟨⟨q, hq, rfl⟩, hseq⟩
  · rintro ⟨⟨q, hq, rfl⟩, hseq⟩
    exact ⟨q, ⟨hq, hseq⟩, rfl⟩

/-- A packet on its way goes on to the final array with its bytes. -/
theorem passedOn_mem {x : Entry} (h : x.packets = (e.passedOn p).packets) :
    ∃ q ∈ x.run.welt, q.seq = p.seq ∧ q.src = p.dst ∧ q.dst = p.final ∧ q.fails = 0 ∧ q.bytes = p.bytes := by
  have hmem : { p with src := p.dst, dst := p.final, fails := 0, sent := true } ∈ x.packets := by
    rw [h]
    exact List.mem_map.mpr ⟨_, List.mem_append_right _ (List.mem_singleton.mpr rfl), rfl⟩
  obtain ⟨q, hq, heq⟩ := List.mem_map.mp hmem
  rw [WeltPacket.mk.injEq] at heq
  obtain ⟨hsrc, hdst, -, hseq, -, -, -, -, -, hbytes, hfails, -⟩ := heq
  exact ⟨q, hq, hseq, hsrc, hdst, hfails, hbytes⟩

end

/-! ### A packet refused (R164) -/

/-- A command with one more failed check of packet p. -/
def Entry.refused (p : WeltPacket) (x : Entry) : Entry :=
  { x with run := { x.run with welt := x.run.welt.map fun q => if q.seq = p.seq then { q with fails := q.fails + 1 } else q } }

/-- The state with the packet resent and both counted. -/
def packetResent (s : State) (e : Entry) (p : WeltPacket) : State :=
  ((s.updEntry e.id (Entry.refused p)).addF (Reg.SEQ_WELT p.src) 63 32 1).satF (Reg.SEQ_WELT p.src) 31 16 1

/-- The state with the failure counted and the slots of the stage given back. -/
def packetFailed (s : State) (e : Entry) (p : WeltPacket) : State :=
  dropAcquired ((s.updEntry e.id (Entry.refused p)).satF (Reg.SEQ_WELT p.src) 15 0 1) e

section
variable {s : State} {e : Entry} {p : WeltPacket}

theorem packetResent_eq : packetResent s e p =
    ((s.updEntry e.id (Entry.refused p)).addF (Reg.SEQ_WELT p.src) 63 32 1).satF (Reg.SEQ_WELT p.src) 31 16 1 := rfl

theorem packetFailed_eq : packetFailed s e p =
    ((s.updEntry e.id (Entry.refused p)).satF (Reg.SEQ_WELT p.src) 15 0 1).putSlots (packetFailed s e p).slots := dropAcquired_eq _ _

theorem refusePacket_resends (h : p.fails ≠ 3) : refusePacket s e p = packetResent s e p := if_neg h

/-- A counter that saturates, just added to. -/
theorem State.fldR_satF_same (s : State) (off hi lo n : Nat) (h : lo ≤ hi) (h64 : hi < 64) :
    (s.satF off hi lo n).fldR off hi lo = min (s.fldR off hi lo + n) (2 ^ (hi + 1 - lo) - 1) := by
  have hpos := Nat.two_pow_pos (hi + 1 - lo)
  rw [State.satF, State.fldR_setF_same _ _ _ _ _ h h64, Nat.mod_eq_of_lt (by unfold satAdd; omega), satAdd]

theorem packetResent_sent :
    (packetResent s e p).fldR (Reg.SEQ_WELT p.src) 63 32 = (s.fldR (Reg.SEQ_WELT p.src) 63 32 + 1) % 2 ^ 32 := by
  rw [packetResent_eq, State.satF, State.fldR_setF_disjoint _ _ _ _ _ _ _ (by decide) (by decide) (by decide),
    State.fldR_addF_same _ _ _ _ _ (by decide) (by decide), State.updEntry_fldR]

theorem packetResent_resent :
    (packetResent s e p).fldR (Reg.SEQ_WELT p.src) 31 16 = min 65535 (s.fldR (Reg.SEQ_WELT p.src) 31 16 + 1) := by
  rw [packetResent_eq, State.fldR_satF_same _ _ _ _ _ (by decide) (by decide), Nat.min_comm, State.addF,
    State.fldR_setF_disjoint _ _ _ _ _ _ _ (by decide) (by decide) (by decide), State.updEntry_fldR]
  rfl

theorem packetResent_sameRegs : s.sameRegs (packetResent s e p) [Reg.SEQ_WELT p.src] := fun off hoff => by
  have hne : off ≠ Reg.SEQ_WELT p.src := by simpa using hoff
  rw [packetResent_eq, State.reg_satF_ne _ _ _ _ _ _ hne, State.reg_addF_ne _ _ _ _ _ _ hne, State.updEntry_reg]

theorem packetResent_entry (he : s.entry e.id = some e) : (packetResent s e p).entry e.id = some (e.refused p) := by
  rw [packetResent_eq, State.satF_entry, State.addF_entry]
  exact State.entry_updEntry_same (f := Entry.refused p) (fun _ => rfl) he

theorem packetResent_mem : (packetResent s e p).mem = s.mem := by
  rw [packetResent_eq, State.satF_mem, State.addF_mem, State.updEntry_mem]

theorem packetResent_ctxs : (packetResent s e p).ctxs = s.ctxs := by
  rw [packetResent_eq, State.satF_ctxs, State.addF_ctxs, State.updEntry_ctxs]

theorem refused_mem (h : p ∈ e.run.welt) : { p with fails := p.fails + 1 } ∈ (e.refused p).run.welt :=
  List.mem_map.mpr ⟨p, h, if_pos rfl⟩

theorem packetFailed_fldR :
    (packetFailed s e p).fldR (Reg.SEQ_WELT p.src) 15 0 = min 65535 (s.fldR (Reg.SEQ_WELT p.src) 15 0 + 1) := by
  rw [packetFailed_eq, State.putSlots_fldR, State.fldR_satF_same _ _ _ _ _ (by decide) (by decide), Nat.min_comm,
    State.updEntry_fldR]
  rfl

theorem packetFailed_entry (k : Nat) : (packetFailed s e p).entry k = (s.updEntry e.id (Entry.refused p)).entry k := by
  rw [packetFailed_eq, State.putSlots_entry, State.satF_entry]

theorem packetFailed_entry_same (he : s.entry e.id = some e) : (packetFailed s e p).entry e.id = some (e.refused p) :=
  (packetFailed_entry e.id).trans (State.entry_updEntry_same (f := Entry.refused p) (fun _ => rfl) he)

theorem packetFailed_ctx (n : Nat) : (packetFailed s e p).ctx n = s.ctx n := by
  rw [packetFailed_eq, State.putSlots_ctx, State.satF_ctx, State.updEntry_ctx]

/-- The state with the command ended by DATA_ERROR_DETECTED. -/
def packetLost (s : State) (e : Entry) (p : WeltPacket) : State :=
  releaseReserved (finishWith (packetFailed s e p) (e.refused p) { status := 3, stage := some e.stage }) e.id

/-- A lost packet ends the stage that needs it. -/
theorem refusePacket_loses (he : s.entry e.id = some e) (hd : e.done = false) (h : p.fails = 3)
    (hstage : p.stage + 1 = e.stage ∨ (p.stage = e.stage ∧ e.desc.op = opcScan)) : refusePacket s e p = packetLost s e p := by
  have hneeds : p.stage + 1 = e.stage ∨ (p.stage = e.stage ∧ (e.descAt p.stage).op = opcScan) :=
    hstage.imp_right fun ⟨heq, hop⟩ => ⟨heq, by rw [heq]; exact hop⟩
  have hcomplete : complete (packetFailed s e p) e.id { status := 3, stage := some e.stage } =
      finishWith (packetFailed s e p) (e.refused p) { status := 3, stage := some e.stage } :=
    complete_eq_of_nil (packetFailed_entry_same he) hd rfl
  exact ((if_pos h).trans (if_pos hneeds)).trans (congrArg (releaseReserved · e.id) hcomplete)

/-- Pages given back leave the contexts and the commands. -/
theorem packetLost_keeps :
    (packetLost s e p).ctxs = (finishWith (packetFailed s e p) (e.refused p) { status := 3, stage := some e.stage }).ctxs ∧
      (packetLost s e p).flight = (finishWith (packetFailed s e p) (e.refused p) { status := 3, stage := some e.stage }).flight :=
  releaseReserved_keeps _ _

theorem packetLost_reports : s.reports (packetLost s e p) e 3 := by
  obtain ⟨hctxs, -⟩ := packetLost_keeps (s := s) (e := e) (p := p)
  have hreports := finishWith_reports (s := packetFailed s e p) (e := e.refused p) (c := { status := 3, stage := some e.stage })
    (show 3 < 256 by decide)
  exact (hreports.of_entry rfl rfl rfl).of_ctx (packetFailed_ctx e.ctx).symm (by rw [State.ctx, hctxs, State.ctx])

theorem packetLost_fldR (h : p.src < 64) :
    (packetLost s e p).fldR (Reg.SEQ_WELT p.src) 15 0 = min 65535 (s.fldR (Reg.SEQ_WELT p.src) 15 0 + 1) := by
  have hcounted : (packetFailed s e p).counted (packetLost s e p) := .trans (.finishWith _ _ _) (.releaseReserved _ e.id)
  rw [State.fldR, hcounted _ (uncounted_SEQ_WELT h)]
  exact packetFailed_fldR

theorem packetLost_othersKept (he : s.entry e.id = some e) : s.othersKept (packetLost s e p) e.id := fun k hk => by
  obtain ⟨-, hflight⟩ := packetLost_keeps (s := s) (e := e) (p := p)
  rw [State.entry, hflight, ← State.entry, finishWith_entry_ne (packetFailed_entry_same he) k hk, packetFailed_entry]
  exact State.entry_updEntry_ne (f := Entry.refused p) s (fun _ => rfl) hk

end

/-! ### The steps -/

/-- WELT_PACKET_RECEIVE of a packet on its way (R163, R164). -/
theorem exec_weltPacketReceive {s : State} {id dst seq : Nat} {e : Entry} {p : WeltPacket} (hruns : s.runs id e)
    (hp : (e.run.welt.find? fun p => p.sent && decide (p.dst = dst ∧ p.seq = seq ∧ p.fails < 4)) = some p) (crcOk : Bool) :
    exec (.weltPacketReceive id dst seq crcOk) s = .next (if crcOk then stageAct s e (acceptPacket s e p) else refusePacket s e p) := by
  obtain ⟨hlive, he, hd, -⟩ := hruns
  change Host.Outcome.next _ = _
  rw [he]
  dsimp only
  rw [hp]
  simp only [hlive, hd, Bool.not_true, Bool.false_eq_true, or_self, if_false]

/-- The state with the bytes at va fetched ahead on an array for stage st, expected for item i (R172). -/
def fetchedAheadState (s : State) (e : Entry) (array va len i : Nat) : State :=
  (vtouch s e.ctx va len).putPrefetched (⟨array, e.id, prefetchStage e, i, va, len, false⟩ ::
    (vtouch s e.ctx va len).prefetched.filter fun x => x.used || decide (x.array ≠ array))

section
variable {s : State} {id array va len fmt : Nat} {e : Entry}

theorem exec_prefetch (hruns : s.runs id e) (hrun : s.devState = stRun) (hop : isCompute e.pkt.op = true) (hfmt : fmt < 12)
    (hstage : prefetchStage e < e.pkt.stages) (hgranted : (s.grantedArrays e.ctx e.cls).contains array = true)
    (hbarred : prefetchBarred s e va len = false) : exec (.prefetch id array va len fmt) s =
      .next (fetchedAheadState s e array va len (expectedItem s e (prefetchStage e) array)) := by
  obtain ⟨-, he, hd, hpart⟩ := hruns
  obtain rfl : e.id = id := State.entry_id he
  change Host.Outcome.next _ = _
  rw [he]
  simp only [hrun, hd, hpart, hop, hgranted, hbarred, Nat.not_le.mpr hfmt, Nat.not_le.mpr hstage, ne_eq, not_true_eq_false, Bool.not_true,
    Bool.false_eq_true, or_self, if_false]
  rfl

/-- Outside RUN, or of bytes that an earlier stage writes, nothing is fetched ahead (R172, R173). -/
theorem exec_prefetch_barred (hruns : s.runs id e) (h : s.devState ≠ stRun ∨ prefetchBarred s e va len = true) :
    exec (.prefetch id array va len fmt) s = .next s := by
  obtain ⟨-, he, -, -⟩ := hruns
  change Host.Outcome.next _ = _
  rw [he]
  refine congrArg Host.Outcome.next (if_pos ?_)
  rcases h with h | h
  · exact .inl h
  · simp only [h, or_true]

variable (i : Nat)

theorem fetchedAheadState_prefetched : (fetchedAheadState s e array va len i).prefetched =
    ⟨array, e.id, prefetchStage e, i, va, len, false⟩ :: s.prefetched.filter fun x => x.used || decide (x.array ≠ array) :=
  congrArg (_ :: List.filter _ ·) (keepsWork_vtouch s e.ctx va len).prefetched

/-- What waited on the array has made way. -/
theorem fetchedAheadState_waiting {x : Prefetched} (hx : x ∈ (fetchedAheadState s e array va len i).prefetched) (ha : x.array = array)
    (hu : x.used = false) : x = ⟨array, e.id, prefetchStage e, i, va, len, false⟩ := by
  rw [fetchedAheadState_prefetched] at hx
  refine (List.mem_cons.mp hx).resolve_right fun hmem => ?_
  simpa [ha, hu] using (List.mem_filter.mp hmem).2

/-- Other arrays keep what was fetched ahead for them. -/
theorem fetchedAheadState_others {x : Prefetched} (ha : x.array ≠ array) :
    x ∈ (fetchedAheadState s e array va len i).prefetched ↔ x ∈ s.prefetched := by
  have hne : x ≠ ⟨array, e.id, prefetchStage e, i, va, len, false⟩ := fun h => ha (congrArg Prefetched.array h)
  rw [fetchedAheadState_prefetched, List.mem_cons, or_iff_right hne, List.mem_filter]
  exact and_iff_left (by simp [ha])

/-- The read that fetches ahead writes nothing. -/
theorem fetchedAheadState_sameMemory (h : s.mem.still) : s.sameMemory (fetchedAheadState s e array va len i) :=
  ((State.readsAlike.vtouch s e.ctx va len).trans (.of_mem rfl)).sameMemory h

theorem fetchedAheadState_sameWork : s.sameWork (fetchedAheadState s e array va len i) := by
  have h := keepsWork_vtouch s e.ctx va len
  exact ⟨h.ctxs, h.rings, h.flight, h.slots, h.images, h.kv⟩

end

/-- Settles O53: a packet by the packets and counts that its check leaves, a prefetch by the read it accounts. -/
theorem halosAndPrefetch : Obligations.HalosAndPrefetch := by
  unfold Obligations.HalosAndPrefetch
  intro s id e hruns
  obtain ⟨hlive, he, hd, hpart⟩ := hruns
  obtain rfl : e.id = id := State.entry_id he
  replace hruns : s.runs e.id e := ⟨hlive, he, hd, hpart⟩
  refine ⟨fun dst seq p hp => ?_, fun array va len fmt =>
    ⟨fun hrun hop hfmt hstage hgranted hbarred => ?_, fun h => exec_prefetch_barred hruns h⟩⟩
  · have hexec := exec_weltPacketReceive hruns hp
    obtain rfl : p.seq = seq := by
      have := List.find?_some hp
      simp only [Bool.and_eq_true, decide_eq_true_eq] at this
      exact this.2.2.1
    refine ⟨fun t ht => ?accepted, fun hfails _ => ?resent, fun hfails hstage hsrc => ?lost⟩
    case accepted =>
      have hworked : s.worked e.id false t := by simpa only [ht] using acceptPacket_worked s e p
      obtain ⟨x, hx, hitems⟩ := hworked.entry he
      have hpackets := acceptPacket_packets he ht
      rw [hx, Option.map_some, Option.some.injEq] at hpackets
      refine ⟨by rw [hexec, if_pos rfl, ht]; rfl, hworked.ctxs, acceptPacket_mem ht, fun hs => (hworked.leavesOthers hs).2,
        x, hx, hitems.items, fun hfinal => ?_, fun hway => ?_⟩
      · exact acknowledged_seq (by rw [hpackets, if_pos hfinal])
      · exact passedOn_mem (by rw [hpackets, if_neg hway])
    case resent =>
      refine ⟨_, _, by rw [hexec, if_neg (by decide), refusePacket_resends (by omega)], packetResent_entry he,
        refused_mem (List.mem_of_find?_eq_some hp), List.length_map _, hd, packetResent_sent, packetResent_resent,
        packetResent_sameRegs, sameMemory_of_mem packetResent_mem, packetResent_ctxs⟩
    case lost =>
      exact ⟨_, by rw [hexec, if_neg (by decide), refusePacket_loses he hd hfails hstage], packetLost_reports, packetLost_fldR hsrc,
        packetLost_othersKept he⟩
  · exact ⟨_, _, exec_prefetch hruns hrun hop hfmt hstage hgranted hbarred,
      by rw [fetchedAheadState_prefetched]; exact List.mem_cons_self, fun _ => fetchedAheadState_waiting _,
      fun _ => fetchedAheadState_others _, fetchedAheadState_sameMemory _, fetchedAheadState_sameWork _⟩

end Sys2Proof.Machine

namespace Sys2Proof.Machine

/-! ### A KV pool whose own link counts in the register that holds its size (O43) -/

/-- The context whose KV_CTX_CFG is at 0xf13018, where LPE_RETAIN of a core 113 would stand. -/
def retainedCtx : Nat := 1027

/-- The part in RUN with bytes of that context, at address 0, retained on core 113. -/
def retainedRegs : State :=
  { State.reset with
      hol := { State.reset.hol with cur := builtIn, verified := true }
      retained := [⟨113, retainedCtx, 0, 64, 0, false⟩]
      pwr := { State.reset.pwr with on := 2 ^ 30 - 1, ready := 2 ^ 30 - 1, volts := 4800 } }
    |>.setReg Reg.GLB_STATE (BitVec.ofNat 64 stRun)
    |>.setReg (Reg.CTX_PT_ROOT retainedCtx) 0x10000#64

/-- The same with a page table that maps the context's first GiB to 0x4000_0000. Its pool, at address 0, is empty. -/
def retainedState : State :=
  physWrite (physWrite retainedRegs 0x10000 (leBytes 8 (2 ^ 63 + 0x20000)))
    0x20000 (leBytes 8 (2 ^ 63 + 2 ^ 62 + 2 ^ 61 + 0x40000000))

/-- A pool of one page of 16 KiB (Table 8.16). -/
def onePagePool : Word := BitVec.ofNat 64 (16 * 2 ^ 55 + 1)

theorem retainedState_still : retainedState.mem.still := by
  unfold Mem.still
  decide

/-- The page newly covered is free. -/
theorem retainedState_fresh : freshPages retainedState retainedCtx 0 1 = .ok [0] := eq_ok_of_toOption (by decide)

/-- A field of a register after a step. -/
def fieldAfter (c : Instr) (s : State) (off hi lo : Nat) : Option Nat := match exec c s with
  | .next t => some (t.fldR off hi lo)
  | _ => none

theorem fieldAfter_of_next {c : Instr} {s t : State} (h : exec c s = .next t) (off hi lo : Nat) :
    fieldAfter c s off hi lo = some (t.fldR off hi lo) := by
  rw [fieldAfter, h]

/-- The write of the page's link drops the retained bytes, and the drop counts in the pool's size. -/
theorem retainedState_size :
    fieldAfter (.kvCtxCfgWrite 0 retainedCtx onePagePool) retainedState (Reg.KV_CTX_CFG retainedCtx) 31 0 = some 2 := by decide

/-- Refutes O43: no bound of the statement keeps the core of a retained range below 64. The pool of context 1027 gains one page, whose
link is written over bytes retained on core 113; the count of the drop, LPE_RETAIN of that core, is at the place of the context's
KV_CTX_CFG, so that its size reads 2. -/
theorem not_functionSettings : ¬ Obligations.FunctionSettings := by
  unfold Obligations.FunctionSettings
  intro h
  obtain ⟨-, -, hpool⟩ := h retainedState (by decide)
  obtain ⟨t, hexec, -, -, hsize, -⟩ := hpool retainedCtx onePagePool [0] (by decide) (by decide) retainedState_still
    (by decide) retainedState_fresh (by decide)
  have hafter := fieldAfter_of_next hexec (Reg.KV_CTX_CFG retainedCtx) 31 0
  rw [retainedState_size, hsize] at hafter
  exact absurd hafter (by decide)

end Sys2Proof.Machine

namespace Sys2Proof.Machine

/-! ### An ALLREDUCE whose own message moves its page table (O56) -/

/-- A context number, far above the 4,096 contexts, whose CTX_PT_ROOT would stand at 0x1200010, the offset of CLX_STAT. -/
def farRoute : Nat := 0x34000

/-- An ALLREDUCE of that context in group 0: one element from 0x3000, as A64 to 0x5000. It has begun and holds its own contribution. -/
def farReduce : Entry :=
  { farStore with
    ctx := farRoute
    pkt := ⟨[opcCollective * 2 ^ 56, 0, 0, 1, coAllreduce * 2 ^ 60 + 0x3000, 6 * 2 ^ 60 + 0x5000, 3 * 2 ^ 32, 2 ^ 32].map (BitVec.ofNat 64),
      [], 0⟩
    begun := true
    recvd := [(0, 1)]
    stagedVals := [(0, [5])] }

/-- The part in RUN as device 5, rank 0 of the direct exchange of group 0 with device 6, with that ALLREDUCE in flight. Port 0 is UP and
its partner unknown, so that no route leads to device 6; one message has found none. -/
def farReduceRegs : State :=
  { State.reset with
      flight := [farReduce]
      hol := { State.reset.hol with cur := builtIn, verified := true }
      fab := { State.reset.fab with groups := [(0, [5, 6])] }
      pwr := { State.reset.pwr with on := 2 ^ 30 - 1, ready := 2 ^ 30 - 1, volts := 4800 } }
    |>.setReg Reg.GLB_STATE (BitVec.ofNat 64 stRun)
    |>.setReg Reg.CLX_ID 5#64
    |>.setReg (Reg.CLX_GROUP_CFG 0) (BitVec.ofNat 64 (2 ^ 63 + 2 ^ 58 + 2 * 2 ^ 41 + 77 * 2 ^ 9))
    |>.setReg (Reg.PLK_STAT 0) (BitVec.ofNat 64 (2 * 2 ^ 62))
    |>.setReg Reg.CLX_STAT 0x10000#64

/-- The same with a page table at 0x1_0000, where the context's root stands, that maps its first GiB to 0x4000_0000. -/
def farReduceState : State :=
  physWrite (physWrite farReduceRegs 0x10000 (leBytes 8 (2 ^ 63 + 0x20000)))
    0x20000 (leBytes 8 (2 ^ 63 + 2 ^ 62 + 2 ^ 61 + 0x40000000))

/-- The contribution of rank 1. -/
def farReduceMsg : FabMsg := ⟨5, 6, false, 3, 0, .coll coAllreduce 77 1 1 false 0 0 (zeros 8)⟩

/-- It is taken, and belongs to the ALLREDUCE in flight. -/
theorem farReduceState_takes : farReduceState.takesVc12 0 farReduceMsg = true ∧
    farReduceState.collMatch 77 3 coAllreduce false = some farReduce ∧ farReduceState.entry farReduce.id = some farReduce := by decide

/-- The contribution agrees with the ALLREDUCE and is the last. -/
theorem farReduceState_arrived :
    let c := collOf farReduce.pkt
    let g := farReduceState.group c.group
    collAgrees farReduce c g coAllreduce 1 0 0 8 = true ∧ collArrived (takeSum farReduce 1 0 (zeros 8)) c g = true := by decide

theorem farReduceState_canStore : farReduceState.canStore farRoute 0x5000 8 := by
  unfold State.canStore
  decide

theorem farReduceState_still : farReduceState.mem.still := by
  unfold Mem.still
  decide

/-- The sum that has no route to device 6 counts in the root of the context's page table: the destination no longer translates. -/
theorem farReduceState_statuses : statusesAfter (.collectiveData 0 farReduceMsg) farReduceState farRoute = [2] := by decide

/-- Refutes O56: no bound of the statement keeps the context's number below 4096. The last contribution to the ALLREDUCE of context
`farRoute` completes its sum, which it sends on to rank 1 (R346); the message has no route, and its count, CLX_STAT.NO_ROUTE, is at
the place of the context's CTX_PT_ROOT, so that the write of the destination meets another page table, and the command reports
TRANSLATION_FAULT. -/
theorem not_collectivesReceived : ¬ Obligations.CollectivesReceived := by
  unfold Obligations.CollectivesReceived
  intro h
  obtain ⟨htakes, hmatch, hentry⟩ := farReduceState_takes
  obtain ⟨-, hcoll, -⟩ := h farReduceState 0 farReduceMsg
  obtain ⟨hdata, -⟩ := hcoll htakes coAllreduce 77 1 1 0 0 (zeros 8)
  obtain ⟨-, hlive⟩ := hdata rfl
  obtain ⟨-, hrunning⟩ := hlive (by decide)
  obtain ⟨hagrees, harrived⟩ := farReduceState_arrived
  obtain ⟨-, hlast⟩ := hrunning farReduce hmatch hentry hagrees (by decide)
  obtain ⟨t, hexec, hreports, -⟩ := hlast harrived (by decide) farReduceState_canStore (by decide) farReduceState_still
  have hstatus : farReduceState.okStatus farReduce ∈ statusesAfter (.collectiveData 0 farReduceMsg) farReduceState farRoute :=
    statusesAfter_of_reports hexec hreports
  rw [farReduceState_statuses] at hstatus
  exact absurd hstatus (by decide)

end Sys2Proof.Machine
